-- ==== Sys2Proof/Word.lean ====
section
/-!
DEFINITION. The word types of the module: a register is 64 bits (R10), a line is 128 bytes, a bundle 512 bits (R92),
a vector register 8,192 bits (R62). Addresses used as keys are plain naturals.
-/
namespace Sys2Proof

/-- One register, or one scalar register of a core (R10, R62). -/
abbrev Word := BitVec 64

/-- One byte of memory. -/
abbrev Byte := BitVec 8

/-- One 128-byte line: the coherence granule and the LLA line (00_scope). -/
abbrev Line := BitVec 1024

/-- One vector register (R62). -/
abbrev VWord := BitVec 8192

/-- Sparse data by key: pairs with strictly rising keys, no entry equal to the table's default. -/
abbrev Tab (α : Type) := List (Nat × α)

end Sys2Proof
end

