-- ==== Sys2Proof/Syntax.lean ====
section
/-!
DEFINITION. The commands of the module, as syntax: one constructor of `Instr` per row of the table of operations and
events, with the operands that row needs (the table itself gives none). Operands are as narrow as the thing they name, so
that few ill-formed commands can be written; WellFormed.lean checks what the types do not.
-/
namespace Sys2Proof

/-- Path by which a register access reaches the hub (R51, R406, R412, R485). -/
inductive Path where
  | bar0
  | mgmt (session : Nat)
  | smbus
  | testPort
  deriving DecidableEq, Repr

/-- Which part of a register a write addresses (R10). -/
inductive RegHalf where
  | full
  | low
  | high
  deriving DecidableEq, Repr

/-- What the silicon does to the line a request touches, found during the request: nothing, a corrected error, an uncorrectable
HBM line (R170), an uncorrectable LLA line (R169), both tag copies of its LLA way lost (R169), both copies of its directory
entry lost (R440). -/
inductive SilErr where
  | none
  | corrected
  | hbm
  | llaData
  | llaTag
  | dirEntry
  deriving DecidableEq, Repr

/-- Failed lanes of one UCIe module (R18, R19): the data lanes in each direction, and the clock, valid and track lanes: bit 2i of `ctl` is a lane
and bit 2i + 1 its spare, for i from 0 the outward clock, valid and track lanes, then the inward ones. -/
structure ModTrain where
  outLanes : BitVec 64 := 0
  inLanes : BitVec 64 := 0
  ctl : BitVec 12 := 0
  deriving DecidableEq, Repr

/-- What the silicon does to the words of tile memory that an access reads (R76): nothing, a single-bit error that is corrected, an uncorrectable word. -/
inductive TileErr where
  | none
  | corrected
  | uncorrectable
  deriving DecidableEq, Repr

/-- A Deckle message arriving from a site: its first slot, the 128-bit header of R209. -/
structure DkIn where
  site : Fin 8
  hdr : BitVec 128
  deriving DecidableEq, Repr

/-- The Ethernet header of a frame (R336). -/
structure EthHdr where
  dst : BitVec 48
  src : BitVec 48
  etherType : BitVec 16
  deriving DecidableEq, Repr

/-- A Meridian packet arriving at a port (R337): its header fields, its payload, and whether AES-256-GCM authenticates it
(R348). `eth` is the header of its frame, none where it is the one R336 gives; `poison` that the payload is that of a poisoned line
(DESIGN CHOICE, log 147). -/
structure NxPkt where
  port : Fin 128
  keyId : BitVec 2
  jobTag : BitVec 16
  src : BitVec 14
  dst : BitVec 14
  flags : BitVec 2
  psn : BitVec 32
  addr : BitVec 64
  opid : BitVec 32
  aux : BitVec 16
  payload : List Byte
  auth : Bool
  srcPort : BitVec 8 := 0
  eth : Option EthHdr := none
  poison : Bool := false
  deriving DecidableEq, Repr

/-- What a KEY_EXCH packet says (R347, R349). -/
inductive KeyMsg where
  | hello
  | share
  | jobKey
  | nextKey (keyId : BitVec 2)
  | ackKey
  | switch
  | askRekey
  deriving DecidableEq, Repr

/-- A RoCE v2 request arriving at a port (R351, R352). -/
structure RocePkt where
  port : Fin 128
  qp : BitVec 12
  psn : BitVec 24
  rkey : BitVec 32
  va : BitVec 64
  len : BitVec 32
  imm : BitVec 32
  payload : List Byte
  ecn : Bool
  deriving DecidableEq, Repr

/-- The host's answer to an outbound request (R372). -/
inductive HostAns where
  | ok
  | unsupported
  | abort
  | poisoned
  | atsFailed
  deriving DecidableEq, Repr

/-- State of a Mould core beside its X registers and memories (R62, R65): a vector or predicate register, a byte of the weight or the side buffers, an
element of the accumulators (tile × 16384 + row × 128 + column), the PC, a control register, a semaphore. -/
inductive CoreReg where
  | v (r : BitVec 6)
  | p (r : BitVec 3)
  | w (i : BitVec 16)
  | ws (i : BitVec 14)
  | acc (i : BitVec 16)
  | pc
  | csr (n : BitVec 12)
  | sem (k : BitVec 4)
  deriving DecidableEq, Repr

/-- A debug access (R420, R421). `wayRead` and `wayWrite` reach the raw LLA array: the line a way of a home slice holds in a set. -/
inductive DebugAcc where
  | coreHalt (core : Fin 144)
  | coreStep (core : Fin 144)
  | coreReadX (core : Fin 144) (x : BitVec 5)
  | coreWriteX (core : Fin 144) (x : BitVec 5) (v : BitVec 64)
  | coreRead (core : Fin 144) (r : CoreReg)
  | coreWrite (core : Fin 144) (r : CoreReg) (v : BitVec 8192)
  | tileRead (core : Fin 144) (addr : BitVec 22) (len : BitVec 8)
  | tileWrite (core : Fin 144) (addr : BitVec 22) (data : List Byte)
  | imemRead (core : Fin 144) (addr : BitVec 18) (len : BitVec 8)
  | imemWrite (core : Fin 144) (addr : BitVec 18) (data : List Byte)
  | felt (h : Fin 2)
  | memRead (addr : BitVec 50) (len : BitVec 8)
  | memWrite (addr : BitVec 50) (data : List Byte)
  | wayRead (slice : Fin 32) (set : BitVec 14) (way : Fin 16)
  | wayWrite (slice : Fin 32) (set : BitVec 14) (way : Fin 16) (data : BitVec 1024)
  | trace (slice : BitVec 6)
  | sideband (site : Fin 16) (off : BitVec 16) (data : BitVec 64)
  | wmkDiag
  deriving DecidableEq, Repr

/-- An engine, walker or TLB slice that can be retired (R282, R440). -/
inductive EngineUnit where
  | ce (e : Fin 48)
  | cal (k : Fin 8)
  | col (c : Fin 2)
  | walker (w : Fin 64)
  | tlb (t : Fin 16)
  deriving DecidableEq, Repr

/-- A block that gates its power (R461). -/
inductive GateUnit where
  | core (c : Fin 144)
  | ce (e : Fin 48)
  | cal (k : Fin 8)
  | col (c : Fin 2)
  | walker (w : Fin 64)
  | lane (port : Fin 128)
  deriving DecidableEq, Repr

/-- A unit Survey tests (R468). -/
inductive SurveyKind where
  | core (c : Fin 144)
  | bank (c : Fin 144) (bank : BitVec 7)
  | engine (u : EngineUnit)
  | way (slice : Fin 32) (way : Fin 16)
  | link (net : Fin 7) (router : Fin 192)
  deriving DecidableEq, Repr

/-- SPDM binding (R413). -/
inductive SpdmBind where
  | doe
  | mgmt (session : Nat)
  deriving DecidableEq, Repr

/-- An SPDM request (R413). -/
inductive SpdmReq where
  | getVersion
  | getCapabilities
  | negotiate
  | getDigests
  | getCertificate (slot : BitVec 4)
  | challenge (slot : BitVec 4)
  | keyExchange
  | finish
  | endSession
  | other (code : BitVec 8)
  deriving DecidableEq, Repr

/-- The fields of a vector slot beside its opcode (R108). -/
structure VFields where
  ty : BitVec 5
  dtype : BitVec 5
  vd : BitVec 6
  va : BitVec 6
  vb : BitVec 6
  vc : BitVec 6
  pg : BitVec 3
  bx : Bool
  rm : BitVec 3
  part : BitVec 2
  imm : BitVec 32
  deriving DecidableEq, Repr

/-- The fields of an MMA (R117, R118). -/
structure MmaFields where
  ad : BitVec 2
  wn : BitVec 1
  z : Bool
  sp : Bool
  fmt : BitVec 5
  ra : BitVec 5
  rs : BitVec 5
  rb : BitVec 5
  row0 : BitVec 7
  rows : BitVec 8
  deriving DecidableEq, Repr

/-- The commands: one constructor per row of the table of operations and events. The docstring of each names the rule that
governs it; how a row is modelled stands at its meaning. -/
inductive Instr where
  /-- POR_N_ASSERT (R480). -/
  | porNAssert
  /-- POR_N_RELEASE (R426). -/
  | porNRelease (bootSel : BitVec 2) (perstScope : Bool)
  /-- VIN_MAIN_LOSS (R480). -/
  | vinMainLoss
  /-- ROOT_EN_WRITE (R24). -/
  | rootEnWrite (v : Bool)
  /-- ROOT_LOCK (R24). -/
  | rootLock
  /-- ROOT_LOCK_TIMEOUT (R24). -/
  | rootLockTimeout
  /-- ROOT_LOCK_LOST (R23). -/
  | rootLockLost
  /-- SITE_PWR_REQ (R29). -/
  | sitePwrReq (site : Fin 16)
  /-- SITE_POWERED (R29). -/
  | sitePowered (site : Fin 16)
  /-- SITE_CLK_FWD (R29). -/
  | siteClkFwd (site : Fin 16)
  /-- SITE_HELD (R29). -/
  | siteHeld (site : Fin 16)
  /-- SITE_RST_REL (R29). -/
  | siteRstRel (site : Fin 16)
  /-- SITE_TRAIN (R29). -/
  | siteTrain (site : Fin 16)
  /-- SITE_TRAINING_DONE (R19). -/
  | siteTrainingDone (site : Fin 16) (mods : List ModTrain) (chFailed : BitVec 32)
  /-- SITE_RESET (R30). -/
  | siteReset (site : Fin 16)
  /-- SITE_RESET_RESOLVED (R30). -/
  | siteResetResolved (site : Fin 16)
  /-- SITE_CTL_CLEAR (R31). -/
  | siteCtlClear (site : Fin 16) (bit : Fin 3)
  /-- SITE_LINK_LOST (R31). -/
  | siteLinkLost (site : Fin 16)
  /-- IVR_LIMIT_REACHED (R28). -/
  | ivrLimitReached (pd : Fin 48)
  /-- UNDERVOLT (R28). -/
  | undervolt (pd : Fin 48)
  /-- CHART_OPEN (R51). -/
  | chartOpen (path : Path)
  /-- CHART_VERIFY (R53). -/
  | chartVerify (path : Path)
  /-- VERIFY_DONE (R53). -/
  | verifyDone
  /-- CHART_APPLY (R58). -/
  | chartApply (path : Path)
  /-- APPLY_DONE (R55). -/
  | applyDone
  /-- CHART_ABORT (R53). -/
  | chartAbort (path : Path)
  /-- CHART_WINDOW_WRITE (R51). -/
  | chartWindowWrite (path : Path) (off : BitVec 19) (wide : Bool) (v : BitVec 64)
  /-- CHART_SESSION_TIMEOUT (R52). -/
  | chartSessionTimeout
  /-- ADD (R99). -/
  | add (core : Fin 144) (slot : Fin 2) (rd rs1 rs2 : BitVec 5)
  /-- SUB (R99). -/
  | sub (core : Fin 144) (slot : Fin 2) (rd rs1 rs2 : BitVec 5)
  /-- AND (R99). -/
  | and (core : Fin 144) (slot : Fin 2) (rd rs1 rs2 : BitVec 5)
  /-- OR (R99). -/
  | or (core : Fin 144) (slot : Fin 2) (rd rs1 rs2 : BitVec 5)
  /-- XOR (R99). -/
  | xor (core : Fin 144) (slot : Fin 2) (rd rs1 rs2 : BitVec 5)
  /-- SLL (R99). -/
  | sll (core : Fin 144) (slot : Fin 2) (rd rs1 rs2 : BitVec 5)
  /-- SRL (R99). -/
  | srl (core : Fin 144) (slot : Fin 2) (rd rs1 rs2 : BitVec 5)
  /-- SRA (R99). -/
  | sra (core : Fin 144) (slot : Fin 2) (rd rs1 rs2 : BitVec 5)
  /-- SLT (R99). -/
  | slt (core : Fin 144) (slot : Fin 2) (rd rs1 rs2 : BitVec 5)
  /-- SLTU (R99). -/
  | sltu (core : Fin 144) (slot : Fin 2) (rd rs1 rs2 : BitVec 5)
  /-- SEQ (R99). -/
  | seq (core : Fin 144) (slot : Fin 2) (rd rs1 rs2 : BitVec 5)
  /-- MIN (R99). -/
  | min (core : Fin 144) (slot : Fin 2) (rd rs1 rs2 : BitVec 5)
  /-- MAX (R99). -/
  | max (core : Fin 144) (slot : Fin 2) (rd rs1 rs2 : BitVec 5)
  /-- MINU (R99). -/
  | minu (core : Fin 144) (slot : Fin 2) (rd rs1 rs2 : BitVec 5)
  /-- MAXU (R99). -/
  | maxu (core : Fin 144) (slot : Fin 2) (rd rs1 rs2 : BitVec 5)
  /-- ADDI (R99). -/
  | addi (core : Fin 144) (slot : Fin 2) (rd rs1 : BitVec 5) (imm : BitVec 32)
  /-- ANDI (R99). -/
  | andi (core : Fin 144) (slot : Fin 2) (rd rs1 : BitVec 5) (imm : BitVec 32)
  /-- ORI (R99). -/
  | ori (core : Fin 144) (slot : Fin 2) (rd rs1 : BitVec 5) (imm : BitVec 32)
  /-- XORI (R99). -/
  | xori (core : Fin 144) (slot : Fin 2) (rd rs1 : BitVec 5) (imm : BitVec 32)
  /-- SLLI (R99). -/
  | slli (core : Fin 144) (slot : Fin 2) (rd rs1 : BitVec 5) (imm : BitVec 32)
  /-- SRLI (R99). -/
  | srli (core : Fin 144) (slot : Fin 2) (rd rs1 : BitVec 5) (imm : BitVec 32)
  /-- SRAI (R99). -/
  | srai (core : Fin 144) (slot : Fin 2) (rd rs1 : BitVec 5) (imm : BitVec 32)
  /-- SLTI (R99). -/
  | slti (core : Fin 144) (slot : Fin 2) (rd rs1 : BitVec 5) (imm : BitVec 32)
  /-- SLTIU (R99). -/
  | sltiu (core : Fin 144) (slot : Fin 2) (rd rs1 : BitVec 5) (imm : BitVec 32)
  /-- SEQI (R99). -/
  | seqi (core : Fin 144) (slot : Fin 2) (rd rs1 : BitVec 5) (imm : BitVec 32)
  /-- MOVI (R99). -/
  | movi (core : Fin 144) (slot : Fin 2) (rd : BitVec 5) (imm : BitVec 32)
  /-- MOVH (R99). -/
  | movh (core : Fin 144) (slot : Fin 2) (rd rs1 : BitVec 5) (imm : BitVec 32)
  /-- MUL (R99). -/
  | mul (core : Fin 144) (slot : Fin 2) (rd rs1 rs2 : BitVec 5)
  /-- MULH (R99). -/
  | mulh (core : Fin 144) (slot : Fin 2) (rd rs1 rs2 : BitVec 5)
  /-- MULHU (R99). -/
  | mulhu (core : Fin 144) (slot : Fin 2) (rd rs1 rs2 : BitVec 5)
  /-- DIV (R100). -/
  | div (core : Fin 144) (rd rs1 rs2 : BitVec 5)
  /-- DIVU (R100). -/
  | divu (core : Fin 144) (rd rs1 rs2 : BitVec 5)
  /-- REM (R100). -/
  | rem (core : Fin 144) (rd rs1 rs2 : BitVec 5)
  /-- REMU (R100). -/
  | remu (core : Fin 144) (rd rs1 rs2 : BitVec 5)
  /-- CSRR (R65). -/
  | csrr (core : Fin 144) (rd : BitVec 5) (csr : BitVec 12)
  /-- CSRW (R65). -/
  | csrw (core : Fin 144) (csr : BitVec 12) (rs1 : BitVec 5)
  /-- BEQ (R101). -/
  | beq (core : Fin 144) (rs1 rs2 : BitVec 5) (target : BitVec 16)
  /-- BNE (R101). -/
  | bne (core : Fin 144) (rs1 rs2 : BitVec 5) (target : BitVec 16)
  /-- BLT (R101). -/
  | blt (core : Fin 144) (rs1 rs2 : BitVec 5) (target : BitVec 16)
  /-- BGE (R101). -/
  | bge (core : Fin 144) (rs1 rs2 : BitVec 5) (target : BitVec 16)
  /-- BLTU (R101). -/
  | bltu (core : Fin 144) (rs1 rs2 : BitVec 5) (target : BitVec 16)
  /-- BGEU (R101). -/
  | bgeu (core : Fin 144) (rs1 rs2 : BitVec 5) (target : BitVec 16)
  /-- J (R101). -/
  | j (core : Fin 144) (target : BitVec 16)
  /-- JAL (R101). -/
  | jal (core : Fin 144) (rd : BitVec 5) (target : BitVec 16)
  /-- JR (R101). -/
  | jr (core : Fin 144) (rs1 : BitVec 5)
  /-- LOOP (R70). -/
  | loop (core : Fin 144) (lc : Fin 2) (rs1 : BitVec 5) (target : BitVec 16)
  /-- BRK (R99). -/
  | brk (core : Fin 144) (imm : BitVec 32)
  /-- HALT (R86). -/
  | halt (core : Fin 144)
  /-- HALT_COMPLETE (R86). -/
  | haltComplete (core : Fin 144)
  /-- EMPTY_BUNDLE (R94). -/
  | emptyBundle (core : Fin 144)
  /-- LD8 (R105). -/
  | ld8 (core : Fin 144) (xt xa : BitVec 5) (imm : BitVec 32)
  /-- LD8U (R105). -/
  | ld8u (core : Fin 144) (xt xa : BitVec 5) (imm : BitVec 32)
  /-- LD16 (R105). -/
  | ld16 (core : Fin 144) (xt xa : BitVec 5) (imm : BitVec 32)
  /-- LD16U (R105). -/
  | ld16u (core : Fin 144) (xt xa : BitVec 5) (imm : BitVec 32)
  /-- LD32 (R105). -/
  | ld32 (core : Fin 144) (xt xa : BitVec 5) (imm : BitVec 32)
  /-- LD32U (R105). -/
  | ld32u (core : Fin 144) (xt xa : BitVec 5) (imm : BitVec 32)
  /-- LD64 (R105). -/
  | ld64 (core : Fin 144) (xt xa : BitVec 5) (imm : BitVec 32) (err : TileErr)
  /-- ST8 (R105). -/
  | st8 (core : Fin 144) (xt xa : BitVec 5) (imm : BitVec 32) (err : TileErr)
  /-- ST16 (R105). -/
  | st16 (core : Fin 144) (xt xa : BitVec 5) (imm : BitVec 32)
  /-- ST32 (R105). -/
  | st32 (core : Fin 144) (xt xa : BitVec 5) (imm : BitVec 32)
  /-- ST64 (R105). -/
  | st64 (core : Fin 144) (xt xa : BitVec 5) (imm : BitVec 32)
  /-- VLD (R107). -/
  | vld (core : Fin 144) (vt : BitVec 6) (xa : BitVec 5) (imm : BitVec 32) (ps : BitVec 3)
  /-- VST (R107). -/
  | vst (core : Fin 144) (vt : BitVec 6) (xa : BitVec 5) (imm : BitVec 32) (ps : BitVec 3)
  /-- VLDBC (R105). -/
  | vldbc (core : Fin 144) (vt : BitVec 6) (xa : BitVec 5) (imm : BitVec 32) (ps : BitVec 3)
  /-- AMOADD (R106). -/
  | amoadd (core : Fin 144) (xt xa xb : BitVec 5) (imm : BitVec 32) (sz u : Bool)
  /-- AMOSWAP (R106). -/
  | amoswap (core : Fin 144) (xt xa xb : BitVec 5) (imm : BitVec 32) (sz u : Bool)
  /-- AMOCAS (R106). -/
  | amocas (core : Fin 144) (xt xa xb xc : BitVec 5) (imm : BitVec 32) (sz u : Bool)
  /-- AMOMIN (R106). -/
  | amomin (core : Fin 144) (xt xa xb : BitVec 5) (imm : BitVec 32) (sz u : Bool)
  /-- AMOMAX (R106). -/
  | amomax (core : Fin 144) (xt xa xb : BitVec 5) (imm : BitVec 32) (sz u : Bool)
  /-- SEMWAIT (R80). -/
  | semwait (core : Fin 144) (sk : BitVec 4) (xb : BitVec 5)
  /-- SEMWAIT_RESUME (R80). -/
  | semwaitResume (core : Fin 144)
  /-- SEMPOST (R80). -/
  | sempost (core : Fin 144) (xa : BitVec 5) (sk : BitVec 4) (xb : BitVec 5)
  /-- SEMSET (R80). -/
  | semset (core : Fin 144) (sk : BitVec 4) (xb : BitVec 5)
  /-- TMPUSH (R81). -/
  | tmpush (core : Fin 144) (tq : Fin 4) (xa : BitVec 5)
  /-- TMDRAIN (R86). -/
  | tmdrain (core : Fin 144) (tq : Fin 4)
  /-- TMDRAIN_RESUME (R86). -/
  | tmdrainResume (core : Fin 144)
  /-- FENCE (R236). -/
  | fence (core : Fin 144) (scope : Fin 4)
  /-- FENCE_DONE (R236). -/
  | fenceDone (core : Fin 144)
  /-- VADD (R112). -/
  | vadd (core : Fin 144) (slot : Fin 2) (f : VFields)
  /-- VSUB (R112). -/
  | vsub (core : Fin 144) (slot : Fin 2) (f : VFields)
  /-- VMUL (R112). -/
  | vmul (core : Fin 144) (slot : Fin 2) (f : VFields)
  /-- VFMA (R112). -/
  | vfma (core : Fin 144) (slot : Fin 2) (f : VFields)
  /-- VFMS (R112). -/
  | vfms (core : Fin 144) (slot : Fin 2) (f : VFields)
  /-- VFNMA (R112). -/
  | vfnma (core : Fin 144) (slot : Fin 2) (f : VFields)
  /-- VMIN (R112). -/
  | vmin (core : Fin 144) (slot : Fin 2) (f : VFields)
  /-- VMAX (R112). -/
  | vmax (core : Fin 144) (slot : Fin 2) (f : VFields)
  /-- VABS (R112). -/
  | vabs (core : Fin 144) (slot : Fin 2) (f : VFields)
  /-- VNEG (R112). -/
  | vneg (core : Fin 144) (slot : Fin 2) (f : VFields)
  /-- VMOV (R112). -/
  | vmov (core : Fin 144) (slot : Fin 2) (f : VFields)
  /-- VSEL (R112). -/
  | vsel (core : Fin 144) (slot : Fin 2) (f : VFields)
  /-- VAND (R112). -/
  | vand (core : Fin 144) (slot : Fin 2) (f : VFields)
  /-- VOR (R112). -/
  | vor (core : Fin 144) (slot : Fin 2) (f : VFields)
  /-- VXOR (R112). -/
  | vxor (core : Fin 144) (slot : Fin 2) (f : VFields)
  /-- VSLL (R112). -/
  | vsll (core : Fin 144) (slot : Fin 2) (f : VFields)
  /-- VSRL (R112). -/
  | vsrl (core : Fin 144) (slot : Fin 2) (f : VFields)
  /-- VSRA (R112). -/
  | vsra (core : Fin 144) (slot : Fin 2) (f : VFields)
  /-- VCMPEQ (R112). -/
  | vcmpeq (core : Fin 144) (slot : Fin 2) (f : VFields)
  /-- VCMPNE (R112). -/
  | vcmpne (core : Fin 144) (slot : Fin 2) (f : VFields)
  /-- VCMPLT (R112). -/
  | vcmplt (core : Fin 144) (slot : Fin 2) (f : VFields)
  /-- VCMPLE (R112). -/
  | vcmple (core : Fin 144) (slot : Fin 2) (f : VFields)
  /-- VCMPGT (R112). -/
  | vcmpgt (core : Fin 144) (slot : Fin 2) (f : VFields)
  /-- VCMPGE (R112). -/
  | vcmpge (core : Fin 144) (slot : Fin 2) (f : VFields)
  /-- PAND (R112). -/
  | pand (core : Fin 144) (slot : Fin 2) (f : VFields)
  /-- POR (R112). -/
  | por (core : Fin 144) (slot : Fin 2) (f : VFields)
  /-- PXOR (R112). -/
  | pxor (core : Fin 144) (slot : Fin 2) (f : VFields)
  /-- PANDN (R112). -/
  | pandn (core : Fin 144) (slot : Fin 2) (f : VFields)
  /-- PNOT (R112). -/
  | pnot (core : Fin 144) (slot : Fin 2) (f : VFields)
  /-- PSETN (R112). -/
  | psetn (core : Fin 144) (slot : Fin 2) (f : VFields)
  /-- VCVT (R113). -/
  | vcvt (core : Fin 144) (slot : Fin 2) (f : VFields)
  /-- VCVTMX (R114). -/
  | vcvtmx (core : Fin 144) (f : VFields)
  /-- VCVTFMX (R114). -/
  | vcvtfmx (core : Fin 144) (slot : Fin 2) (f : VFields)
  /-- VREDSUM (R115). -/
  | vredsum (core : Fin 144) (f : VFields)
  /-- VREDMAX (R115). -/
  | vredmax (core : Fin 144) (f : VFields)
  /-- VREDMIN (R115). -/
  | vredmin (core : Fin 144) (f : VFields)
  /-- VPERM (R112). -/
  | vperm (core : Fin 144) (f : VFields)
  /-- VROT (R112). -/
  | vrot (core : Fin 144) (f : VFields)
  /-- VBCAST (R112). -/
  | vbcast (core : Fin 144) (f : VFields)
  /-- VMVXV (R112). -/
  | vmvxv (core : Fin 144) (f : VFields)
  /-- VRCP (R116). -/
  | vrcp (core : Fin 144) (f : VFields)
  /-- VRSQRT (R116). -/
  | vrsqrt (core : Fin 144) (f : VFields)
  /-- VEXP2 (R116). -/
  | vexp2 (core : Fin 144) (f : VFields)
  /-- VLOG2 (R116). -/
  | vlog2 (core : Fin 144) (f : VFields)
  /-- LDW (R118). -/
  | ldw (core : Fin 144) (wn : Fin 2) (xa : BitVec 5) (fmt : BitVec 5) (sp : Bool)
  /-- MMA (R71). -/
  | mma (core : Fin 144) (f : MmaFields)
  /-- ACCMV (R118). -/
  | accmv (core : Fin 144) (vd : BitVec 6) (ad : Fin 4) (row0 : BitVec 7)
  /-- ACCST (R141). -/
  | accst (core : Fin 144) (ad : Fin 4) (xa xs : BitVec 5) (fmt : BitVec 5)
  /-- ACCCLR (R118). -/
  | accclr (core : Fin 144) (ad : Fin 4)
  /-- XDRAIN (R72). -/
  | xdrain (core : Fin 144)
  /-- XDRAIN_DONE (R72). -/
  | xdrainDone (core : Fin 144)
  /-- MATRIX_OP_START (R72). -/
  | matrixOpStart (core : Fin 144)
  /-- GET (R81). -/
  | tmGet (core : Fin 144) (tq : Fin 4) (upto : Nat) (err : SilErr)
  /-- PUT (R81). -/
  | tmPut (core : Fin 144) (tq : Fin 4) (upto : Nat)
  /-- LCOPY (R81). -/
  | tmLcopy (core : Fin 144) (tq : Fin 4) (upto : Nat)
  /-- TM_SIGNAL (R81). -/
  | tmSignal (core : Fin 144) (tq : Fin 4)
  /-- TM_DESC_COMPLETE (R82). -/
  | tmDescComplete (core : Fin 144) (tq : Fin 4)
  /-- TM_DESC_FAIL (R83). -/
  | tmDescFail (core : Fin 144) (tq : Fin 4)
  /-- HALT_REQ (R88). -/
  | haltReq (site : Fin 6) (unit : Fin 24)
  /-- CORE_RESET (R85). -/
  | coreReset (site : Fin 6) (unit : Fin 24)
  /-- CORE_RESET_DONE (R85). -/
  | coreResetDone (core : Fin 144)
  /-- LAUNCH (R87). -/
  | launch (q : Fin 4096)
  /-- LAUNCH_START (R87). -/
  | launchStart (q : Fin 4096)
  /-- LAUNCH_COMPLETE (R87). -/
  | launchComplete (q : Fin 4096)
  /-- CORE_RETIRE (R434). -/
  | coreRetire (core : Fin 144)
  /-- LLA_ENABLE (R167). -/
  | llaEnable
  /-- LLA_DISABLE (R167). -/
  | llaDisable
  /-- LLA_DISABLE_DONE (R167). -/
  | llaDisableDone
  /-- LLA_MAINT_STORE (R163). -/
  | llaMaintStore (slice : Option (Fin 32)) (ways : BitVec 16) (reg : BitVec 7)
  /-- CLEAN (R162). -/
  | clean (slice : Option (Fin 32)) (ways : BitVec 16) (reg : BitVec 7)
  /-- INVALIDATE (R162). -/
  | invalidate (slice : Option (Fin 32)) (ways : BitVec 16) (reg : BitVec 7)
  /-- CLEAN_INVALIDATE (R162). -/
  | cleanInvalidate (slice : Option (Fin 32)) (ways : BitVec 16) (reg : BitVec 7)
  /-- ZERO (R162). -/
  | llaZero (slice : Option (Fin 32)) (ways : BitVec 16) (reg : BitVec 7)
  /-- PRELOAD (R162). -/
  | preload (slice : Option (Fin 32)) (ways : BitVec 16) (reg : BitVec 7)
  /-- MAINT_ABORT (R162). -/
  | maintAbort (slice : Option (Fin 32)) (ways : BitVec 16) (reg : BitVec 7)
  /-- MAINT_DONE (R165). -/
  | maintDone (slice : Fin 32) (system : Bool)
  /-- LLA_INIT_DONE (R168). -/
  | llaInitDone
  /-- PATROL_SCRUB (R171). -/
  | patrolScrub (ch : Fin 256) (caLine : BitVec 25) (err : SilErr)
  /-- ROW_SPARE (R172). -/
  | rowSpare (ch : Fin 256) (spareLeft : Bool)
  /-- CHANNEL_RETIRE (R173). -/
  | channelRetire (ch : Fin 256)
  /-- STACK_TEMP_READ (R174). -/
  | stackTempRead (stack : Fin 8) (temp : BitVec 8)
  /-- REFRESH (R176). -/
  | refresh (ch : Fin 256)
  /-- RECALIBRATION (R176). -/
  | recalibration (ch : Fin 256)
  /-- RECAL_DONE (R177). -/
  | recalDone (ch : Fin 256)
  /-- DEMAND_WALK (R188). -/
  | demandWalk (slice : Fin 64) (port : Fin 12) (dva : BitVec 64) (access : Fin 3)
  /-- PREFETCH_WALK (R190). -/
  | prefetchWalk (slice : Fin 64) (dva : BitVec 57)
  /-- GTU_CTX_ROOT_WRITE (R187). -/
  | gtuCtxRootWrite (slice : Fin 64) (v : BitVec 64)
  /-- INV_STORE (R194). -/
  | invStore (slice : BitVec 6) (seq : BitVec 16)
  /-- INV_MODULE (R194). -/
  | invModule (slice : BitVec 6) (seq : BitVec 16)
  /-- INV_CONTEXT (R194). -/
  | invContext (slice : BitVec 6) (seq : BitVec 16)
  /-- INV_RANGE (R194). -/
  | invRange (slice : BitVec 6) (seq : BitVec 16)
  /-- INV_COMPLETE (R195). -/
  | invComplete
  /-- RD_SHARE (R219). -/
  | rdShare (m : DkIn) (err : SilErr)
  /-- RD_OWN (R219). -/
  | rdOwn (m : DkIn) (err : SilErr)
  /-- UPGRADE (R219). -/
  | upgrade (m : DkIn)
  /-- RD_PEEK (R219). -/
  | rdPeek (m : DkIn) (err : SilErr)
  /-- WR_LINE (R219). -/
  | wrLine (m : DkIn)
  /-- WR_BYTES (R219). -/
  | wrBytes (m : DkIn)
  /-- WRBACK (R219). -/
  | wrback (m : DkIn)
  /-- AT_ADD (R223). -/
  | atAdd (m : DkIn) (op0 op1 : BitVec 64)
  /-- AT_SWAP (R223). -/
  | atSwap (m : DkIn) (op0 op1 : BitVec 64)
  /-- AT_CAS (R223). -/
  | atCas (m : DkIn) (op0 op1 : BitVec 64)
  /-- AT_MIN (R223). -/
  | atMin (m : DkIn) (op0 op1 : BitVec 64)
  /-- AT_MAX (R223). -/
  | atMax (m : DkIn) (op0 op1 : BitVec 64)
  /-- SNP_SHARE (R211). -/
  | snpShare (site : Fin 8)
  /-- SNP_DROP (R211). -/
  | snpDrop (site : Fin 8)
  /-- SNP_PEEK (R211). -/
  | snpPeek (site : Fin 8)
  /-- GONE (R212). -/
  | gone (m : DkIn)
  /-- KEPT_S (R212). -/
  | keptS (m : DkIn)
  /-- KEPT_E (R212). -/
  | keptE (m : DkIn)
  /-- GRANT_ACK (R220). -/
  | grantAck (m : DkIn)
  /-- DONE (R212). -/
  | rspDone (site : Fin 8)
  /-- PULL (R214). -/
  | pull (site : Fin 8)
  /-- PULL_DONE (R214). -/
  | pullDone (site : Fin 8)
  /-- AT_DONE (R212). -/
  | atDone (site : Fin 8)
  /-- RD_DATA (R213). -/
  | rdData (site : Fin 8)
  /-- WR_DATA (R213). -/
  | wrData (m : DkIn) (mask : BitVec 128) (data : BitVec 1024)
  /-- SNP_DATA (R213). -/
  | snpData (m : DkIn) (data : BitVec 1024)
  /-- CREDIT_RETURN (R208). -/
  | creditReturn (site : Fin 8) (toSite : Bool) (word : BitVec 32)
  /-- CREDIT_INIT (R225). -/
  | creditInit (m : DkIn) (toSite : Bool)
  /-- LIMIT_ON (R225). -/
  | limitOn (site : Fin 8)
  /-- LIMIT_OFF (R225). -/
  | limitOff (site : Fin 8)
  /-- UNIT_RESET (R225). -/
  | unitReset (site : Fin 8)
  /-- UNIT_START (R225). -/
  | unitStart (site : Fin 8)
  /-- UNIT_HALT_REQ (R225). -/
  | unitHaltReq (site : Fin 8)
  /-- UNIT_STATE (R225). -/
  | unitState (m : DkIn) (slot : BitVec 128)
  /-- IMAGE (R225). -/
  | image (site : Fin 8)
  /-- TIME_SYNC (R226). -/
  | timeSync (site : Fin 8)
  /-- TIME_ECHO_REQ (R226). -/
  | timeEchoReq (site : Fin 8) (tag : BitVec 64)
  /-- TIME_ECHO (R226). -/
  | timeEcho (m : DkIn)
  /-- SNOOP_TIMEOUT (R228). -/
  | snoopTimeout (site : Fin 8) (txn : Nat)
  /-- FABRIC_RELEASE_DONE (R238). -/
  | fabricReleaseDone (id : Nat)
  /-- FABRIC_ACQUIRE_DONE (R239). -/
  | fabricAcquireDone (id : Nat)
  /-- REGULATOR_PERIOD (R267). -/
  | regulatorPeriod
  /-- DEADLINE_LATE (R269). -/
  | deadlineLate (ch : Fin 256)
  /-- URGENT_PROMOTION (R270). -/
  | urgentPromotion (reg : Fin 70) (ch : Option (Fin 256))
  /-- FLOOR_SERVICE (R271). -/
  | floorService (mc : Fin 128)
  /-- STRICT_PAD_RELEASE (R273). -/
  | strictPadRelease (slice : Fin 64) (late : Bool)
  /-- NOC_REG_RATE_WRITE (R276). -/
  | nocRegRateWrite (reg : Fin 70) (v : BitVec 64)
  /-- NOC_CNT_CLEAR (R275). -/
  | nocCntClear
  /-- TENANT_VIEW_REFRESH (R278). -/
  | tenantViewRefresh
  /-- DOORBELL (R287). -/
  | doorbell (q : Fin 4096) (off : BitVec 12) (wide : Bool) (v : BitVec 64)
  /-- SLOT_REFETCH (R288). -/
  | slotRefetch (q : Fin 4096)
  /-- CEQ_RING_WRITE (R284). -/
  | ceqRingWrite (q : Fin 4096) (v : BitVec 64)
  /-- QUEUE_START (R283). -/
  | queueStart (q : Fin 4096)
  /-- QUEUE_STOP (R308). -/
  | queueStop (q : Fin 4096)
  /-- QUEUE_ABORT (R305). -/
  | queueAbort (q : Fin 4096)
  /-- DROP_RESUME (R303). -/
  | dropResume (q : Fin 4096)
  /-- COPY (R292). -/
  | copy (q : Fin 4096) (upto : Nat)
  /-- FILL (R292). -/
  | fill (q : Fin 4096) (upto : Nat)
  /-- INLINE_WRITE (R293). -/
  | inlineWrite (q : Fin 4096) (upto : Nat)
  /-- GATHER (R294). -/
  | gather (q : Fin 4096) (upto : Nat)
  /-- SCATTER (R294). -/
  | scatter (q : Fin 4096) (upto : Nat)
  /-- STASH (R295). -/
  | stash (q : Fin 4096) (upto : Nat)
  /-- UNSTASH (R295). -/
  | unstash (q : Fin 4096) (upto : Nat)
  /-- MIGRATE (R199). -/
  | migrate (q : Fin 4096)
  /-- MIGRATE_COPY (R199). -/
  | migrateCopy (q : Fin 4096)
  /-- MIGRATE_SWAP (R200). -/
  | migrateSwap (q : Fin 4096)
  /-- ADVISE_TRANSLATE (R202). -/
  | adviseTranslate (q : Fin 4096)
  /-- ADVISE_PIN (R202). -/
  | advisePin (q : Fin 4096)
  /-- ADVISE_UNPIN (R202). -/
  | adviseUnpin (q : Fin 4096)
  /-- SIGNAL_ADD (R296). -/
  | signalAdd (q : Fin 4096)
  /-- SIGNAL_SET (R296). -/
  | signalSet (q : Fin 4096)
  /-- SIGNAL_MAX (R296). -/
  | signalMax (q : Fin 4096)
  /-- WAIT (R296). -/
  | wait (q : Fin 4096)
  /-- WAIT_POLL (R296). -/
  | waitPoll (q : Fin 4096)
  /-- WAIT_TIMEOUT (R296). -/
  | waitTimeout (q : Fin 4096)
  /-- FENCE_RELEASE (R237). -/
  | fenceRelease (q : Fin 4096)
  /-- FENCE_ACQUIRE (R237). -/
  | fenceAcquire (q : Fin 4096)
  /-- FENCE_RELEASE_ACQUIRE (R237). -/
  | fenceReleaseAcquire (q : Fin 4096)
  /-- RESUME (R304). -/
  | resume (q : Fin 4096)
  /-- COMMAND_COMPLETE (R301). -/
  | commandComplete (q : Fin 4096)
  /-- IRQ_TIMER (R307). -/
  | irqTimer (q : Fin 4096)
  /-- ENGINE_RETIRE (R282). -/
  | engineRetire (u : EngineUnit)
  /-- CAL_RUN (R314). -/
  | calRun (q : Fin 4096)
  /-- CAL_RUN_START (R313). -/
  | calRunStart (q : Fin 4096)
  /-- CHUNK_START (R317). -/
  | chunkStart (eng : Fin 8)
  /-- CHUNK_EXECUTE (R317). -/
  | chunkExecute (eng : Fin 8)
  /-- CAL_RUN_DONE (R323). -/
  | calRunDone (q : Fin 4096)
  /-- CAL_LD (R320). -/
  | calLd (eng : Fin 8)
  /-- CAL_ST (R322). -/
  | calSt (eng : Fin 8)
  /-- CAL_RND (R320). -/
  | calRnd (eng : Fin 8)
  /-- CAL_ADD (R320). -/
  | calAdd (eng : Fin 8)
  /-- CAL_SUB (R320). -/
  | calSub (eng : Fin 8)
  /-- CAL_MUL (R320). -/
  | calMul (eng : Fin 8)
  /-- CAL_FMA (R320). -/
  | calFma (eng : Fin 8)
  /-- CAL_FNMA (R320). -/
  | calFnma (eng : Fin 8)
  /-- CAL_MIN (R320). -/
  | calMin (eng : Fin 8)
  /-- CAL_MAX (R320). -/
  | calMax (eng : Fin 8)
  /-- CAL_ABS (R320). -/
  | calAbs (eng : Fin 8)
  /-- CAL_NEG (R320). -/
  | calNeg (eng : Fin 8)
  /-- CAL_SIGN (R320). -/
  | calSign (eng : Fin 8)
  /-- CAL_SQRT (R320). -/
  | calSqrt (eng : Fin 8)
  /-- CAL_DIV (R320). -/
  | calDiv (eng : Fin 8)
  /-- CAL_RCP (R320). -/
  | calRcp (eng : Fin 8)
  /-- CAL_RSQRT (R320). -/
  | calRsqrt (eng : Fin 8)
  /-- ACCSQ (R323). -/
  | accsq (eng : Fin 8)
  /-- ALL_REDUCE (R355). -/
  | allReduce (q : Fin 4096)
  /-- REDUCE_SCATTER (R355). -/
  | reduceScatter (q : Fin 4096)
  /-- ALL_GATHER (R353). -/
  | allGather (q : Fin 4096)
  /-- BROADCAST (R353). -/
  | broadcast (q : Fin 4096)
  /-- ALL_TO_ALL (R358). -/
  | allToAll (q : Fin 4096)
  /-- COLL_REDUCE (R356). -/
  | collReduce (col : Fin 2) (element : Nat)
  /-- PORT_UP (R332). -/
  | portUp (port : Fin 128)
  /-- PORT_DOWN (R332). -/
  | portDown (port : Fin 128)
  /-- PORT_TRAIN_TIMEOUT (R332). -/
  | portTrainTimeout (port : Fin 128)
  /-- WRITE (R342). -/
  | nxWrite (p : NxPkt)
  /-- READ_REQ (R342). -/
  | readReq (p : NxPkt)
  /-- READ_RESP (R338). -/
  | readResp (p : NxPkt)
  /-- NX_ATOMIC_ADD (R342). -/
  | nxAtomicAdd (p : NxPkt)
  /-- NX_ATOMIC_SWAP (R342). -/
  | nxAtomicSwap (p : NxPkt)
  /-- NX_ATOMIC_CAS (R342). -/
  | nxAtomicCas (p : NxPkt)
  /-- NX_ATOMIC_MIN (R342). -/
  | nxAtomicMin (p : NxPkt)
  /-- NX_ATOMIC_MAX (R342). -/
  | nxAtomicMax (p : NxPkt)
  /-- ATOMIC_RESP (R338). -/
  | atomicResp (p : NxPkt)
  /-- COMP (R342). -/
  | comp (p : NxPkt)
  /-- COLL_DATA (R354). -/
  | collData (p : NxPkt)
  /-- COLL_HEADER (R354). -/
  | collHeader (p : NxPkt)
  /-- COLL_ABANDON (R359). -/
  | collAbandon (p : NxPkt)
  /-- TACK (R340). -/
  | tack (p : NxPkt)
  /-- TACK_TIMEOUT (R340). -/
  | tackTimeout (job : Fin 64) (peer : BitVec 14)
  /-- RETRANSMIT_TIMEOUT (R341). -/
  | retransmitTimeout (job : Fin 64) (peer : BitVec 14) (psn : BitVec 32)
  /-- KEEPALIVE (R344). -/
  | keepalive (p : NxPkt)
  /-- KEEPALIVE_TIMER (R344). -/
  | keepaliveTimer (job : Fin 64) (peer : BitVec 14)
  /-- KEEPALIVE_EXPIRY (R344). -/
  | keepaliveExpiry (job : Fin 64) (peer : BitVec 14)
  /-- NX_OPEN (R346). -/
  | nxOpen (p : NxPkt)
  /-- UNFENCE (R346). -/
  | unfence
  /-- KEY_EXCH (R347). -/
  | keyExch (p : NxPkt) (kind : KeyMsg) (signer : BitVec 384) (sigOk : Bool)
  /-- JOIN (R347). -/
  | join (slice : Fin 64)
  /-- HELLO_TIMER (R347). -/
  | helloTimer (slice : Fin 64)
  /-- JOIN_TIMEOUT (R347). -/
  | joinTimeout (slice : Fin 64)
  /-- LEAVE (R362). -/
  | leave (slice : Fin 64)
  /-- REKEY (R349). -/
  | rekey (slice : Fin 64)
  /-- OLD_KEY_ERASE (R349). -/
  | oldKeyErase (slice : Fin 64)
  /-- TIME_REQ (R350). -/
  | timeReq (slice : Fin 64) (p : Option NxPkt)
  /-- TIME_RESP (R350). -/
  | timeResp (p : NxPkt)
  /-- ROCE_SEND (R351). -/
  | roceSend (r : RocePkt)
  /-- ROCE_SEND_IMM (R352). -/
  | roceSendImm (r : RocePkt)
  /-- ROCE_RDMA_WRITE (R352). -/
  | roceRdmaWrite (r : RocePkt)
  /-- ROCE_RDMA_WRITE_IMM (R352). -/
  | roceRdmaWriteImm (r : RocePkt)
  /-- ROCE_RDMA_READ (R352). -/
  | roceRdmaRead (r : RocePkt)
  /-- ROCE_UNSUPPORTED (R351). -/
  | roceUnsupported (r : RocePkt)
  /-- QP_STATE_WRITE (R352). -/
  | qpStateWrite (qpn : BitVec 12) (state : BitVec 2)
  /-- BAR4_READ (R370). -/
  | bar4Read (off : BitVec 41) (len : BitVec 13)
  /-- BAR4_WRITE (R370). -/
  | bar4Write (off : BitVec 41) (data : List (BitVec 8)) (relaxed : Bool)
  /-- BAR4_WIN_WRITE (R369). -/
  | bar4WinWrite (path : Path) (v : BitVec 64)
  /-- HOST_COMPLETION (R372). -/
  | hostCompletion (id : Nat) (ans : HostAns) (data : BitVec 1024)
  /-- COMPLETION_TIMEOUT (R372). -/
  | completionTimeout (id : Nat)
  /-- ATS_INVALIDATE (R371). -/
  | atsInvalidate (window : Fin 16) (page : BitVec 52)
  /-- PERST_N (R373). -/
  | perstN
  /-- HOT_RESET (R373). -/
  | hotReset
  /-- FLR (R373). -/
  | flr
  /-- HOST_LOSS (R375). -/
  | hostLoss
  /-- LINK_UP (R376). -/
  | linkUp (speed : Fin 7) (width : Fin 17)
  /-- RETRAIN (R376). -/
  | retrain
  /-- RETRAIN_LONG (R376). -/
  | retrainLong
  /-- L1_ENTRY (R377). -/
  | l1Entry
  /-- L1_2_ENTRY (R377). -/
  | l12Entry
  /-- L0P_ENTRY (R377). -/
  | l0pEntry
  /-- KEY_PROG (R417). -/
  | keyProg (stream : Fin 5)
  /-- BIND (R384). -/
  | bind (slice : Fin 64) (pasid : BitVec 20)
  /-- BIND_DONE (R384). -/
  | bindDone (slice : Fin 64)
  /-- SLICE_RESET (R387). -/
  | sliceReset (slice : Fin 64) (mode : BitVec 2)
  /-- UNBIND (R387). -/
  | unbind (slice : Fin 64) (mode : BitVec 2)
  /-- SLICE_INFLIGHT_ZERO (R387). -/
  | sliceInflightZero (slice : Fin 64)
  /-- SLICE_RESET_DONE (R387). -/
  | sliceResetDone (slice : Fin 64)
  /-- SCRUB_DONE (R389). -/
  | scrubDone (slice : Fin 64)
  /-- MIRROR_WRITE (R393). -/
  | mirrorWrite (slice : Fin 64)
  /-- CONTROL_WORD (R394). -/
  | controlWord (slice : Fin 64) (w : BitVec 64)
  /-- LC_TRANSITION (R406). -/
  | lcTransition (path : Path) (unit : BitVec 8) (target : BitVec 3)
  /-- LC_PROGRAM_DONE (R406). -/
  | lcProgramDone (failAt : Option (Fin 64))
  /-- PROVISION_OWNER (R410). -/
  | provisionOwner (path : Path)
  /-- PROVISION_BOOT_CA (R410). -/
  | provisionBootCa (path : Path)
  /-- MEAS_EXTEND (R414). -/
  | measExtend (path : Path) (len : BitVec 32) (slot : BitVec 3)
  /-- MEAS_EXTEND_DONE (R414). -/
  | measExtendDone
  /-- GEN_NONCE (R419). -/
  | genNonce (path : Path)
  /-- NONCE_EXPIRY (R419). -/
  | nonceExpiry
  /-- TOKEN_PRESENT (R419). -/
  | tokenPresent (path : Path)
  /-- DEBUG_LOCK (R422). -/
  | debugLock (path : Path)
  /-- DEBUG_SESSION_EXPIRY (R422). -/
  | debugSessionExpiry
  /-- DEBUG_ACCESS (R421). -/
  | debugAccess (a : DebugAcc)
  /-- MGMT_SESSION_OPEN (R411). -/
  | mgmtSessionOpen (anchor : BitVec 384)
  /-- MGMT_SESSION_CLOSE (R411). -/
  | mgmtSessionClose (session : Nat)
  /-- MGMT_AUTONEG (R411). -/
  | mgmtAutoneg (link : Bool)
  /-- REG_READ (R412). -/
  | regRead (session : Nat) (tag : BitVec 16) (len : BitVec 32) (addr : BitVec 64)
  /-- REG_WRITE (R412). -/
  | regWrite (session : Nat) (tag : BitVec 16) (addr : BitVec 64) (vals : List (BitVec 64))
  /-- MEM_READ (R412). -/
  | memRead (session : Nat) (tag : BitVec 16) (len : BitVec 32) (addr : BitVec 64)
  /-- MEM_WRITE (R412). -/
  | memWrite (session : Nat) (tag : BitVec 16) (addr : BitVec 64) (data : List (BitVec 8))
  /-- SPDM (R413). -/
  | spdm (binding : SpdmBind) (req : SpdmReq)
  /-- GET_MEASUREMENTS (R415). -/
  | getMeasurements (binding : SpdmBind) (index : Option (Fin 13)) (sign : Bool) (nonce : BitVec 256)
  /-- STEP_CLOCKS (R426). -/
  | stepClocks
  /-- STEP_POWER_SITES (R426). -/
  | stepPowerSites
  /-- POWER_SITES_DONE (R426). -/
  | powerSitesDone (ok : Bool)
  /-- STEP_TRAIN (R426). -/
  | stepTrain
  /-- TRAIN_DONE (R426). -/
  | trainDone
  /-- STEP_LLA_INIT (R426). -/
  | stepLlaInit
  /-- STEP_OPEN (R430). -/
  | stepOpen
  /-- FELT_GO (R435). -/
  | feltGo (h : Fin 2)
  /-- FELT_MEASURE_DONE (R435). -/
  | feltMeasureDone (h : Fin 2)
  /-- FELT_DELIVER_DONE (R435). -/
  | feltDeliverDone (h : Fin 2)
  /-- FELT_NO_ACK (R435). -/
  | feltNoAck (h : Fin 2)
  /-- FCU_SELF_CHECK (R448). -/
  | fcuSelfCheck
  /-- SAFE_SQUELCH (R449). -/
  | safeSquelch
  /-- FCU_Q_BASE_WRITE (R445). -/
  | fcuQBaseWrite (v : BitVec 64)
  /-- BASE_SENSOR_READ (R463). -/
  | baseSensorRead (sensor : Fin 96) (temp : BitVec 8)
  /-- POWER_GATE (R461). -/
  | powerGate (u : GateUnit)
  /-- AGEING_MEASUREMENT (R466). -/
  | ageingMeasurement (slacks : List (Fin 48 × BitVec 8))
  /-- SURVEY_TEST_START (R468). -/
  | surveyTestStart (u : SurveyKind)
  /-- SURVEY_SEGMENT_DONE (R470). -/
  | surveySegmentDone (u : SurveyKind) (pass : Bool)
  /-- SURVEY_DEADLINE (R469). -/
  | surveyDeadline (u : SurveyKind)
  /-- SET_OFFSET (R485). -/
  | setOffset (off : BitVec 32)
  /-- READ64 (R485). -/
  | read64
  /-- WRITE64 (R485). -/
  | write64 (off : BitVec 32) (v : BitVec 64)
  /-- REGISTER_WRITE (R11). -/
  | registerWrite (path : Path) (addr : BitVec 26) (half : RegHalf) (v : BitVec 64)
  /-- HEARTBEAT_EDGE (R451). -/
  | heartbeatEdge
  /-- PLL_LOCK_LOST (R440). -/
  | pllLockLost (pll : Fin 9)
  /-- ENTROPY_HEALTH_FAIL (R440). -/
  | entropyHealthFail
  /-- L0_RETURN (R376). -/
  | l0Return
  /-- L1_EXIT (R377). -/
  | l1Exit
  /-- L0P_EXIT (R377). -/
  | l0pExit
  /-- FLR_COMPLETE (R373). -/
  | flrComplete
  /-- D3HOT_ENTRY (R378). -/
  | d3hotEntry (d3 : Bool)
  /-- PFC_FRAME (R351). -/
  | pfcFrame (port : Fin 128) (prio : Fin 8) (pause : Bool)
  deriving DecidableEq, Repr

end Sys2Proof
end

