-- ==== Sys2Proof/Decode.lean ====
section
/-!
DEFINITION. The command a table word spells. No row of the table of operations and events gives bits: the commands of this
block are no words, so no word spells one.
-/
namespace Sys2Proof

/-- No row of the table gives bits, so every word spells nothing (DESIGN CHOICE, log 13). -/
def decodeTableWord (_nbits _w : Nat) : Option Instr := none

end Sys2Proof
end

