-- ==== Sys2Proof/Config.lean ====
section
/-!
DEFINITION. What an implementation fixes and the values the spec leaves open: constants without a body, so that no proof can
rest on one. Each is named in the assumption log.
-/
namespace Sys2Proof.Config

/-- A byte of HBM whose contents the spec calls undefined (R59, R200, R373), by the event that left it so and its address. -/
opaque freeByte : Nat → Nat → BitVec 8

/-- Contents of a register that a test or power gating has left undefined (R62, R461, R468), by its width, the event and the register. -/
opaque freeBits (w gen i : Nat) : BitVec w

/-- Where a block of the base lies among the routers of its field (R14, R254), by block and coordinate: the spec gives the field alone (log 143). -/
opaque meshPlace : Nat → Nat

/-- Bank and row of an HBM channel address (R269): the spec gives no geometry of a channel (log 144). -/
opaque dramBank : Nat → Nat
opaque dramRow : Nat → Nat

/-- TLB slice of a slice number and a DVA's 1 GiB index, set of an entry of a TLB slice, and the entry that makes room where a structure that holds
translations is full (R188): the spec names a hash and gives no index and no replacement (log 88). -/
opaque tlbHash : Nat → Nat → Fin 16
opaque tlbSet : Nat → Nat → Nat → Fin 512
opaque tlbVictim : Nat → Nat

/-- Flits that passed on a link since its last message was counted (R207, R229): the spec fixes neither how slots fill flits nor the flits of NULL slots
(log 152). -/
opaque flits : Nat → Nat

/-- Latency in nanoseconds of the n-th request counted (R277): the spec bounds no single request's latency. -/
opaque latency : Nat → Nat

/-- How many lines an aborted maintenance operation had processed (R162, R164). -/
opaque abortLines : Nat → Nat

/-- Elements of a command done before the first of its writes that failed, where several were outstanding (R300, R301). -/
opaque doneElems : Nat → Nat

/-- Distance, in units in the last place, of an approximate function from the exact result (R116, R320), by function (0 RCP,
1 RSQRT, 2 EXP2, 3 LOG2) and input bits; the users bound it. -/
opaque approx : Nat → BitVec 32 → Nat

/-- Byte `i` of the encrypted payload and its tag under AES-256-GCM (R348), by the key (job and KEY_ID, and which key it is), nonce, associated data
and payload: the job key is random. -/
opaque sealByte (key gen nonce : Nat) (header payload : List (BitVec 8)) (i : Nat) : BitVec 8

/-- Output of the Watermark DRBG (R400), by request. -/
opaque drbg : Nat → BitVec 256

/-- SHA-384 digests held in the Watermark ROM (R404, R411, R419): the ROM itself, the Oxeel manufacturing key, the
return-analysis key, the debug key, and the manufacturing and return-analysis management anchors. -/
opaque romDigest : BitVec 384
opaque mfgKey : BitVec 384
opaque returnKey : BitVec 384
opaque debugKey : BitVec 384
opaque mfgAnchor : BitVec 384
opaque returnAnchor : BitVec 384

/-- SHA-384 digest of the unit's link identity public key (R401, R423). -/
opaque likDigest : BitVec 384

/-- Signature of a MEASUREMENTS answer (R413), R then S: by the attestation key of a module and vault state, over the verifier's nonce and
the blocks. -/
opaque akSign : Nat → Nat → BitVec 256 → List (BitVec 8) → BitVec 768

/-- Digest of the fuse summary (R414), of its site codes, bad cores and repairs: the spec gives no layout. -/
opaque fuseDigest : List Nat → BitVec 384

/-- Fuse bits already programmed when power is lost during a transition (R406, R424), by draw. -/
opaque programmed : Nat → Nat

/-- LTSSM codes of PCIE_STATUS (R380) but Detect, which is its reset value 0: L0, L0p, L1, L1.2 and Recovery. -/
opaque ltssm : Nat → BitVec 8

/-- What a Felt or customer die reads, by draw, where the module only passes a debug access on (R420). -/
opaque foreign : Nat → BitVec 64

/-- Power at the board input in watts and current of a domain in units of 0.1 A (R471), by draw. -/
opaque power : Nat → BitVec 16

/-- Fields of a RoCE queue-pair context (0 SLICE, 1 PORT, 2 expected PSN, 3 receive-ring DVA, 4 depth, 5 completion-ring DVA), of a memory key
(0 SLICE, 1 rights, 2 key tag, 3 base, 4 length) and of a receive entry (0 DVA, 1 length), and a completion entry for bytes, immediate
and status: the spec names them and gives no layout (R352). -/
opaque roceQp : Nat → BitVec 512 → Nat
opaque roceKey : Nat → BitVec 256 → Nat
opaque roceRecv : Nat → BitVec 128 → Nat
opaque roceCpl : Nat → Nat → Nat → BitVec 256

/-- The remote queue pair of a pair's context, whose layout the spec does not give (R352). -/
opaque roceDest : Nat → Nat

/-- The priority on which a queue pair's answers travel (R351) (DESIGN CHOICE, log 86). -/
opaque rocePrio : Nat → BitVec 3

end Sys2Proof.Config
end

