-- ==== Sys2Proof/Machine/Tab.lean ====
section
/-!
DEFINITION. Sparse tables in one canonical form (keys strictly rising, no entry equal to the default), bit fields of
registers (R9) and little-endian byte strings (R9).
-/
namespace Sys2Proof

/-- The entry of key `k`, or the default `d`. -/
def Tab.get {α : Type} (d : α) (t : Tab α) (k : Nat) : α :=
  match t with
  | [] => d
  | (k', v) :: r => if k' = k then v else Tab.get d r k

/-- Sorted insertion of a pair whose key is in no entry. -/
def Tab.insert {α : Type} (k : Nat) (v : α) : Tab α → Tab α
  | [] => [(k, v)]
  | (k', v') :: r => if k < k' then (k, v) :: (k', v') :: r else (k', v') :: Tab.insert k v r

/-- Drops the entry of key `k`. -/
def Tab.erase {α : Type} (t : Tab α) (k : Nat) : Tab α := t.filter (fun p => p.1 ≠ k)

/-- Writes `v` at key `k`; the default is not listed. -/
def Tab.set {α : Type} [DecidableEq α] (d : α) (t : Tab α) (k : Nat) (v : α) : Tab α :=
  if v = d then Tab.erase t k else Tab.insert k v (Tab.erase t k)

/-- Changes the entry of key `k` with `f`. -/
def Tab.modify {α : Type} [DecidableEq α] (d : α) (t : Tab α) (k : Nat) (f : α → α) : Tab α :=
  Tab.set d t k (f (Tab.get d t k))

/-- The canonical form. -/
def Tab.wf {α : Type} [DecidableEq α] (d : α) : Tab α → Bool
  | [] => true
  | [(_, v)] => decide (v ≠ d)
  | (k, v) :: (k', v') :: r => decide (v ≠ d) && decide (k < k') && Tab.wf d ((k', v') :: r)

/-- Bits `hi:lo` of a register (R9). -/
def bits {n : Nat} (v : BitVec n) (hi lo : Nat) : Nat := (v.toNat >>> lo) % 2 ^ (hi + 1 - lo)

/-- Bit `i` of a register. -/
def bit {n : Nat} (v : BitVec n) (i : Nat) : Bool := v.toNat.testBit i

/-- A field value placed at bit `lo`. -/
def fld (v : Nat) (hi lo : Nat) : Nat := (v % 2 ^ (hi + 1 - lo)) <<< lo

/-- A flag placed at bit `i`. -/
def flag (b : Bool) (i : Nat) : Nat := if b then 2 ^ i else 0

/-- The bits of `v` that lie in `hi:lo`, in place, the others of `old` (a masked register write). -/
def setBits (old : Word) (hi lo : Nat) (v : Nat) : Word :=
  BitVec.ofNat 64 (old.toNat - ((bits old hi lo) <<< lo) + ((v % 2 ^ (hi + 1 - lo)) <<< lo))

/-- The union of in-place field masks `[(hi, lo)]`. -/
def fieldMask (fs : List (Nat × Nat)) : Nat :=
  fs.foldl (fun m f => m ||| ((2 ^ (f.1 + 1 - f.2) - 1) <<< f.2)) 0

/-- A register write that keeps only the listed fields of the value (reserved fields are ignored, R12). -/
def keepFields (v : Word) (fs : List (Nat × Nat)) : Word := BitVec.ofNat 64 (v.toNat &&& fieldMask fs)

/-- The first `n` bytes of a number, lowest first (R9). -/
def leBytes : Nat → Nat → List Byte
  | 0, _ => []
  | n + 1, v => BitVec.ofNat 8 v :: leBytes n (v / 256)

/-- The number a little-endian byte string spells. -/
def leNat : List Byte → Nat
  | [] => 0
  | b :: r => b.toNat + 256 * leNat r

/-- The number a big-endian byte string spells. -/
def beNat (bs : List Byte) : Nat := bs.foldl (fun a b => a * 256 + b.toNat) 0

/-- `n` bytes of a number, highest first. -/
def beBytes (n v : Nat) : List Byte := (leBytes n v).reverse

/-- Bytes `off … off + n − 1` of a byte string; bytes past its end read zero. -/
def sub (bs : List Byte) (off n : Nat) : List Byte :=
  let r := (bs.drop off).take n
  r ++ List.replicate (n - r.length) 0

/-- The little-endian number at an offset. -/
def le (bs : List Byte) (off n : Nat) : Nat := leNat (sub bs off n)

/-- Two's-complement reading of an `n`-bit number. -/
def toSigned (n v : Nat) : Int := if v % 2 ^ n < 2 ^ (n - 1) then ((v % 2 ^ n : Nat) : Int) else ((v % 2 ^ n : Nat) : Int) - (2 ^ n : Nat)

/-- A signed value wrapped to `n` bits. -/
def wrapInt (n : Nat) (v : Int) : Nat := (v % ((2 ^ n : Nat) : Int)).toNat

/-- Byte `i` of a wide value. -/
def byteAt {n : Nat} (v : BitVec n) (i : Nat) : Byte := BitVec.ofNat 8 (v.toNat >>> (8 * i))

/-- The bytes of a line, byte 0 first. -/
def lineBytes (l : Line) : List Byte := leBytes 128 l.toNat

/-- A line from its bytes. -/
def lineOf (bs : List Byte) : Line := BitVec.ofNat 1024 (leNat (bs.take 128))

/-- The bytes of `new` where `mask` has a one, those of `old` elsewhere (masked line writes, R206). -/
def mergeBytes : List Bool → List Byte → List Byte → List Byte
  | m :: ms, n :: ns, o :: os => (if m then n else o) :: mergeBytes ms ns os
  | _, _, os => os

/-- Bytes `off …` of a string replaced by `new`. -/
def splice (old : List Byte) (off : Nat) (new : List Byte) : List Byte :=
  old.take off ++ new ++ old.drop (off + new.length)

/-- Saturating addition at `max`. -/
def satAdd (max a b : Nat) : Nat := if a + b > max then max else a + b

/-- The list without its element of index `i`. -/
def dropIdx {α : Type} (l : List α) (i : Nat) : List α := l.take i ++ l.drop (i + 1)

/-- Integer k-th root of `n`, by Newton's steps from `x` above it. -/
def rootFrom (k : Nat) : Nat → Nat → Nat → Nat
  | 0, _, x => x
  | fuel + 1, n, x => let y := ((k - 1) * x + n / x ^ (k - 1)) / k; if y ≥ x then x else rootFrom k fuel n y

end Sys2Proof
end

