-- ==== Sys2Proof/Machine/Units.lean ====
section
/-!
DEFINITION. The state of the hub's units, one structure per unit, every field at its reset value (a field with no value
of the spec has the value INVENTORY.md and the log name). Tables are sparse: an unlisted key holds the default.
-/
namespace Sys2Proof.Machine

/-! ## Pins, fuses, clocks (01, 17, 20) -/

/-- Pin levels, sampled straps and the AON latches (R480–R485, R451, R464). -/
structure Pins where
  porN : Bool := false
  perstN : Bool := true
  bootSel : BitVec 2 := 0
  perstScope : Bool := false
  strapBoot : BitVec 2 := 0
  strapScope : Bool := false
  vinMain : Bool := true
  refclk : Bool := true
  heartbeat : Bool := false
  hbRunning : Bool := false
  thermTrip : Bool := false
  sbOffset : BitVec 32 := 0
  selfRefresh : BitVec 8 := 0xFF
  deriving DecidableEq, Repr

/-- Root PLL (R23, R24), the remainder of the CLK_CORE division (R20), and the PLLs of SerDes groups 0–7 and of the PCIe endpoint, 8, that have lost
lock (R21). -/
structure Clk where
  rootEn : Bool := false
  rootLock : Bool := false
  lockLost : Bool := false
  coreRem : Nat := 0
  pllLost : BitVec 9 := 0
  deriving DecidableEq, Repr

/-! ## Chart (02) -/

/-- A SITES record (R40). -/
structure SiteRec where
  enable : Nat
  expect : Nat
  degradedOk : Nat
  deriving DecidableEq, Repr

/-- A REGIONS record (R41); `granule` in bytes. -/
structure Region where
  num : Nat
  interleave : Nat
  target : Nat
  granule : Nat
  hash : Bool
  cache : Bool
  remoteCacheable : Bool
  scrub : Bool
  sharedRo : Bool
  stash : Bool
  base : Nat
  size : Nat
  readMask : BitVec 64
  writeMask : BitVec 64
  owner : Nat
  hostAccess : Nat
  deriving DecidableEq, Repr

/-- One home slice of the LLA plan (R42): way modes 0 CACHE, 1 LOCKED, 2 SCRATCH, and owners. -/
structure LlaPlan where
  modes : BitVec 32 := 0
  owners : BitVec 128 := BitVec.allOnes 128
  deriving DecidableEq, Repr

/-- A SLOT_TABLES record (R43). -/
structure Flow where
  flow : Nat
  net : Nat
  slice : Nat
  srcCol : Nat
  srcRow : Nat
  dstCol : Nat
  dstRow : Nat
  slots : BitVec 128
  deriving DecidableEq, Repr

/-- A REGULATORS record (R44). -/
structure RegRec where
  reg : Nat
  weight : Nat
  weightMax : Nat
  guar : Nat
  guarMax : Nat
  deriving DecidableEq, Repr

/-- A SLICES record (R46). -/
structure SliceRec where
  slice : Nat
  squash : Bool
  share : Nat
  qFirst : Nat
  qCount : Nat
  regionMask : BitVec 16
  cores : BitVec 144
  deriving DecidableEq, Repr

/-- A PORTS record (R47). -/
structure PortRec where
  port : Nat
  width : Nat
  axis : Nat
  traffic : Nat
  medium : Nat
  deriving DecidableEq, Repr

/-- The SECURITY body (R50); digests as 48-byte numbers, byte 0 highest. -/
structure Security where
  mgmtEnable : Nat := 0
  mgmtAddr : Nat := 0
  mgmtPrefix : Nat := 0
  debugPolicy : Nat := 0
  mgmtIpv4 : Nat := 0
  mgmtGw : Nat := 0
  mgmtCa : BitVec 384 := 0
  debugSigner : BitVec 384 := 0
  deriving DecidableEq, Repr

/-- A whole Chart, sections parsed, with the defaults of R39 for what is absent. -/
structure Chart where
  version : BitVec 64 := 0
  hash : BitVec 384 := 0
  sites : List SiteRec := []
  regions : List Region := []
  lla : Tab LlaPlan := []
  flows : List Flow := []
  throttleLevel : Nat := 5
  slackNs : Nat := 2000
  ageLimitNs : Nat := 20000
  regs : List RegRec := []
  strict : Bool := false
  slices : List SliceRec := []
  ethertype : Nat := 0x88B5
  moduleId : Nat := 0
  keepaliveMs : Nat := 10
  ports : List PortRec := []
  ivr : List Nat := []
  react : List Nat := []
  sec : Security := {}
  deriving DecidableEq, Repr

/-- Which path opened a Chart session (R51, R52). -/
inductive ChartPath where
  | host
  | mgmt (session : Nat)
  deriving DecidableEq, Repr

/-- The CHART block (R51–R61). STATE: 0 IDLE, 1 STAGING, 2 VERIFYING, 3 VERIFIED, 4 APPLYING, 5 APPLIED, 6 REJECTED. `session` is the path of the open
session; `lastPath` is the SESSION bit; `ended` marks a session that ended while VERIFYING or APPLYING (R52). `rwl` holds software's writes of RWL
fields made while APPLYING (R54), by register address; `prior` the Chart of the last epoch once the sequencer has written the new one, until APPLIED;
`sweeping` that a reload has queued its operations on the array (R59). -/
structure ChartBlk where
  state : Nat := 0
  session : Option ChartPath := none
  lastPath : Nat := 0
  ended : Bool := false
  error : Nat := 0
  errSection : Nat := 0xFF
  errOffset : Nat := 0
  cmdDiscarded : Bool := false
  winDiscarded : Bool := false
  epoch : Nat := 0
  page : Nat := 0
  buf : Tab (BitVec 8) := []
  lastActivity : Nat := 0
  verified : Option Chart := none
  applied : Option Chart := none
  reload : Bool := false
  rwl : Tab (BitVec 64) := []
  prior : Option Chart := none
  sweeping : Bool := false
  deriving DecidableEq, Repr

/-! ## Deckle ports and sites (01, 08) -/

/-- A Deckle message as the header of R209 gives it, with the data, mask or operands its class carries. -/
structure DkMsg where
  cls : Nat
  opc : Nat
  txn : Nat := 0
  home : Nat := 0
  unit : Nat := 0
  grant : Nat := 0
  attr : Nat := 0
  status : Nat := 0
  addr : Nat := 0
  line : BitVec 1024 := 0
  mask : BitVec 128 := 0
  extra : List Nat := []
  deriving DecidableEq, Repr

/-- Counts of one credit or message class set. -/
structure Credits where
  req : Nat := 0
  snp : Nat := 0
  rsp : Nat := 0
  dat : Nat := 0
  mgt : Nat := 0
  time : Nat := 0
  deriving DecidableEq, Repr

/-- A Deckle port (R206–R230). `hub` are the credits the hub holds, `site` those the site holds, `granted` what the site's
CREDIT_INIT granted, `owed` the credits the hub must return. `outbox` holds the messages decided by the hub and not yet
sent, oldest first. `open` are the TXN values of the site's outstanding requests, with their lines. -/
structure Dk where
  siteInit : Bool := false
  hubInit : Bool := false
  hub : Credits := { mgt := 8 }
  site : Credits := { mgt := 8 }
  granted : Credits := {}
  owed : Credits := {}
  units : Nat := 0
  caching : Bool := false
  snoopTimeout : Nat := 50
  err : BitVec 64 := 0
  errCount : Nat := 0
  txFlits : Nat := 0
  rxFlits : Nat := 0
  outstanding : List (Nat × Nat) := []
  outbox : List DkMsg := []
  echoTag : Option (Nat × Nat) := none
  delay : Nat := 0
  limitOn : Bool := false
  deriving DecidableEq, Repr

/-- A site (R28–R31). STATE as R29's table. `stopAt` is the state at which a site whose traffic is being resolved stops. -/
structure Site where
  state : Nat := 0
  pwrReq : Bool := false
  clkFwd : Bool := false
  rstRel : Bool := false
  train : Bool := false
  unitsUp : Nat := 0
  lanesRepaired : Nat := 0
  linkErr : Bool := false
  stopAt : Option Nat := none
  dk : Dk := {}
  deriving DecidableEq, Repr

/-! ## Home slices, LLA, directory, controllers (06, 08) -/

/-- One LLA way of one set (R156, R170). For a SCRATCH way only `poison` and `data` are used. -/
structure LlaLine where
  valid : Bool := false
  tag : Nat := 0
  dirty : Bool := false
  poison : Bool := false
  data : BitVec 1024 := 0
  deriving DecidableEq, Repr

/-- Maintenance operation of R162. -/
structure MaintOp where
  op : Nat
  base : Nat
  size : Nat
  ways : Nat
  reg : Nat
  deriving DecidableEq, Repr

/-- An operation of a system context (R161): who asked for it. -/
inductive SysFor where
  | wayScrub (slice : Nat)
  | regionScrub (slice region : Nat)
  | release (job : Nat)
  | acquire (job : Nat)
  | reload
  deriving DecidableEq, Repr

/-- How far the operation of a maintenance context has come (R161, R164): `cur` is the first place of its walk not reached yet, `bad` that it met a
channel out of service, `recalled` that it has called for the agents' copies, `walked` that it has walked its slice. -/
structure MaintPos where
  cur : Nat := 0
  bad : Bool := false
  recalled : Bool := false
  walked : Bool := false
  deriving DecidableEq, Repr

/-- One home slice (R158, R161, R163). `ce` counts corrected errors of its array (R169). MAINT STATE: 0 IDLE, 1 RUNNING, 2 DONE, 3 FAILED. The system
context queues at most eight operations in `sys`; `sysMore` are those that wait for a place. -/
structure HomeSlice where
  lfsr : BitVec 16 := 0
  dirLfsr : BitVec 16 := 0
  hits : Nat := 0
  misses : Nat := 0
  writebacks : Nat := 0
  ce : Nat := 0
  mBase : Nat := 0
  mSize : Nat := 0
  mWays : Nat := 0
  mReg : Nat := 0
  running : Option MaintOp := none
  lines : Nat := 0
  notPlaced : Nat := 0
  mError : Nat := 0
  mState : Nat := 0
  pos : MaintPos := {}
  sys : List (MaintOp × SysFor) := []
  sysMore : List (MaintOp × SysFor) := []
  sysPos : MaintPos := {}
  waysOut : BitVec 16 := 0
  deriving DecidableEq, Repr

/-- A directory entry (R218). -/
inductive DirState where
  | none
  | shared (presence : BitVec 8)
  | exclusive (owner : Fin 8)
  deriving DecidableEq, Repr

/-- A directory way: the line number (address / 128) and its state. -/
structure DirEntry where
  line : Nat := 0
  st : DirState := .none
  deriving DecidableEq, Repr

/-- The last-level array and the directory. LLA STATE: 0 DISABLED, 1 ENABLED, 2 DISABLING, 3 INITIALISING (R163).
`lines` is keyed `(slice × 16384 + set) × 16 + way`, `dir` `(slice × 4096 + set) × 16 + way`. `owed` are the lines of REMOTE regions that
an engine, by its tag, wrote into the array and that must reach their owner before its work is complete (R234), `owedFail` the statuses of such lines
that could not reach it, by tag. -/
structure Lla where
  enable : Bool := false
  initDone : Bool := false
  state : Nat := 0
  lines : Tab LlaLine := []
  slices : Tab HomeSlice := []
  dir : Tab DirEntry := []
  owed : List (Nat × Nat) := []
  owedFail : List (Nat × Nat) := []
  deriving DecidableEq, Repr

/-- Whose request a transaction at a home is: a Deckle agent's, an engine's by its tag, the hub's own posted write, a directory
recall for a waiting transaction, a BAR4 read or write of the host, or a packet of a peer module in a job. -/
inductive Src where
  | agent (site : Nat) (txn : Nat)
  | engine (tag : Nat)
  | posted (why : Nat)
  | recall (waiter : Nat)
  | host
  | fabric (job peer opid psn : Nat)
  deriving DecidableEq, Repr

/-- Stage of a transaction at its home (R214, R220): queued, waiting for snoop answers, for write data, for GRANT_ACK, for
a remote target, or answered with its completion waiting at an engine. -/
inductive TxStage where
  | queued
  | snooping
  | needData
  | needAck
  | remote
  | ready
  deriving DecidableEq, Repr

/-- A transaction at a home. `opc` is the Deckle REQ opcode (R210) and `addr` the physical address, or the DVA while `untranslated`. `slice` is the
slice whose masks apply and whose job carries a remote access, if any; `hsite` an H-site's index. `reg` and `ini` are the regulator charged (127 none)
and the counter set; `arrived` that it has reached its meter, at `arrival`, `slot` that a slotted flow carries it, `svc` and `deadline` how it left
the meter (R255). `squashed` that a slice reset discards it at its meter (R279). `wait` are the sites whose snoop answer is awaited since `snoopAt`,
`snp` the dirty line an agent returned, `pull` that the write takes the PULL form, `haveData` that its data arrived, `rop` the operation that left the
module, `status` and `data` the answer of a `ready` one; `poison` that a write brings a poisoned line (R170), `relaxed` that a host write has Relaxed
Ordering (R248). -/
structure Txn where
  id : Nat
  src : Src
  opc : Nat
  addr : Nat
  slice : Option Nat := none
  hsite : Option Nat := none
  reg : Nat := 127
  ini : Nat := 999
  noalloc : Bool := false
  attr : Nat := 0
  op0 : Nat := 0
  op1 : Nat := 0
  mask : BitVec 128 := 0
  data : BitVec 1024 := 0
  stage : TxStage := .queued
  charged : Bool := false
  arrived : Bool := false
  arrival : Nat := 0
  slot : Bool := false
  svc : Nat := 0
  deadline : Nat := 0
  squashed : Bool := false
  untranslated : Bool := false
  unit : Nat := 0
  snooped : Bool := false
  pull : Bool := false
  haveData : Bool := false
  wait : List Nat := []
  snoopAt : Nat := 0
  snp : Option (BitVec 1024) := none
  rop : Option Nat := none
  status : Nat := 0
  poison : Bool := false
  relaxed : Bool := false
  deriving DecidableEq, Repr

/-- The line a transaction is at. -/
def Txn.line (t : Txn) : Nat := t.addr / 128

/-- One memory controller (R173). Channel state: 0 OFF, 1 UP, 2 RECAL, 3 RETIRED. -/
structure Mc where
  ch0 : Nat := 0
  ch1 : Nat := 0
  recals : Nat := 0
  ce : Nat := 0
  ue : Nat := 0
  errAddr : BitVec 64 := 0
  pprDone : Nat := 0
  ql : Nat := 0
  deriving DecidableEq, Repr

/-- One stack (R172–R176). `cal` holds, by channel, the time of its last calibration and the temperature then; at reset both are 0. -/
structure Stack where
  therm : Nat := 0
  temp : Nat := 0
  throttleNs : Nat := 0
  lastRead : Nat := 0
  recalCh : Option Nat := none
  cal : Tab (Nat × Nat) := []
  deriving DecidableEq, Repr

/-- A run of HBM bytes whose contents the spec leaves undefined (R59, R200, R373) and nothing has written since: keys
`lo` to `lo + len - 1`; `gen` tells one such event from another. -/
structure URange where
  lo : Nat
  len : Nat
  gen : Nat
  deriving DecidableEq, Repr

/-! ## GTU (07) -/

/-- A host-view window (R191). -/
structure HvWin where
  hva : BitVec 64 := 0
  size : BitVec 64 := 0
  delta : BitVec 64 := 0
  deriving DecidableEq, Repr

/-- A context (R187). `win` is keyed by window number. -/
structure GtuCtx where
  root : BitVec 64 := 0
  pinLimit : Nat := 0
  faultAddr : BitVec 64 := 0
  faultInfo : BitVec 64 := 0
  walks : Nat := 0
  prewalks : Nat := 0
  win : Tab HvWin := []
  deriving DecidableEq, Repr

/-- A translation held (R188): pages of `size` bytes at DVA `va`, to `pa`. -/
structure TlbEntry where
  slice : Nat
  va : Nat
  size : Nat
  pa : Nat
  r : Bool
  w : Bool
  a : Bool
  noalloc : Bool
  pinned : Bool := false
  deriving DecidableEq, Repr

/-- A table pointer held in a walk cache (R188): the table of `level` for DVAs from `va`. -/
structure WalkPtr where
  slice : Nat
  level : Nat
  va : Nat
  table : Nat
  deriving DecidableEq, Repr

/-- A walk that waits (R188): for whom, `page` the DVA page it is for, and how far it has come: the level and table it reads next, with `leaf` a leaf with
CONT whose group's first entry it reads (R184). A walk not `started` waits for a walker, demand walks ahead of prefetch walks. -/
structure GtuWalk where
  key : Nat
  slice : Nat
  page : Nat
  level : Nat := 4
  table : Nat := 0
  leaf : Option Nat := none
  started : Bool := false
  prefetch : Bool := false
  deriving DecidableEq, Repr

/-- A queued invalidation (R194). OP 1 MODULE, 2 CONTEXT, 3 RANGE. -/
structure InvReq where
  op : Nat
  slice : Nat
  seq : Nat
  addr : Nat
  size : Nat
  deriving DecidableEq, Repr

/-- A write hold of MIGRATE (R199). -/
structure MigHold where
  queue : Nat
  slice : Nat
  va : Nat
  size : Nat
  leafAddr : Nat
  leaf : Nat
  dest : Nat
  copied : Bool := false
  deriving DecidableEq, Repr

/-- Site access filter of one H-site (R204). -/
structure Saf where
  ctl : BitVec 64 := 0
  denied : Nat := 0
  first : BitVec 64 := 0
  scratch : BitVec 64 := 0
  deriving DecidableEq, Repr

/-- The GTU: `tlb` is the shared TLB, `micro` the micro-TLBs by translation port, `wcache` the walk caches and `walks` the walks that wait (R188), in order
of arrival; `ahead` the pages a stream's prefetch has walked, by the stream's tag and tile (R190). -/
structure Gtu where
  ctx : Tab GtuCtx := []
  tlb : List TlbEntry := []
  micro : List (Nat × TlbEntry) := []
  wcache : List WalkPtr := []
  walks : List GtuWalk := []
  ahead : List (Nat × Nat × Nat) := []
  invCtlSlice : Nat := 0
  invCtlSeq : Nat := 0
  invAddr : BitVec 64 := 0
  invSize : BitVec 64 := 0
  invq : List InvReq := []
  doneSeq : Nat := 0
  discarded : Bool := false
  holds : List MigHold := []
  saf : Tab Saf := []
  deriving DecidableEq, Repr

/-! ## Ordering (09) -/

/-- A FABRIC release or acquire in progress (R236–R239): for whom, the slice, the regions, the home slices still to walk
and whether it is an acquire; `keep` that a command waits for its status; `lines` counts lines written
back. -/
structure FabOp where
  id : Nat
  slice : Nat
  regions : BitVec 16
  acquire : Bool
  contexts : BitVec 32
  status : Nat := 0
  keep : Bool := false
  lines : Nat := 0
  deriving DecidableEq, Repr

/-! ## NOC (10) -/

/-- A regulator (R265–R276). Tokens in quarter lines, possibly negative (R270); `shares` is their division among the meters for this period, none
while no demand was reported, and `demands` what each meter has reported in it (R265). -/
structure Regulator where
  weight : Nat := 1
  guar : Nat := 0
  next : Option (Nat × Nat) := none
  tokens : Int := 0
  remainder : Int := 0
  demand : Nat := 0
  shares : Option (Tab Int) := none
  demands : Tab Nat := []
  held : Bool := false
  rejected : Bool := false
  lines : Nat := 0
  urgent : Nat := 0
  floor : Nat := 0
  deriving DecidableEq, Repr

/-- A request in a channel's queue (R266, R269–R271); `ca` is its channel address. -/
structure McReq where
  ch : Nat
  ca : Nat := 0
  reg : Nat
  svc : Nat
  arrival : Nat
  deadline : Nat
  late : Bool := false
  deriving DecidableEq, Repr

/-- A request waiting at its meter (R267, R270): `tag` is its transaction. -/
structure MeterReq where
  reg : Nat
  tag : Nat
  arrival : Nat
  released : Bool := false
  meter : Nat := 0
  deriving DecidableEq, Repr

/-- A STRICT response held for its pad (R273): the slice, the requester's tag, the time it is due, and for its latency (R277) the time it reached its
meter, its counter set and the slice of its tenant view. -/
structure Pad where
  slice : Nat
  tag : Nat
  due : Nat
  arrival : Nat := 0
  ini : Nat := 999
  view : Option Nat := none
  deriving DecidableEq, Repr

/-- A per-initiator counter set (R277); `hist` has eight buckets. -/
structure IniCnt where
  bytes : Nat := 0
  reqs : Nat := 0
  hist : Tab Nat := []
  deriving DecidableEq, Repr

/-- A slice's tenant counters (R278) and the view last refreshed. -/
structure Tv where
  tm : Nat := 0
  q : Nat := 0
  hist : Tab Nat := []
  viewTm : Nat := 0
  viewQ : Nat := 0
  viewHist : Tab Nat := []
  stamp : Nat := 0
  deriving DecidableEq, Repr

/-- The NOC block. `openRows` are the rows open in the channels' banks, by channel × 2³² + bank (R269), `lastReq` the time at which a channel last had a
request queued (R176). -/
structure Noc where
  regs : Tab Regulator := []
  throttled : Bool := false
  clean : Nat := 0
  maxQl : Nat := 0
  throttleNs : Nat := 0
  strictLate : Nat := 0
  exhausted : BitVec 70 := 0
  ini : Tab IniCnt := []
  tv : Tab Tv := []
  mcq : List McReq := []
  meters : List MeterReq := []
  pads : List Pad := []
  floorTurn : Tab Nat := []
  openRows : Tab (Option Nat) := []
  lastReq : Tab Nat := []
  deriving DecidableEq, Repr

/-! ## Faults (18) -/

/-- A fault record (R444), without its PHASE. -/
structure FaultRec where
  time : Nat := 0
  source : Nat := 0
  cls : Nat := 0
  reaction : Nat := 0
  slice : Nat := 0xFF
  suppressed : Nat := 0
  epoch : Nat := 0
  unit : Nat := 0
  addr : Nat := 0
  info0 : Nat := 0
  info1 : Nat := 0
  pasid : Nat := 0
  generation : Nat := 0
  seq : Nat := 0
  phase : Bool := false
  deriving DecidableEq, Repr

/-- A quarantined page (R454); bit i of `left`: line i not yet rewritten by the owner. -/
structure Quar where
  page : Nat
  owner : Nat
  left : BitVec 32
  deriving DecidableEq, Repr

/-- The fault collector (R439–R458). `last` is the time of each source's last written record, `supp` its suppressed count. -/
structure Fcu where
  safe : Bool := false
  selfFault : Bool := false
  safeSource : Nat := 0xFFFF
  safeTime : Nat := 0
  squelched : Bool := false
  qBase : BitVec 64 := 0
  prod : Nat := 0
  cons : Nat := 0
  drops : Nat := 0
  seq : Nat := 0
  irq : BitVec 64 := 0
  irqAddr : BitVec 64 := 0
  irqData : BitVec 64 := 0
  irqPending : Bool := false
  irqDue : Bool := false
  sticky : BitVec 1536 := 0
  last : Tab (Option Nat) := []
  supp : Tab Nat := []
  hist : List FaultRec := []
  quar : Tab (Option Quar) := []
  deriving DecidableEq, Repr

/-! ## Slices (15) -/

/-- Where an operation of a slice stands (R384, R387, R389). -/
inductive SlcStage where
  | idle
  | bindInv
  | drain
  | coreReset
  | leave
  | inval
  | scrub
  deriving DecidableEq, Repr

/-- A slice (R383–R395). `ctlPend` are control words delivered and not yet taken (R394), `unbindNext` that an unbind follows the
reset (R386), `mirrorAt` the time of the last mirror write. STATE: 0 UNBOUND, 1 BINDING, 2 BOUND, 3 RESETTING, 4 UNBINDING, 5 SCRUBBING, 6 UNDEFINED. -/
structure Slice where
  state : Nat := 6
  pasid : Nat := 0
  error : Nat := 0
  lastOp : Nat := 0
  resets : Nat := 0
  gen : Nat := 0
  mirror : BitVec 64 := 0
  ctlLine : BitVec 64 := 0
  ctlAck : BitVec 64 := 0
  qsel : Nat := 0
  squash : Bool := false
  stage : SlcStage := .idle
  fenceAfterBind : Bool := false
  scrubsLeft : Nat := 0
  scrubFailed : Bool := false
  ctlPend : List (BitVec 64) := []
  unbindNext : Bool := false
  mirrorAt : Nat := 0
  deriving DecidableEq, Repr

/-! ## Copy queues and engines (11) -/

/-- A completion record on its way (R300): its bytes, the full counts, and whether its command has IRQ set. -/
structure Rec where
  raw : BitVec 256
  status : Nat
  elems : Nat
  fail : Option Nat
  irq : Bool
  deriving DecidableEq, Repr

/-- A command in progress on a queue, or the command of a resume context. `own` is its slot and `raw` the slot whose fields it executes,
another one for a RESUME. `elems` are the elements done, `pos` the bytes done inside the next one, `last` the element of the last
write issued, `stage` a step of a command of several; `result` is status, DETAIL and failing element once it has ended, `eng` the
copy engine that executes it, `win` the windows captured, `buf` the bytes read of a run whose source and destination may overlap (R292), `issued` its
record once written out. -/
structure Cmd where
  own : BitVec 2048
  raw : BitVec 2048
  elems : Nat := 0
  bytes : Nat := 0
  pos : Nat := 0
  last : Option Nat := none
  stage : Nat := 0
  result : Option (Nat × Nat × Option Nat) := none
  win : Tab HvWin := []
  t0 : Nat := 0
  aux : Tab Nat := []
  aborting : Bool := false
  eng : Nat := 0
  buf : List (BitVec 8) := []
  issued : Option Rec := none
  deriving DecidableEq, Repr

/-- A queue (R284–R308). STATE: 0 STOPPED, 1 RUNNING, 2 STOPPING. `closing` are the commands, oldest first, whose writes are complete at MODULE scope
and whose record waits for FABRIC scope (R232, R301); `abortReq` that an ABORT has not reported yet; `irqHeld` that the write of an interrupt waits
under a write hold (R199). -/
structure Queue where
  ring : BitVec 64 := 0
  cpl : BitVec 64 := 0
  dbLine : BitVec 64 := 0
  state : Nat := 0
  reason : Nat := 0
  refused : Nat := 0
  dbBad : Bool := false
  prod : Nat := 0
  cons : Nat := 0
  nextSeq : Nat := 0
  phase : Bool := false
  tries : Nat := 0
  cmd : Option Cmd := none
  closing : List Cmd := []
  abortReq : Bool := false
  heldRecord : Option Rec := none
  heldIssued : Bool := false
  resume : Option Cmd := none
  stopReason : Nat := 0
  abortResult : BitVec 64 := 0
  irq : BitVec 64 := 0
  irqAddr : BitVec 64 := 0
  irqData : BitVec 64 := 0
  irqCount : Nat := 0
  irqSince : Nat := 0
  irqDue : Bool := false
  irqHeld : Bool := false
  records : Nat := 0
  lastElems : Nat := 0
  lastFail : BitVec 64 := 0
  deriving DecidableEq, Repr

/-- A copy engine (R282, R309). STATE kept: gated or retired; BUSY is computed. -/
structure CopyEngine where
  gated : Bool := false
  retired : Bool := false
  lastQueue : Nat := 0
  lastOpc : Nat := 0
  bytes : Nat := 0
  cmds : Nat := 0
  deriving DecidableEq, Repr

/-! ## Remote operations and the fabric (13) -/

/-- Target of an operation that leaves the module. -/
inductive RTarget where
  | fabric (job module : Nat) (rpa : Nat)
  | host (bus : Nat) (pasid : Option Nat)
  deriving DecidableEq, Repr

/-- An operation that left the module (R342, R371): kind 0 read, 1 write, 2 atomic. `tag` names the initiator. `done` holds its status once it is
complete, with the data read or the old value. For a host target, kind 3 is a flush read (R234) and 4 an ATS translation request, which then becomes
the operation of kind `after`; `extra` are the operands of an atomic, `signed` that its old value is sign-extended, `poison` that a write carries a
poisoned line (R170), `within` the operation whose packet also carries this write (R339), `sentAt` when a request to the host went out (R367). -/
structure ROp where
  id : Nat
  tag : Nat
  target : RTarget
  kind : Nat
  addr : Nat
  len : Nat
  line : Nat := 0
  data : BitVec 1024 := 0
  mask : BitVec 128 := 0
  done : Option Nat := none
  packets : Nat := 1
  acked : Nat := 0
  keep : Bool := true
  after : Nat := 0
  extra : List (BitVec 8) := []
  signed : Bool := false
  poison : Bool := false
  within : Option Nat := none
  sentAt : Nat := 0
  deriving DecidableEq, Repr

/-- A packet sent and not acknowledged (R340, R341). -/
structure TxPkt where
  psn : Nat
  opc : Nat
  opid : Nat
  addr : Nat
  aux : Nat
  flags : Nat
  payload : List (BitVec 8)
  port : Nat
  sentAt : Nat
  retx : Nat := 0
  skips : Nat := 0
  slice : Nat := 0xFF
  poison : Bool := false
  deriving DecidableEq, Repr

/-- A connection to one peer in one job (R339–R346). STATE: 0 NONE, 1 OPEN, 2 FENCED. -/
structure Conn where
  state : Nat := 0
  reason : Nat := 0
  unfenced : Bool := false
  sendPsn : Nat := 0
  unacked : List TxPkt := []
  cumPsn : Nat := 0
  bitmap : BitVec 1024 := 0
  sinceTack : Nat := 0
  firstSince : Nat := 0
  lastHeard : Nat := 0
  lastSent : Nat := 0
  portTurn : Nat := 0
  deriving DecidableEq, Repr

/-- A member of a job (R347). -/
structure Member where
  module : Nat
  digest : BitVec 384
  deriving DecidableEq, Repr

/-- A job slot (R347–R349, R362). STATE: 0 IDLE, 1 JOINING, 2 ACTIVE, 3 LEAVING, 4 FAILED. `keys` are the KEY_IDs
installed; `pend` the KEY_ID of a key installed as pending; `acks` the members whose key acknowledgement is awaited; `answered` that the leader's
share has come. A JOINING job without members has not read its descriptor yet. -/
structure Job where
  desc : BitVec 64 := 0
  state : Nat := 0
  error : Nat := 0
  keyId : Nat := 0
  retx : Nat := 0
  jobId : Nat := 0
  tag : Nat := 0
  leader : Nat := 0
  members : List Member := []
  keys : List Nat := []
  pend : Option Nat := none
  oldKeySince : Option (Nat × Nat) := none
  acks : List Nat := []
  hello : Nat := 0
  joinedAt : Nat := 0
  answered : Bool := false
  stepped : Bool := false
  keyGen : Nat := 0
  asked : Option Nat := none
  deriving DecidableEq, Repr

/-- A port (R332, R361). STATE: 0 OFF, 1 TRAINING, 2 UP, 3 DOWN, 4 FAILED. `nonce` is NONCE_SEQ by job and key, `paused` the priorities a
PFC frame paused, `held` the RoCE answers they hold: priority, pair, kind, PSN, data. -/
structure Port where
  state : Nat := 0
  linkUps : Nat := 0
  fecUncorr : Nat := 0
  fecCorr : Nat := 0
  rx : Nat := 0
  tx : Nat := 0
  authFail : Nat := 0
  nonce : Tab Nat := []
  paused : BitVec 8 := 0
  held : List (Nat × Nat × Nat × Nat × List (BitVec 8)) := []
  deriving DecidableEq, Repr

/-- A RoCE queue pair (R352). STATE: 0 RESET, 1 READY, 2 ERROR. -/
structure Qp where
  state : Nat := 0
  recvPos : Nat := 0
  cplPos : Nat := 0
  psn : Option Nat := none
  deriving DecidableEq, Repr

/-- A collective instance (R353–R359) at this module: its command's slot and place, `members` by rank, the ranks whose HEADER has come with
their OPIDs and row counts, the cursor of what it sends (`toRank`, or the row; `toPos`, the element or byte), the addends received by element ×
65,536 + rank, the outputs final in order (`written`) and beyond (`ahead`, spans), and for ALL_TO_ALL the dispatch table and the bytes
and rows placed by source × 2⁴⁰ + row. -/
structure Coll where
  queue : Nat
  raw : BitVec 2048
  job : Nat
  eng : Nat
  axis : Nat
  group : Nat
  cseq : Nat
  opid : Nat
  rank : Nat
  members : List Nat
  sentHeads : Nat := 0
  headers : List Nat := []
  peerOpid : Tab Nat := []
  rowsFrom : Tab Nat := []
  toRank : Nat := 0
  toPos : Nat := 0
  addends : Tab (Option (BitVec 32)) := []
  written : Nat := 0
  ahead : List (Nat × Nat) := []
  rowBytes : Nat := 0
  cap : Nat := 0
  recv : Nat := 0
  dest : List Nat := []
  rowGot : Tab Nat := []
  counted : Nat := 0
  overflow : Bool := false
  flags : Nat := 0
  deriving DecidableEq, Repr

/-- A collective engine (R363). -/
structure ColEngine where
  running : Option Nat := none
  gated : Bool := false
  retired : Bool := false
  lastQueue : Nat := 0
  lastOp : Nat := 0
  rx : Nat := 0
  tx : Nat := 0
  ops : Nat := 0
  flags : Nat := 0
  deriving DecidableEq, Repr

/-- A collective packet that has come and has not been taken up (R354): the job and peer it came from. -/
structure EarlyPkt where
  job : Nat
  peer : Nat
  opc : Nat
  opid : Nat
  addr : Nat
  aux : Nat
  payload : List (BitVec 8)
  deriving DecidableEq, Repr

/-- The fabric unit (R331–R364). `early` keeps collective packets not taken up yet, `dead` the job, peer and OPID of instances that have ended
here; `cseq` counts by (job × 4 + axis) × 65,536 + GROUP, `groups` the pairs an engine tracks, as engine × 64 + job and axis × 65,536 + GROUP; `slew` is the
correction of TIME still to come, `slewNs` the time since its last step. -/
structure Nx where
  payloadMax : Nat := 2
  vlan : Bool := false
  pcp : Nat := 0
  rto : Nat := 40
  timeErr : BitVec 64 := 0
  peerSel : BitVec 64 := 0
  axis : Tab (BitVec 64) := []
  rwinCtl : Tab (BitVec 64) := []
  rwinBase : Tab (BitVec 64) := []
  qpt : BitVec 64 := 0
  mkt : BitVec 64 := 0
  qpSel : Nat := 0
  qps : Tab Qp := []
  ports : Tab Port := []
  jobs : Tab Job := []
  conns : Tab Conn := []
  colls : List Coll := []
  cseq : Tab Nat := []
  early : List EarlyPkt := []
  dead : List (Nat × Nat × Nat) := []
  groups : List (Nat × Nat) := []
  slew : Int := 0
  slewNs : Nat := 0
  nextOpid : Nat := 0
  deriving DecidableEq, Repr

/-! ## Host endpoint (14) -/

/-- An MSI-X table entry. -/
structure MsixEntry where
  addr : BitVec 64 := 0
  data : BitVec 32 := 0
  mask : Bool := true
  deriving DecidableEq, Repr

/-- A translation held for the host's ATS (R371). -/
structure AtsEntry where
  window : Nat
  page : Nat
  translated : Nat
  deriving DecidableEq, Repr

/-- The host endpoint (R365–R381). `pmState`: 0 L0, 1 L0p, 2 L1, 3 L1.2. MSI-X, ASPM and D3hot are state of its configuration space; a retrain
began at `retrainAt`. -/
structure Pcie where
  dlUp : Bool := false
  speed : Nat := 0
  width : Nat := 0
  fullWidth : Nat := 0
  pmState : Nat := 0
  events : BitVec 5 := 0
  losses : Nat := 0
  l1IdleUs : Nat := 64
  l0pIdleUs : Nat := 20
  l0pMin : Nat := 2
  bar4Win : BitVec 64 := 0
  bar4Log2 : Nat := 36
  hwin : Tab (BitVec 64) := []
  hwinPasid : Tab (BitVec 64) := []
  msix : Tab MsixEntry := []
  pba : BitVec 2048 := 0
  msixEnable : Bool := false
  funcMask : Bool := false
  d3hot : Bool := false
  l1Enable : Bool := false
  l12Enable : Bool := false
  flrBusy : Bool := false
  retraining : Bool := false
  retrainAt : Nat := 0
  retrainLong : Bool := false
  ideKeys : List Nat := []
  ats : List AtsEntry := []
  deriving DecidableEq, Repr

end Sys2Proof.Machine
end

