-- ==== Sys2Proof/Machine/UnitsB.lean ====
section
/-!
DEFINITION. The state of the Mould cores, the Calender engines, the fuses and the Watermark unit, bring-up, the management
port, telemetry and Survey, and what the module has sent to the outside.
-/
namespace Sys2Proof.Machine

/-! ## Mould cores (03, 04, 05) -/

/-- Core state (R84). -/
inductive CoreSt where
  | reset
  | halted
  | running
  | waiting
  | retired
  deriving DecidableEq, Repr

/-- What a core's issue is held for: nothing, a SEMWAIT or TMDRAIN in WAITING (R80, R86), a FENCE (R236), with an XDRAIN or a HALT of its bundle to
follow, an XDRAIN (R72) or a HALT whose queues drain (R86). -/
inductive Hold where
  | none
  | sem
  | drain
  | fence (scope : Nat) (xdrain halt : Bool)
  | xdrain
  | halt
  deriving DecidableEq, Repr

/-- An active hardware loop (R70): counter number, first bundle, last bundle. -/
structure HwLoop where
  lc : Nat
  start : Nat
  stop : Nat
  deriving DecidableEq, Repr

/-- A queued matrix operation (R72, R118): its slot word, the scalar values captured at issue (address, stride, address of scales), the
format recorded for its weight buffer, FRM, the stochastic inputs. -/
structure MatOp where
  word : Nat
  base : BitVec 64
  stride : BitVec 64
  base2 : BitVec 64
  wcode : Nat
  frm : Nat
  seed : BitVec 64
  step : BitVec 64
  index : BitVec 64
  deriving DecidableEq, Repr

/-- A tile-mover descriptor in its queue (R81–R83); `runs` complete runs, `bytes` bytes moved, `pos` bytes of the current run, `last` bytes
of the last write issued, `fail` the status with the run. -/
structure TmDesc where
  raw : BitVec 512
  started : Bool := false
  runs : Nat := 0
  bytes : Nat := 0
  pos : Nat := 0
  last : Nat := 0
  fail : Option (Nat × Nat) := none
  deriving DecidableEq, Repr

/-- A tile-mover queue and its registers (R65, R81–R83). -/
structure Tq where
  q : List TmDesc := []
  stopped : Bool := false
  done : Nat := 0
  err : BitVec 64 := 0
  bdone : BitVec 64 := 0
  frun : BitVec 64 := 0
  deriving DecidableEq, Repr

/-- A store or SEMPOST of core `src` held for a core in RESET (R78, R80); `off` is the offset in its tile memory. -/
inductive HeldAcc where
  | store (src : Nat) (off : Nat) (bytes : List (BitVec 8))
  | post (src : Nat) (sem : Nat) (n : Nat)
  deriving DecidableEq, Repr

/-- Format recorded in a weight buffer (R118). -/
structure WFmt where
  code : Nat := 1
  sparse : Bool := false
  deriving DecidableEq, Repr

/-- A Mould core (R62, R65). Tables: `x` by register, `v`, `p`, `w` by buffer × 32768 + byte, `ws` by buffer × 8192 + byte, `acc` by tile × 16384 +
row × 128 + column. `ce` counts corrected errors of its tile memory (R76). `fenceRel` is the release a FENCE waits for, `pastEnd` that the next fetch
lies past bundle 4,095 (R90). -/
structure Core where
  st : CoreSt := .reset
  hold : Hold := .none
  pc : BitVec 18 := 0
  x : Tab (BitVec 64) := []
  v : Tab (BitVec 8192) := []
  p : Tab (BitVec 256) := []
  w : Tab (BitVec 8) := []
  ws : Tab (BitVec 8) := []
  wfmt : Tab WFmt := []
  acc : Tab (BitVec 32) := []
  sem : Tab (BitVec 32) := []
  lc : Tab (BitVec 32) := []
  loops : List HwLoop := []
  fflags : BitVec 6 := 0
  frm : BitVec 2 := 0
  srSeed : BitVec 64 := 0
  srStep : BitVec 64 := 0
  srIndex : BitVec 64 := 0
  cycle : Nat := 0
  trapAsync : Bool := false
  trapCause : Nat := 0
  trapPc : BitVec 18 := 0
  trapVal : BitVec 64 := 0
  trapValid : Bool := false
  imem : Tab (BitVec 8) := []
  tmem : Tab (BitVec 8) := []
  ue : List Nat := []
  ce : Nat := 0
  matq : List MatOp := []
  tq : Tab Tq := []
  heldAcc : List HeldAcc := []
  launch : Option Nat := none
  survey : Bool := false
  gated : Bool := false
  fenceRel : Option Nat := none
  pastEnd : Bool := false
  deriving DecidableEq, Repr

/-! ## Calender engines (12) -/

/-- A chunk under way in an engine (R317). `phase` is 0 while it loads, 1 while its program runs, 2 while its stores go; `loaded` operands read so
far, `pc` the next operation. Tables: `regs` by element × 16 + register, `loads` and `stores` by operand × 64 + element as the bits in memory,
`lscale` and `scales` by operand × 2 + block. `odd` the lanes for which an ST has a NaN, an infinity or a NaN block scale (R324), `pas` the physical
line of each store line, by its DVA. -/
structure CalChunk where
  chunk : Nat
  stack : Nat
  phase : Nat := 0
  loaded : Nat := 0
  pc : Nat := 0
  regs : Tab (BitVec 32) := []
  loads : Tab (BitVec 32) := []
  lscale : Tab Nat := []
  stores : Tab (BitVec 32) := []
  scales : Tab Nat := []
  odd : List Nat := []
  pas : List (Nat × Nat) := []
  deriving DecidableEq, Repr

/-- A CAL_RUN at the allocator (R313–R326). `prog` are its operations, `table` its operand table, `segs` the segment starts; `next` is, by
stack, the first chunk that stack has not completed, `cur` the chunk of each engine, `finished` the engines with no chunk left;
`sums`, by segment × 2 + sum, in units of 2⁻¹⁴⁹. `failed` is status, DETAIL and failing element, `stage` what is written at the end. -/
structure CalRun where
  queue : Nat
  slice : Nat
  mask : BitVec 8
  started : Bool := false
  prog : List Nat := []
  table : List (BitVec 8) := []
  consts : Tab (BitVec 32) := []
  segs : List Nat := []
  segval : Tab (BitVec 32) := []
  next : Tab Nat := []
  cur : Tab (Option CalChunk) := []
  finished : BitVec 8 := 0
  sums : Tab Int := []
  sumNan : List Nat := []
  sumInf : List Nat := []
  flags : Nat := 0
  nanCount : Nat := 0
  failed : Option (Nat × Nat × Option Nat) := none
  stage : Nat := 0
  deriving DecidableEq, Repr

/-- A Calender engine (R327). -/
structure CalEngine where
  queue : Nat := 0
  running : Bool := false
  gated : Bool := false
  retired : Bool := false
  elems : Nat := 0
  busy : Nat := 0
  flags : Nat := 0
  deriving DecidableEq, Repr

/-! ## Fuses and the Watermark unit (16, 17) -/

/-- An owner slot (R410). -/
structure OwnerSlot where
  digest : BitVec 384 := 0
  valid : BitVec 64 := 0
  revoked : BitVec 64 := 0
  deriving DecidableEq, Repr

/-- The fuses. `stripes` is keyed unit × 4 + stripe, units 0–15 the sites, 16 the module, 17 the vault, in R407's order;
`codes` by site index, `lanes` the lanes marked failed at manufacture by site × 16 + module (R19), `units` by C- and H-site, `cRetired` by C-site,
`ppr` by stack, `margin` and `target` by power domain. `retire` are the retirement entries in use, as site × 24 + local core. -/
structure Fuses where
  variant : Nat := 1
  serial : BitVec 64 := 0x0000000000000001
  stepping : Nat := 0x10
  bin : Nat := 0
  demoted : Bool := false
  codes : Tab Nat := []
  units : Tab Nat := []
  cRetired : Tab (BitVec 24) := []
  retire : List Nat := []
  lanes : Tab ModTrain := []
  ppr : Tab Nat := []
  margin : Tab Nat := []
  target : Tab Nat := []
  stripes : Tab (BitVec 64) := []
  owners : Tab OwnerSlot := []
  bootCa : BitVec 384 := 0
  bootCaValid : BitVec 64 := 0
  testPort : BitVec 8 := 0
  keysFused : Bool := true
  destroyed : Bool := false
  deriving DecidableEq, Repr

/-- The Watermark unit (R400–R424). `lcBoot` and `vaultBoot` are the states decoded at the last sensing, for which the keys were derived
(R402, R406); the present states are read off the fuses. `busy` is the unit and target of the transition being programmed, since `busyAt`.
Nonce as a 32-byte number, byte 0 lowest; `ms` the measurement slots. -/
structure Wmk where
  lcBoot : Nat := 7
  vaultBoot : Nat := 0
  busy : Option (Nat × Nat) := none
  busyAt : Nat := 0
  result : Nat := 0
  stage : BitVec 384 := 0
  nonce : BitVec 256 := 0
  nonceAt : Option Nat := none
  token : Tab (BitVec 8) := []
  tokenResult : Nat := 0
  rights : BitVec 64 := 0
  dbgSites : BitVec 16 := 0
  dbgUntil : Option Nat := none
  dbgCores : List Nat := []
  grantsEpoch : Nat := 0
  grantsPor : Nat := 0
  ms : Tab (BitVec 384) := []
  measAddr : BitVec 64 := 0
  measLen : Nat := 0
  measSlot : Nat := 0
  measBusy : Bool := false
  measResult : Nat := 0
  events : BitVec 5 := 0
  deriving DecidableEq, Repr

/-- A management session (R411): its number and the anchor it was authenticated under. -/
structure MgmtSession where
  id : Nat
  anchor : BitVec 384
  deriving DecidableEq, Repr

/-- The management port (R411) and the SPDM secure sessions by binding (R413). -/
structure Mgmt where
  link : Bool := false
  sgmii : Bool := false
  closed : Bool := false
  sessions : List MgmtSession := []
  nextId : Nat := 0
  spdmDoe : Nat := 0
  spdmMgmt : Nat := 0
  deriving DecidableEq, Repr

/-- Felt boot sequencer of one H-site (R435). STATE 0 IDLE, 1 MEASURING, 2 DELIVERING, 3 STARTED, 4 FAILED. -/
structure Felt where
  image : BitVec 64 := 0
  len : BitVec 64 := 0
  entry : BitVec 64 := 0
  state : Nat := 0
  error : Nat := 0
  deriving DecidableEq, Repr

/-- Bring-up (R426–R437). `stepAt` is the time of the last step command accepted. Step STATE 0 IDLE, 1 RUNNING, 2 DONE, 3 FAILED, kept for the last
step written and, for TRAIN and LLA_INIT which may overlap, as `trainRun` and `initRun`. `logical` is the numbering of R431 as site × 24 + local core.
-/
structure Glb where
  step : Nat := 0
  stepState : Nat := 0
  stepError : Nat := 0
  doneMask : BitVec 4 := 0
  trainRun : Bool := false
  trainAt : Nat := 0
  stepAt : Nat := 0
  initRun : Bool := false
  sensed : Bool := false
  fuseErrors : Nat := 0
  chart : Bool := false
  clocks : Bool := false
  lla : Bool := false
  dir : Bool := false
  engines : Bool := false
  open_ : Bool := false
  logical : List Nat := []
  felt : Tab Felt := []
  feltReady : BitVec 2 := 0
  retiredCores : Nat := 0
  retiredUnits : Nat := 0
  retiredFused : Nat := 0
  deriving DecidableEq, Repr

/-! ## Power, thermal, ageing, Survey (19) -/

/-- A power domain (R460, R466, R467, R471). -/
structure Pd where
  state : Nat := 0
  exhausted : Bool := false
  slack : Nat := 0
  limitNs : Nat := 0
  deriving DecidableEq, Repr

/-- A base sensor (R463). -/
structure Sensor where
  state : Nat := 0
  temp : Nat := 0
  deriving DecidableEq, Repr

/-- What Survey tests (R468): kinds as TEL_SURVEY_FAIL's KIND. -/
structure SurveyUnit where
  kind : Nat
  unit : Nat
  deriving DecidableEq, Repr

/-- Telemetry, ageing and Survey. `testing` are the units under test with their segments done; `tested` those covered in the
round; `late` those past their deadline; `walkersOut`, `tlbsOut`, those retired. -/
structure Tel where
  ageCount : Nat := 0
  ageLast : Nat := 0
  endOfMargin : Bool := false
  tripSensor : Option Nat := none
  rounds : Nat := 0
  surveyOn : Bool := false
  surveyFail : BitVec 64 := 0
  testing : List (SurveyUnit × Nat) := []
  tested : List SurveyUnit := []
  late : List SurveyUnit := []
  pd : Tab Pd := []
  therm : Tab Sensor := []
  walkersOut : BitVec 64 := 0
  tlbsOut : BitVec 16 := 0
  deriving DecidableEq, Repr

/-! ## Outputs -/

/-- What the module sends to the outside, as one list in State, newest first (DESIGN CHOICE, log 9). -/
inductive Out where
  /-- Data of a register read. -/
  | regData (addr : Nat) (data : BitVec 64)
  /-- Unsupported Request on a host access. -/
  | unsupported (addr : Nat)
  /-- Completion of a BAR4 read; `ep` is the poison bit. -/
  | hostData (addr : Nat) (ep : Bool) (data : List (BitVec 8))
  /-- MSI-X message of a vector. -/
  | msix (vector : Nat)
  /-- ERR_FATAL message. -/
  | errFatal
  /-- Outbound TLP of remote operation `id`: kind 0 read, 1 write, 2 atomic, 3 flush read; `ep` is the poison bit of a write. -/
  | tlp (id : Nat) (kind : Nat) (bus : Nat) (pasid : Option Nat) (len : Nat) (data : List (BitVec 8)) (ep : Bool := false)
  /-- Deckle message to a site, and the slots that carry it (R207, R209). -/
  | deckle (site : Nat) (msg : DkMsg) (slots : List (BitVec 128))
  /-- Credit returns to a site. -/
  | credits (site : Nat) (c : Credits)
  /-- Meridian packet: its header fields and payload, whether the payload is that of a poisoned line (DESIGN CHOICE, log 147), and the frame that carries
  it (R336), without the preamble and check sequence that Ethernet adds. -/
  | packet (job peer port opc flags psn opid addr aux : Nat) (payload : List (BitVec 8)) (poison : Bool) (frame : List (BitVec 8))
  /-- KEY_EXCH packet of a step. -/
  | keyExch (job peer step : Nat)
  /-- RoCE v2 answer: kind 0 ACK, 1 read response, 2 invalid-request NAK, 3 remote-access-error NAK, 4 PSN sequence NAK, 5 CNP; `bth` is its base
  transport header. -/
  | roce (qp kind psn : Nat) (data : List (BitVec 8)) (bth : List (BitVec 8))
  /-- Remote-fault ordered sets on a port. -/
  | remoteFault (port : Nat)
  /-- A port's transmitter is squelched. -/
  | squelch (port : Nat)
  /-- Management response, with the bytes of its header and payload (R412). -/
  | mgmt (session op status tag : Nat) (data : List (BitVec 8))
  /-- Measurement blocks in a GET_MEASUREMENTS answer: index, and bytes; the signature where one was asked for. -/
  | measurements (doe : Bool) (blocks : List (Nat × List (BitVec 8))) (sig : Option (BitVec 768))
  /-- Another SPDM answer of the code given. -/
  | spdm (doe : Bool) (code : Nat)
  /-- A sideband register write to an H-site. -/
  | sideband (site off : Nat) (data : BitVec 64)
  /-- SMBus read data. -/
  | smbus (data : BitVec 64)
  /-- Data of a debug access, or DENIED. -/
  | debug (denied : Bool) (data : List (BitVec 8))
  deriving DecidableEq, Repr

end Sys2Proof.Machine
end

