-- ==== Sys2Proof/Machine/State.lean ====
section
/-!
DEFINITION. The state of the module as one structure of plain data, its faults and refusals, and the state after reset.
-/
namespace Sys2Proof.Machine

/-- The whole module. `sites` is keyed by site index 0–15 (C0–C5, H0, H1, M0–M7), `cores` by site × 24 + local core, `queues` by queue, `ces` by copy
engine. `mem` holds HBM by channel × 2³² + channel address (R151); a byte not listed reads zero (DESIGN CHOICE, log 6), unless a range of `undef`
holds it. `chOut` lists the channels out of service until a later bring-up (R173, R432). `poison` lists the poisoned lines of HBM, as that key divided
by 128. `recent` lists the spans of HBM written in the last 10 µs, with their TIME (R450). -/
structure State where
  pending : List Instr := []
  time : Nat := 0
  pins : Pins := {}
  fuses : Fuses := {}
  clk : Clk := {}
  chart : ChartBlk := {}
  sites : Tab Site := []
  cores : Tab Core := []
  mem : Tab Byte := []
  poison : List Nat := []
  undef : List URange := []
  recent : List (Nat × Nat × Nat) := []
  lla : Lla := {}
  txns : List Txn := []
  nextTxn : Nat := 0
  mcs : Tab Mc := []
  chOut : List Nat := []
  hstacks : Tab Stack := []
  gtu : Gtu := {}
  fabOps : List FabOp := []
  noc : Noc := {}
  fcu : Fcu := {}
  slices : Tab Slice := []
  queues : Tab Queue := []
  ces : Tab CopyEngine := []
  runs : List CalRun := []
  cals : Tab CalEngine := []
  cols : Tab ColEngine := []
  rops : List ROp := []
  nx : Nx := {}
  pcie : Pcie := {}
  wmk : Wmk := {}
  mgmt : Mgmt := {}
  glb : Glb := {}
  tel : Tel := {}
  out : List Out := []
  draws : Nat := 0
  deriving DecidableEq, Repr

/-- The model has no fault of its own: every fault of the module is a next state that records it (R439). The one constructor
is raised by nothing; it keeps the type inhabited. Safe: no command ends in it. -/
inductive Fault where
  /-- Raised by no command. -/
  | none
  deriving DecidableEq, Repr

/-- Why a command has no meaning. -/
inductive Refusal where
  /-- A command whose meaning is not written yet, by its mnemonic. Raised by Dispatch.lean alone. Safe: the model stops. -/
  | notModelled (mnemonic : String)
  deriving DecidableEq, Repr

/-- Fuses of the unit modelled (DESIGN CHOICE, log 3): a fielded ZG1-S with nothing retired and nothing repaired, owner slot 0
and the boot management anchor provisioned. -/
def fusesAtReset : Fuses where
  codes := [(0, 1), (1, 1), (2, 1), (3, 1), (4, 1), (5, 1), (6, 2), (7, 2)]
  units := [(0, 24), (1, 24), (2, 24), (3, 24), (4, 24), (5, 24)]
  stripes := [16, 17].foldl (fun t u =>
    if u = 17 then Tab.set 0 t 69 0x9696969696969696
    else Tab.set 0 (Tab.set 0 t 64 0x5A5A5A5A5A5A5A5A) 65 0xA5A5A5A5A5A5A5A5)
    ((List.range 16).foldl (fun t k => Tab.set 0 (Tab.set 0 t (4 * k) 0x5A5A5A5A5A5A5A5A) (4 * k + 1) 0xA5A5A5A5A5A5A5A5) [])
  owners := [(0, { digest := 1, valid := 0x3333333333333333 })]
  bootCa := 2
  bootCaValid := 0x3333333333333333
  testPort := 0xFF
  target := ((List.range 48).filter (fun d => (2 ≤ d && d ≤ 15) || (33 ≤ d && d ≤ 42) || 44 ≤ d)).map (fun d => (d, 12))

/-- The module right after reset: POR_N is low, the supplies and REFCLK are present (log 4), the fuses are those of
`fusesAtReset`, PD0 is on (R460), and every other field is at the value INVENTORY.md gives it (DESIGN CHOICE, log 5). -/
def State.reset : State where
  fuses := fusesAtReset
  tel := { pd := [(0, { state := 2 })] }

end Sys2Proof.Machine
end

