-- ==== Sys2Proof/Machine/Clock.lean ====
section
/-!
DEFINITION. Module TIME (R22) and the CLK_CORE cycle counters of the Mould cores and Calender engines (R20, R65, R327).
-/
namespace Sys2Proof.Machine

/-- Nothing acts: the module is in the safe state (R449), or held in reset by POR_N (R32, R480) (DEDUCED, log 18). -/
def State.quiet (s : State) : Bool := s.fcu.safe || !s.pins.porN

/-- Whether the host's requests reach the endpoint: the data link is up, the function in D0 and no FLR runs (R373, R378, R381). -/
def State.hostUp (s : State) : Bool := s.pcie.dlUp && !s.pcie.d3hot && !s.pcie.flrBusy

/-- Whether the link takes no outbound TLP now: L1, L1.2, D3hot, an FLR and a retrain make it wait (R376–R378) (DEDUCED, log 87). -/
def linkBusy (s : State) : Bool := s.pcie.pmState ≥ 2 || s.pcie.d3hot || s.pcie.retraining || s.pcie.flrBusy

/-- Whether an MSI-X message of a vector may not go now: its mask or the function's is set, or the link takes no TLP (R367, R376, R378). -/
def msixWaits (s : State) (v : Nat) : Bool := linkBusy s || s.pcie.funcMask || (Tab.get {} s.pcie.msix v).mask

/-- A link that takes TLPs again sends the messages that waited for it (R376, R378): those of unmasked vectors. -/
def sendPending (s : State) : State :=
  if s.pcie.pba = 0 || s.quiet || !s.pcie.msixEnable then s
  else
    let go := (List.range 2048).filter (fun v => s.pcie.pba.getLsbD v && !msixWaits s v)
    { s with pcie := { s.pcie with pba := go.foldl (fun b v => b &&& ~~~(1#2048 <<< v)) s.pcie.pba }, out := go.reverse.map Out.msix ++ s.out }

/-- A TLP takes the link out of L1 and L1.2 (R377, R378, R381). -/
def wakeLink (s : State) : State := if s.pcie.pmState ≥ 2 then sendPending { s with pcie := { s.pcie with pmState := if s.pcie.width < s.pcie.fullWidth then 1 else 0 } } else s

/-- 2^64, at which TIME wraps. -/
def timeMod : Nat := 18446744073709551616

/-- Root-PLL cycles per CLK_CORE cycle: 15 at bin 0, 16 otherwise (R20). Bin values other than 0 act as 1 (R23). -/
def coreDiv (s : State) : Nat := if s.fuses.bin = 0 then 15 else 16

/-- Adds `n` CLK_CORE cycles to a core's CYCLE while it runs or waits (R65). -/
def Core.addCycles (n : Nat) (c : Core) : Core :=
  match c.st with
  | .running => { c with cycle := c.cycle + n }
  | .waiting => { c with cycle := c.cycle + n }
  | _ => c

/-- The correction of TIME due after `ns` more nanoseconds (R350): 1 ns per 10 µs until none is left (DEDUCED, log 84). -/
def slewBy (s : State) (ns : Nat) : Int := let k := min ((s.nx.slewNs + ns) / 10000) s.nx.slew.natAbs; if s.nx.slew < 0 then -(k : Int) else k

/-- TIME after `ns` nanoseconds, its correction included. -/
def timeAfter (ns : Nat) (s : State) : State :=
  if s.nx.slew = 0 then { s with time := (s.time + ns) % timeMod }
  else
    let k := slewBy s ns
    { s with time := (((s.time + ns : Nat) : Int) + k).toNat % timeMod
             nx := { s.nx with slew := s.nx.slew - k, slewNs := (s.nx.slewNs + ns) % 10000 } }

/-- Time spent in LIMITING is counted (R471). -/
def countLimiting (ns : Nat) (s : State) : State :=
  if s.tel.pd.all (fun p => p.2.state ≠ 3) then s
  else { s with tel := { s.tel with pd := s.tel.pd.map (fun p => (p.1, if p.2.state = 3 then { p.2 with limitNs := (p.2.limitNs + ns) % timeMod } else p.2)) } }

/-- TIME advances by `ns`, and with the root PLL locked the divided clocks run (R20, R22). -/
def advance (ns : Nat) (s : State) : State :=
  let s := countLimiting ns (timeAfter ns s)
  if s.clk.rootLock then
    let r := s.clk.coreRem + 24 * ns
    { s with
      clk := { s.clk with coreRem := r % coreDiv s }
      cores := s.cores.map (fun p => (p.1, p.2.addCycles (r / coreDiv s)))
      cals := s.cals.map (fun p => (p.1, if p.2.running then { p.2 with busy := p.2.busy + r / coreDiv s } else p.2)) }
  else s

/-- TIME is brought forward to a time a timed event falls due at, never back (log 8). -/
def advanceTo (due : Nat) (s : State) : State := if due > s.time then { advance (due - s.time) s with time := due % timeMod } else s

/-- One clock edge with no command waiting: 10 ns per REFCLK cycle before the root PLL locks, 1 ns after (R22). TIME runs only
while POR_N is high and a clock for it exists. -/
def tick (s : State) : State :=
  if s.pins.porN then (if s.clk.rootLock then advance 1 s else if s.pins.refclk then advance 10 s else s) else s

end Sys2Proof.Machine
end

