-- ==== Sys2Proof/Machine/Locate.lean ====
section
/-!
DEFINITION. Where a local physical address lies (R149–R153, R160): region, channel, channel address, home slice and LLA set; and
the plain bytes of HBM.
-/
namespace Sys2Proof.Machine

/-- The settings in force: the applied Chart's, or R39's defaults with no region and no slice. -/
def State.cfg (s : State) : Chart := s.chart.applied.getD {}

/-- Where a local physical address lies. -/
inductive Loc where
  | unmapped
  | hbm (r : Region) (ch ca : Nat)
  | remote (r : Region) (home set : Nat)
  | scratch (home way set : Nat)
  deriving DecidableEq, Repr

/-- First byte of the scratch window and of the REMOTE range (R149). -/
def scratchBase : Nat := 0x1FFC0000000
def remoteBase : Nat := 0x20000000000

/-- The two stacks R16 lists for a site, lower first. -/
def nearStacks : Nat → Nat × Nat
  | 0 => (0, 1)
  | 1 => (1, 2)
  | 2 => (2, 3)
  | 3 => (4, 5)
  | 4 => (5, 6)
  | 5 => (6, 7)
  | 6 => (0, 4)
  | _ => (3, 7)

/-- Number of channels in the set of an interleave mode (R150). REMOTE decodes as ALL (R153). -/
def chanCount (interleave : Nat) : Nat :=
  match interleave with
  | 1 => 128
  | 2 => 128
  | 3 => 32
  | 4 => 64
  | _ => 256

/-- Channel at position `p` of the set (R150). -/
def chanAt (interleave target p : Nat) : Nat :=
  match interleave with
  | 2 => 128 + p
  | 3 => 32 * target + p
  | 4 => let (a, b) := nearStacks target
         if p < 32 then 32 * a + p else 32 * b + p - 32
  | _ => p

/-- Channel and channel address of an offset (R151). -/
def chanDecode (interleave target granule : Nat) (hash : Bool) (baseCh o : Nat) : Nat × Nat :=
  let c := chanCount interleave
  let g := o / granule
  let w := o % granule
  let p := g % c
  let q := g / c
  let p := if hash then p ^^^ ((q ^^^ (q >>> 8) ^^^ (q >>> 16)) &&& (c - 1)) else p
  (chanAt interleave target p, baseCh + q * granule + w)

/-- First channel address of a region (R152). -/
def Region.baseCh (r : Region) : Nat := (r.base % (chanCount r.interleave * 4294967296)) / chanCount r.interleave

/-- LLA set of a channel address (R151). -/
def llaSet (ch ca : Nat) : Nat := (ca / 128 + (ch % 8) * 2048) % 16384

/-- The region that holds an address. -/
def Chart.regionOf (c : Chart) (pa : Nat) : Option Region := c.regions.find? (fun r => r.base ≤ pa && pa < r.base + r.size)

/-- Where an address lies (R149–R153, R160). -/
def Chart.locate (c : Chart) (pa : Nat) : Loc :=
  if scratchBase ≤ pa && pa < remoteBase then
    let o := pa - scratchBase
    .scratch (o / 0x2000000) (o / 0x200000 % 16) (o / 128 % 16384)
  else
    match c.regionOf pa with
    | none => .unmapped
    | some r =>
      if r.interleave = 5 then
        let (ch, ca) := chanDecode 0 0 256 true 0 (pa - r.base)
        .remote r (ch / 8) (llaSet ch ca)
      else
        let (ch, ca) := chanDecode r.interleave r.target r.granule r.hash r.baseCh (pa - r.base)
        .hbm r ch ca

/-- Home slice and LLA set of a location (R15, R151, R153, R160). -/
def Loc.home : Loc → Nat × Nat
  | .unmapped => (0, 0)
  | .hbm _ ch ca => (ch / 8, llaSet ch ca)
  | .remote _ h st => (h, st)
  | .scratch h _ st => (h, st)

/-- The region of a location. -/
def Loc.region : Loc → Option Region
  | .hbm r _ _ => some r
  | .remote r _ _ => some r
  | _ => none

/-- Key of a channel address in `State.mem`. -/
def memKey (ch ca : Nat) : Nat := ch * 4294967296 + ca

/-- Memory as a list of cells is in its one canonical form: keys strictly rising, and no cell equal to what a byte not listed reads as. -/
abbrev Memory.wf (m : List Host.Cell) : Bool := Tab.wf 0 m

/-- One byte of HBM: the free value of an undefined range that holds it, else the byte listed, else zero. -/
def readByte (s : State) (k : Nat) : Byte :=
  match s.undef.find? (fun u => u.lo ≤ k && k < u.lo + u.len) with
  | some u => Config.freeByte u.gen k
  | none => Tab.get 0 s.mem k

/-- Cuts keys `lo` to `lo + len - 1` out of the undefined ranges: they are written now. -/
def punch (lo len : Nat) : List URange → List URange
  | [] => []
  | u :: r =>
    let left := min (u.lo + u.len) lo - u.lo
    let right := u.lo + u.len - max u.lo (lo + len)
    (if left > 0 then [{ u with len := left }] else []) ++
    (if right > 0 then [{ u with lo := max u.lo (lo + len), len := right }] else []) ++ punch lo len r

/-- `n` bytes of HBM from a key. -/
def readMem (s : State) (k : Nat) : Nat → List Byte
  | 0 => []
  | n + 1 => readByte s k :: readMem s (k + 1) n

/-- Stores bytes from a key into the table. -/
def storeBytes (t : Tab Byte) (k : Nat) : List Byte → Tab Byte
  | [] => t
  | b :: r => storeBytes (Tab.set 0 t k b) (k + 1) r

/-- The spans written in the last 10 µs, with one more (R450). -/
def State.wrote (s : State) (lo len : Nat) : List (Nat × Nat × Nat) := (lo, len, s.time) :: s.recent.filter (fun r => s.time < r.2.2 + 10000)

/-- Writes bytes of HBM. -/
def writeMem (s : State) (k : Nat) (bs : List Byte) : State :=
  { s with mem := storeBytes s.mem k bs, undef := punch k bs.length s.undef, recent := s.wrote k bs.length }

/-- The lines written in the last 10 µs before the stacks go to self-refresh are lost (R450): their bytes are undefined
(DEDUCED, log 163). -/
def loseRecent (s : State) : State :=
  { s with undef := (s.recent.filter (fun r => s.time < r.2.2 + 10000)).map (fun r => ⟨r.1, r.2.1, s.draws⟩) ++ s.undef, recent := [], draws := s.draws + 1 }

/-- A line of HBM. -/
def memLine (s : State) (ch ca : Nat) : Line := lineOf (readMem s (memKey ch (ca / 128 * 128)) 128)

/-- Writes a whole line of HBM with its poison state (R170). -/
def setMemLine (s : State) (ch ca : Nat) (l : Line) (poison : Bool) : State :=
  let k := memKey ch (ca / 128 * 128)
  let s := writeMem s k (lineBytes l)
  { s with poison := if poison then (if s.poison.contains (k / 128) then s.poison else (k / 128) :: s.poison)
                     else s.poison.filter (· ≠ k / 128) }

/-- Whether a line of HBM is poisoned. -/
def memPoisoned (s : State) (ch ca : Nat) : Bool := s.poison.contains (memKey ch ca / 128)

/-- State of a channel (R173): 0 OFF, 1 UP, 2 RECAL, 3 RETIRED. -/
def chanState (s : State) (ch : Nat) : Nat :=
  let m := Tab.get {} s.mcs (ch / 2)
  if ch % 2 = 0 then m.ch0 else m.ch1

/-- Sets the state of a channel. -/
def setChan (s : State) (ch st : Nat) : State :=
  { s with mcs := Tab.modify {} s.mcs (ch / 2) (fun m => if ch % 2 = 0 then { m with ch0 := st } else { m with ch1 := st }) }

/-- Appends to what the module has sent. -/
def emit (s : State) (o : Out) : State := { s with out := o :: s.out }

end Sys2Proof.Machine
end

