-- ==== Sys2Proof/Machine/Transport.lean ====
section
/-!
DEFINITION. What leaves the module for a REMOTE region: Meridian packets of a connection (R334–R343) and requests to the PCIe
host (R371, R372). An operation that left is kept in `rops` until its initiator has seen its status.
-/
namespace Sys2Proof.Machine

/-- Key of the connection of a job to a peer module. -/
def connKey (job peer : Nat) : Nat := job * 16384 + peer

def State.conn (s : State) (job peer : Nat) : Conn := Tab.get {} s.nx.conns (connKey job peer)
def State.job (s : State) (k : Nat) : Job := Tab.get {} s.nx.jobs k
def State.port (s : State) (p : Nat) : Port := Tab.get {} s.nx.ports p

def setConn (s : State) (job peer : Nat) (c : Conn) : State :=
  { s with nx := { s.nx with conns := Tab.set {} s.nx.conns (connKey job peer) c } }
def setJob (s : State) (k : Nat) (j : Job) : State := { s with nx := { s.nx with jobs := Tab.set {} s.nx.jobs k j } }
def setPort (s : State) (p : Nat) (q : Port) : State := { s with nx := { s.nx with ports := Tab.set {} s.nx.ports p q } }

/-- SHIFT, WIDTH and SIZE of an axis (R334, R360). -/
def axisField (s : State) (a : Nat) : Nat × Nat × Nat :=
  let v := Tab.get 0 s.nx.axis a
  (bits v 3 0, bits v 11 8, bits v 30 16)

/-- Value of a module's field on an axis: its rank (R334). -/
def rankOf (s : State) (a m : Nat) : Nat :=
  let (sh, w, _) := axisField s a
  (m >>> sh) % 2 ^ w

/-- The axis a request to a module leaves on (R334). -/
def axisTo (s : State) (m : Nat) : Nat :=
  ((List.range 4).find? (fun a => (axisField s a).2.1 ≠ 0 && rankOf s a m ≠ rankOf s a s.cfg.moduleId)).getD 0

/-- The UP ports of an axis that carry Meridian traffic, in port order (R332, R339, R47). -/
def axisPorts (s : State) (a : Nat) : List Nat :=
  (s.cfg.ports.filter (fun p => p.axis = a && p.traffic % 2 = 1 && (s.port p.port).state = 2)).map (·.port)

/-- Bytes of a full PAYLOAD_MAX (R360). -/
def payloadMax (s : State) : Nat := match s.nx.payloadMax with | 0 => 1024 | 1 => 2048 | _ => 4096

/-- Key of a port's packet counter under a job's key (R348). -/
def nonceKey (job key : Nat) : Nat := job * 4 + key

/-- Next port of the spraying turn (R339); none when no port of the axis is UP. -/
def sprayPort (s : State) (job peer : Nat) : Option Nat :=
  match axisPorts s (axisTo s peer) with
  | [] => none
  | ps => ps[(s.conn job peer).portTurn % ps.length]?

/-! ## Job keys (R347–R349) -/

/-- Whether this module leads a job. -/
def leads (s : State) (k : Nat) : Bool := (s.job k).leader = s.cfg.moduleId

/-- The members of a job other than this module that are not fenced. -/
def others (s : State) (k : Nat) : List Nat :=
  ((s.job k).members.map (·.module)).filter (fun m => m ≠ s.cfg.moduleId && (s.conn k m).state ≠ 2)

/-- Sends a KEY_EXCH packet. Steps: 1 HELLO, 2 share, 3 job key, 4 next key, 5 acknowledgement, 6 SWITCH, 7 request of a rekey (DESIGN CHOICE,
log 25). It opens no connection. -/
def sendKey (s : State) (job peer step : Nat) : State :=
  match sprayPort s job peer with
  | none => s
  | some p => let q := s.port p; emit (setPort s p { q with tx := (q.tx + 1) % 2 ^ 32 }) (.keyExch job peer step)

/-- NONCE_SEQ starts at 0 on every port when a key is installed (R348). -/
def clearNonces (s : State) (job key : Nat) : State :=
  { s with nx := { s.nx with ports := s.nx.ports.map (fun p => (p.1, { p.2 with nonce := Tab.set 0 p.2.nonce (nonceKey job key) 0 })) } }

/-- The pending key takes over (R349): the old one is kept for 100 ms. `keyGen` tells the keys of a slot apart. -/
def switchKey (s : State) (k : Nat) : State :=
  let j := s.job k
  match j.pend with
  | none => s
  | some n =>
    let j := { j with keyId := n, keys := [j.keyId, n], pend := none, oldKeySince := some (j.keyId, s.time), keyGen := s.draws }
    clearNonces { setJob s k j with draws := s.draws + 1 } k n

/-- The leader ends a rekey: SWITCH to every member (R349). -/
def finishRekey (s : State) (k : Nat) : State :=
  let s := (others s k).foldl (fun s m => sendKey s k m 6) s
  switchKey s k

/-- The leader starts a rekey, unless one runs (R349): the next key goes to each member that is not fenced. -/
def startRekey (s : State) (k : Nat) : State :=
  let j := s.job k
  if j.state ≠ 2 || j.pend.isSome then s
  else
    let dests := others s k
    let s := setJob s k { j with pend := some ((j.keyId + 1) % 4), acks := dests }
    let s := dests.foldl (fun s m => sendKey s k m 4) s
    if dests.isEmpty then finishRekey s k else s

/-! ## Frames (R336, R337, R348) -/

/-- The `n` bytes of a number in network byte order (R9). -/
def beBytes (n v : Nat) : List Byte := (leBytes n v).reverse

/-- MAC of a port of a module: 02-5A-47, the module ID, the port (R336). -/
def portMac (module port : Nat) : Nat := 0x025A47 * 2 ^ 24 + module * 256 + port

/-- The peer's port at a port's position among its axis's ports (R336): every module of a job has the same port layout (DEDUCED, log 149). -/
def peerPort (s : State) (port : Nat) : Nat :=
  let axis := ((s.cfg.ports.find? (fun p => p.port = port)).map (·.axis)).getD 0
  let layout := (s.cfg.ports.filter (fun p => p.axis = axis)).map (·.port)
  (layout[layout.findIdx (· = port)]?).getD port

/-- The Ethernet header of a frame (R336): both MACs, the 802.1Q tag where NX_CFG has VLAN set, with its PCP and VLAN 0, and the EtherType. -/
def ethHeader (s : State) (port peer : Nat) : List Byte :=
  beBytes 6 (portMac peer (peerPort s port)) ++ beBytes 6 (portMac s.cfg.moduleId port) ++
    (if s.nx.vlan then beBytes 2 0x8100 ++ beBytes 2 (s.nx.pcp * 8192) else []) ++ beBytes 2 s.cfg.ethertype

/-- The 40-byte Meridian header (R337). -/
def nxHeader (keyId opc tag src dst port flags len psn nonce addr opid aux : Nat) : List Byte :=
  beBytes 1 (0x10 + keyId * 4) ++ beBytes 1 opc ++ beBytes 2 tag ++ beBytes 2 src ++ beBytes 2 dst ++ beBytes 1 port ++ beBytes 1 flags ++ beBytes 2 len ++
    beBytes 4 psn ++ beBytes 8 nonce ++ beBytes 8 addr ++ beBytes 4 opid ++ beBytes 2 aux ++ beBytes 2 0

/-- A Meridian frame (R336, R348): the Ethernet header, the Meridian header, the payload encrypted and the 16-byte tag. The 96-bit nonce is
SRC_MODULE, SRC_PORT, a zero byte and NONCE_SEQ. -/
def nxFrame (s : State) (port job peer nonce opc flags psn opid addr aux : Nat) (payload : List Byte) : List Byte :=
  let j := s.job job
  let hdr := nxHeader j.keyId opc j.tag s.cfg.moduleId peer port flags payload.length psn nonce addr opid aux
  let iv := s.cfg.moduleId * 2 ^ 80 + port * 2 ^ 72 + nonce
  ethHeader s port peer ++ hdr ++ (List.range (payload.length + 16)).map (Config.sealByte (job * 4 + j.keyId) j.keyGen iv hdr payload)

/-- Puts one packet on a port's wire: the port's frame and nonce counters advance (R348, R361). A port whose counter has
reached 2^62 under the key sends nothing under it, and one that reaches 2^48 calls for a rekey (R349). -/
def wire (s : State) (port job peer opc flags psn opid addr aux : Nat) (payload : List Byte) (poison : Bool := false) : State :=
  let q := s.port port
  let nk := nonceKey job (s.job job).keyId
  let n := Tab.get 0 q.nonce nk
  if n ≥ 2 ^ 62 then s
  else
    let s := setPort s port { q with tx := (q.tx + 1) % 2 ^ 32, nonce := Tab.set 0 q.nonce nk (n + 1) }
    let s := emit s (.packet job peer port opc flags psn opid addr aux payload poison (nxFrame s port job peer n opc flags psn opid addr aux payload))
    if n + 1 = 2 ^ 48 then (if leads s job then startRekey s job else sendKey s job (s.job job).leader 7) else s

/-! ## Connections -/

/-- Sends a packet that takes no PSN: TACK, KEEPALIVE, OPEN and the TIME packets (DESIGN CHOICE, log 20). -/
def sendUnnumbered (s : State) (job peer opc addr aux : Nat) (payload : List Byte) : State :=
  let c := s.conn job peer
  let s := setConn s job peer { c with portTurn := c.portTurn + 1, lastSent := s.time }
  match sprayPort s job peer with
  | none => s
  | some p => wire s p job peer opc 0 0 0 addr aux payload

/-- Whether a connection can take one more packet (R339): 1,024 unacknowledged, 16,384 connections in all. -/
def connRoom (s : State) (job peer : Nat) : Bool :=
  (s.conn job peer).unacked.length < 1024 && ((s.conn job peer).state ≠ 0 || s.nx.conns.length < 16384)

/-- Sends a numbered packet on a connection and keeps it for retransmission (R339–R341). The first packet opens the
connection. A packet that finds no UP port waits for its retransmission (port 128 stands for none). To a fenced peer, or in a job that is
not ACTIVE, nothing is sent. -/
def sendNumbered (s : State) (job peer opc flags opid addr aux slice : Nat) (payload : List Byte) (poison : Bool := false) : State :=
  let c := s.conn job peer
  if c.state = 2 || (s.job job).state ≠ 2 then s else
  let c := if c.state = 0 then { c with state := 1, lastHeard := s.time } else c
  let s := setConn s job peer c
  let port := sprayPort s job peer
  let pkt : TxPkt := { psn := c.sendPsn, opc := opc, opid := opid, addr := addr, aux := aux, flags := flags, payload := payload,
                       port := port.getD 128, sentAt := s.time, slice := slice, poison := poison }
  let s := setConn s job peer { c with sendPsn := (c.sendPsn + 1) % 2 ^ 32, unacked := c.unacked ++ [pkt], portTurn := c.portTurn + 1,
                                       lastSent := s.time }
  match port with
  | none => s
  | some p => wire s p job peer opc flags c.sendPsn opid addr aux payload poison

/-- Answers of starting a remote operation: it waits, it fails at once, or it left. -/
inductive Started where
  | wait
  | fail (status : Nat)
  | sent (s : State)
  deriving DecidableEq, Repr

/-- The contiguous runs of bytes a mask names: offset and length. -/
def maskRuns (mask : BitVec 128) : List (Nat × Nat) :=
  ((List.range 128).foldl (fun (acc : List (Nat × Nat)) i =>
    if mask.getLsbD i then
      match acc with
      | (o, n) :: r => if o + n = i then (o, n + 1) :: r else (i, 1) :: (o, n) :: r
      | [] => [(i, 1)]
    else acc) []).reverse

/-- Decodes a fabric address through its remote window (R335): module and remote address, or ACCESS_DENIED. -/
def fabricTarget (s : State) (r : Region) (pa : Nat) : Option (Nat × Nat) :=
  let w := Tab.get 0 s.nx.rwinCtl r.num
  let st := bits w 55 48
  let o := pa - r.base
  let base := (Tab.get 0 s.nx.rwinBase r.num).toNat
  let m := if st = 0 then bits w 13 0 else bits w 13 0 + (o >>> st)
  let rpa := if st = 0 then base + o else base + o % 2 ^ st
  if bit w 63 && (st = 0 || (30 ≤ st && st ≤ 45)) && m ≤ 16383 && rpa < 2 ^ 50 && m ≠ s.cfg.moduleId then some (m, rpa) else none

/-- The WRITE packets of a line write: one per contiguous run of its mask, sharing the OPID (DEDUCED, log 78). -/
def sendWrites (s : State) (job peer opid rpa slice : Nat) (data : Line) (poison : Bool) : List (Nat × Nat) → State
  | [] => s
  | [(o, n)] => sendNumbered s job peer 0x01 2 opid (rpa + o) 0 slice (sub (lineBytes data) o n) poison
  | (o, n) :: r =>
    sendWrites (sendNumbered s job peer 0x01 0 opid (rpa + o) 0 slice (sub (lineBytes data) o n) poison) job peer opid rpa slice data poison r

/-- The packet, if any, that a write of `n` bytes at remote address `rpa` joins: the transport packs consecutive writes of one command into one WRITE
(R339), up to PAYLOAD_MAX and within a 4 KiB page (R338). It is the last packet that left the module, in this same instant (DEDUCED, log 78). -/
def packInto (s : State) (tag job peer rpa n : Nat) (poison : Bool) : Option TxPkt :=
  match (s.conn job peer).unacked.getLast?, s.out with
  | some x, .packet j m _ opc _ psn _ _ _ _ _ _ :: _ =>
    if j = job && m = peer && opc = 0x01 && psn = x.psn && x.opc = 0x01 && x.flags = 2 && x.retx = 0 && x.sentAt = s.time && x.poison = poison
        && x.addr + x.payload.length = rpa && x.payload.length + n ≤ payloadMax s && x.addr % 4096 + x.payload.length + n ≤ 4096
        && s.rops.any (fun o => o.id = x.opid && o.tag = tag && o.done.isNone && o.keep)
    then some x else none
  | _, _ => none

/-- The packet grown by the bytes that join it, on the wire as in the sender's memory. -/
def growPacket (s : State) (job peer : Nat) (x : TxPkt) (bs : List Byte) : State :=
  let c := s.conn job peer
  let x := { x with payload := x.payload ++ bs }
  let n := Tab.get 0 (s.port x.port).nonce (nonceKey job (s.job job).keyId) - 1
  let s := setConn s job peer { c with unacked := c.unacked.dropLast ++ [x] }
  { s with out := .packet job peer x.port x.opc x.flags x.psn x.opid x.addr x.aux x.payload x.poison
                    (nxFrame s x.port job peer n x.opc x.flags x.psn x.opid x.addr x.aux x.payload) :: s.out.tail }

/-- AUX of an ATOMIC (R338) from a Deckle atomic opcode and ATTR (R210). -/
def atomicAux (opc attr : Nat) : Nat := (opc - 0x10 + 1) + (if attr.testBit 0 then 16 else 0) + (if attr.testBit 1 then 32 else 0)

/-- Starts a fabric operation of slice `slice` (R342): kind 0 read of a line, 1 write of the masked bytes, 2 atomic with
Deckle opcode `opc`. -/
def startFabric (s : State) (tag slice kind : Nat) (r : Region) (pa opc attr op0 op1 : Nat) (data : Line) (mask : BitVec 128)
    (keep poison : Bool) : Started :=
  if (s.job slice).state ≠ 2 then .fail 1
  else match fabricTarget s r pa with
  | none => .fail 1
  | some (m, rpa) =>
    if (s.conn slice m).state = 2 then .fail 5
    else if s.rops.length ≥ 65536 || !connRoom s slice m then .wait
    else
      let opid := s.nx.nextOpid % 2 ^ 32
      let runs := maskRuns mask
      let op : ROp := { id := opid, tag := tag, target := .fabric slice m rpa, kind := kind, addr := pa, len := 128, line := pa / 128,
                        data := data, mask := mask, packets := if kind = 1 then runs.length else 1, keep := keep, poison := poison }
      let joins := match kind, keep, runs with
        | 1, true, [(o, n)] => (packInto s tag slice m (rpa + o) n poison).map (fun x => (x, sub (lineBytes data) o n))
        | _, _, _ => none
      let op := { op with within := joins.map (·.1.opid) }
      let s := { s with rops := s.rops ++ [op], nx := { s.nx with nextOpid := s.nx.nextOpid + 1 } }
      .sent (match kind with
        | 0 => sendNumbered s slice m 0x02 2 opid rpa 128 slice []
        | 1 => (match joins with
          | some (x, bs) => growPacket s slice m x bs
          | none => sendWrites s slice m opid rpa slice data poison runs)
        | _ => sendNumbered s slice m 0x04 2 opid rpa (atomicAux opc attr) slice (leBytes 8 op0 ++ leBytes 8 op1))

/-- Requests to the host that await an answer (R365). -/
def hostReads (s : State) : Nat := (s.rops.filter (fun o => o.kind ≠ 1 && (match o.target with | .host _ _ => true | _ => false))).length

/-- The TLPs of an operation to the host at a bus address: one write for each run of its mask (R371). -/
def sendTlps (s : State) (o : ROp) (bus : Nat) : State :=
  match o.target with
  | .host _ pasid =>
    (match o.kind with
      | 1 => (maskRuns o.mask).foldl (fun s p => emit s (.tlp o.id 1 (bus + p.1) pasid p.2 (sub (lineBytes o.data) p.1 p.2) o.poison)) s
      | k => emit s (.tlp o.id k bus pasid o.len o.extra))
  | _ => s

/-- Starts a request to the PCIe host (R371): kind as `startFabric`. Where the window has ATS set and the page is not held, its
translation is asked for first (DEDUCED, log 131). -/
def startHost (s : State) (tag kind : Nat) (r : Region) (pa opc attr op0 op1 : Nat) (data : Line) (mask : BitVec 128)
    (keep poison : Bool) : Started :=
  let w := Tab.get 0 s.pcie.hwin r.num
  if !s.pcie.dlUp || s.pcie.flrBusy then .fail 6
  else if !bit w 0 then .fail 1
  else if linkBusy s || hostReads s ≥ 768 then .wait
  else
    let bus := (bits w 63 12) * 4096 + (pa - r.base)
    let pasid := if bit w 1 then some (bits (Tab.get 0 s.pcie.hwinPasid r.num) 19 0) else none
    let op : ROp :=
      { id := s.nx.nextOpid % 2 ^ 32, tag := tag, target := .host bus pasid, kind := kind, addr := pa, line := pa / 128, data := data, mask := mask, sentAt := s.time,
        len := if kind = 2 then (if attr.testBit 0 then 8 else 4) else 128, signed := kind = 2 && attr % 4 = 0, keep := keep, poison := poison,
        extra := if kind = 2 then leBytes 8 op0 ++ leBytes 8 op1 ++ [BitVec.ofNat 8 opc] else [] }
    let push := fun (o : ROp) => { s with rops := if o.keep || o.done = none then s.rops ++ [o] else s.rops,
                                          nx := { s.nx with nextOpid := s.nx.nextOpid + 1 } }
    let go := fun (b : Nat) =>
      let o := { op with target := .host b pasid, done := if kind = 1 then some 0 else none }
      sendTlps (push o) o b
    if bit w 2 then
      match s.pcie.ats.find? (fun e => e.window = r.num && e.page = bus / 4096) with
      | some e => .sent (go (e.translated * 4096 + bus % 4096))
      | none =>
        let o := { op with kind := 4, after := kind }
        .sent (emit (push o) (.tlp o.id 4 bus pasid 8 []))
    else .sent (go bus)

/-- Starts an operation of a REMOTE region, by its TARGET (R41). -/
def startRemote (s : State) (tag slice kind : Nat) (r : Region) (pa opc attr op0 op1 : Nat) (data : Line) (mask : BitVec 128)
    (keep : Bool) (poison : Bool := false) : Started :=
  if r.target = 1 then startHost s tag kind r pa opc attr op0 op1 data mask keep poison
  else startFabric s tag slice kind r pa opc attr op0 op1 data mask keep poison

/-- Removes one operation. -/
def dropRop (s : State) (id : Nat) : State := { s with rops := s.rops.filter (fun o => o.id ≠ id) }

/-- The first status other than OK among the complete operations of an initiator, if any. -/
def ropFailure (s : State) (tag : Nat) : Option Nat :=
  (s.rops.filter (fun o => o.tag = tag)).findSome? (fun o => match o.done with | some 0 => none | some st => some st | none => none)

/-- Whether an initiator has an operation that is not complete. -/
def ropWaiting (s : State) (tag : Nat) : Bool := s.rops.any (fun o => o.tag = tag && o.done = none)

/-- Whether a transaction at a home waits for an operation that left the module. -/
def ropAwaited (s : State) (id : Nat) : Bool := s.txns.any (fun t => t.stage = .remote && t.rop = some id)

/-- Forgets an initiator's complete operations; its open ones complete unseen, but for those a transaction waits for. -/
def dropRops (s : State) (tag : Nat) : State :=
  let mine := fun (o : ROp) => o.tag = tag && !ropAwaited s o.id
  { s with rops := (s.rops.filter (fun o => !mine o || o.done = none)).map (fun o => if mine o then { o with keep := false } else o) }

/-- Notes that a line which engines wrote into the array could not reach its owner (R252), for every engine that waits for it. -/
def oweFailure (s : State) (line status : Nat) : State :=
  { s with lla := { s.lla with owedFail := ((s.lla.owed.filter (fun p => p.2 = line)).map (fun p => (p.1, status))) ++ s.lla.owedFail } }

/-- Completes an operation with a status: kept for its initiator, or forgotten if nobody waits for it. -/
def finishRop (s : State) (id status : Nat) (data : Option Line) : State :=
  let s := match s.rops.find? (fun o => o.id = id && o.done = none && o.kind = 1) with
    | some o => if status = 0 then s else oweFailure s o.line status
    | none => s
  { s with rops := (s.rops.map (fun o => if o.id = id && o.done = none then { o with done := some status, data := data.getD o.data } else o)).filter
             (fun o => o.keep || o.done = none) }

/-- Completes a write with those that share its packet (R339, R342). -/
def finishPacket (s : State) (o : ROp) (status : Nat) : State :=
  ((s.rops.filter (fun x => x.within = some o.id && x.done.isNone)).map (·.id)).foldl (fun s i => finishRop s i status none)
    (finishRop s o.id status none)

end Sys2Proof.Machine
end

