-- ==== Sys2Proof/Machine/Noc.lean ====
section
/-!
DEFINITION. Slotted flows, regulators, controller queues and counters of the on-die network (R261–R278): how a request is charged at its
meter, and what one 32 ns period does.
-/
namespace Sys2Proof.Machine

def State.regulator (s : State) (n : Nat) : Regulator := Tab.get {} s.noc.regs n
def setRegulator (s : State) (n : Nat) (r : Regulator) : State := { s with noc := { s.noc with regs := Tab.set {} s.noc.regs n r } }

/-- WEIGHT_MAX and GUAR_MAX of a regulator: its REGULATORS record, or 1 and 0 (R276). -/
def regMax (s : State) (n : Nat) : Nat × Nat :=
  match s.cfg.regs.find? (fun r => r.reg = n) with
  | some r => (r.weightMax, r.guarMax)
  | none => (1, 0)

/-- The regulators STRICT mode gives a rate: of defined slices, the five groups and HOST (R272). -/
def strictSet (s : State) : List Nat := s.cfg.slices.map (·.slice) ++ [64, 65, 66, 67, 68, 69]

/-- F_n of R272 for a GUAR and WEIGHT, in whole GB/s (rounded down, log 21). -/
def fixedFor (s : State) (n guar weight : Nat) : Nat :=
  let set := strictSet s
  if !set.contains n then 0
  else
    let guars := (set.map (fun m => (regMax s m).2)).sum
    let weights := (set.map (fun m => (regMax s m).1)).sum
    guar + weight * (22000 - guars) / (if weights = 0 then 1 else weights)

/-- F_n of a regulator at its present rate. -/
def fixedRate (s : State) (n : Nat) : Nat := fixedFor s n (s.regulator n).guar (s.regulator n).weight

/-! ## Where a request enters the mesh (R14, R264) -/

/-- The meter a request passes: a Deckle port (0–7), a copy engine (8–55), a Calender engine (56–63), a collective engine (64, 65), fabric ingress (66),
PCIe ingress and the management port (67), the GTU walkers (68), or the maintenance engine of home slice j (69 + j). -/
def meterOf (s : State) (t : Txn) : Nat :=
  match t.src with
  | .agent k _ => k
  | _ =>
    if t.ini < 144 then ((s.glb.logical[t.ini]?).getD 0) / 24
    else if t.ini < 202 then t.ini - 136
    else if t.ini = 204 || t.reg = 64 then 66
    else if t.ini = 205 || t.reg = 65 then 67
    else if t.ini = 206 then 68
    else 69 + (s.cfg.locate t.addr).home.1

/-- Columns and rows of a field (R14): first column, columns, first row, rows. -/
def fieldSpan : Nat → Nat × Nat × Nat × Nat
  | 0 => (0, 5, 0, 6)
  | 1 => (5, 6, 0, 6)
  | 2 => (11, 5, 0, 6)
  | 3 => (0, 5, 6, 6)
  | 4 => (5, 6, 6, 6)
  | _ => (11, 5, 6, 6)

/-- The field of a home slice (R14). -/
def homeField (j : Nat) : Nat := if j < 4 then 0 else if j < 12 then 1 else if j < 16 then 2 else if j < 20 then 3 else if j < 28 then 4 else 5

/-- Columns and rows in which R14 places a meter: a host site spans two fields, and fabric ingress lies with the SerDes, for which R14 names four. -/
def meterSpan (m : Nat) : Nat × Nat × Nat × Nat :=
  if m < 6 then fieldSpan m
  else if m = 6 then (0, 5, 0, 12)
  else if m = 7 then (11, 5, 0, 12)
  else if m < 56 then fieldSpan (if m < 32 then 1 else 4)
  else if m < 64 then fieldSpan ((([0, 1, 1, 2, 3, 4, 4, 5] : List Nat)[m - 56]?).getD 0)
  else if m = 64 then fieldSpan 1
  else if m = 65 then fieldSpan 4
  else if m = 66 then (0, 16, 0, 12)
  else if m = 67 then fieldSpan 3
  else if m = 68 then (5, 6, 0, 12)
  else fieldSpan (homeField (m - 69))

/-- The router of a block within its span (log 143). -/
def routerAt (block : Nat) (span : Nat × Nat × Nat × Nat) : Nat × Nat :=
  (span.1 + Config.meshPlace (2 * block) % span.2.1, span.2.2.1 + Config.meshPlace (2 * block + 1) % span.2.2.2)

/-- Router of a meter, and of a home slice. A walk's read enters at the router of the walker that makes it. -/
def meterRouter (m id : Nat) : Nat × Nat := routerAt (if m = 68 then 1024 + id else m) (meterSpan m)
def homeRouter (j : Nat) : Nat × Nat := routerAt (69 + j) (fieldSpan (homeField j))

/-- SLICE of a request's flit (R255). -/
def flitSlice (t : Txn) : Nat := if t.reg < 64 then t.reg else 0x3F

/-- Whether a slotted flow carries a request (R261): it matches one of the REQ network by source and destination router and SLICE. -/
def slotted (s : State) (t : Txn) : Bool :=
  s.cfg.flows.any (fun f => f.net = 0 && (if f.slice = 0xFF then 0x3F else f.slice) = flitSlice t &&
    meterRouter (meterOf s t) t.id = (f.srcCol, f.srcRow) && homeRouter (s.cfg.locate t.addr).home.1 = (f.dstCol, f.dstRow))

/-! ## Counters (R277, R278) -/

/-- Bucket of a latency in ns (R277). -/
def latBucket (ns : Nat) : Nat :=
  if ns < 64 then 0 else if ns < 128 then 1 else if ns < 256 then 2 else if ns < 512 then 3 else if ns < 1024 then 4
  else if ns < 2048 then 5 else if ns < 4096 then 6 else 7

/-- The slice in whose tenant view an initiator's requests count: tile movers and copy engines alone (R278). -/
def viewSlice (ini : Nat) (slice : Option Nat) : Option Nat := if ini < 192 then slice else none

/-- Counts a request an initiator presents (R277, R278). -/
def countRequest (s : State) (ini : Nat) (slice : Option Nat) : State :=
  if ini ≥ 208 then s
  else
    let c : IniCnt := Tab.get {} s.noc.ini ini
    let s := { s with noc := { s.noc with ini := Tab.set {} s.noc.ini ini { c with bytes := c.bytes + 128, reqs := c.reqs + 1 } } }
    match viewSlice ini slice with
    | some sl =>
      let v : Tv := Tab.get {} s.noc.tv sl
      let v := { v with tm := if ini < 144 then v.tm + 128 else v.tm, q := if ini < 144 then v.q else v.q + 128 }
      { s with noc := { s.noc with tv := Tab.set {} s.noc.tv sl v } }
    | none => s

/-- Counts the latency of a request (R277, R278). -/
def countLatency (s : State) (ini : Nat) (slice : Option Nat) (ns : Nat) : State :=
  if ini ≥ 208 then s
  else
    let b := latBucket ns
    let s := { s with noc := { s.noc with ini := Tab.modify {} s.noc.ini ini (fun c => { c with hist := Tab.modify 0 c.hist b (· + 1) }) } }
    match viewSlice ini slice with
    | some sl => { s with noc := { s.noc with tv := Tab.modify {} s.noc.tv sl (fun v => { v with hist := Tab.modify 0 v.hist b (· + 1) }) } }
    | none => s

/-! ## Meters (R264–R268, R272, R273) -/

/-- The tag under which a source's remote operations and meter waits run. -/
def Src.tag : Src → Nat
  | .agent k txn => 0x1000000 + k * 65536 + txn
  | .engine tag => tag
  | .posted why => 0x2000000 + why
  | .recall _ => 0x60000
  | .host => 0x3000000
  | .fabric job peer _ psn => 0x4000000 + (job * 16384 + peer) * 4294967296 + psn

/-- SVC and deadline with which a request enters: real-time initiators stamp a deadline from its arrival at the meter (R268), others enter with
SVC 1 if they took a guaranteed token (R265, R267). -/
def entrySvc (t : Txn) (token : Bool) : Nat × Nat :=
  if t.reg = 64 then (2, (t.arrival + 4000) % 2 ^ 20)
  else if t.reg = 65 || t.reg = 67 then (2, (t.arrival + 8000) % 2 ^ 20)
  else (if token then 1 else 0, 0)

/-- Whether a channel's queue, which holds 64 (R266), has room. -/
def mcRoom (s : State) (ch : Nat) : Bool := (s.noc.mcq.filter (fun p => p.ch = ch)).length < 64

/-- Puts a request in its channel's queue (R266). -/
def mcPush (s : State) (q : McReq) : State := { s with noc := { s.noc with mcq := s.noc.mcq ++ [q], lastReq := Tab.set 0 s.noc.lastReq q.ch s.time } }

/-- A transaction as a request at a channel: a slotted one is charged to none (R263). -/
def Txn.mcReq (t : Txn) (ch ca : Nat) : McReq :=
  { ch := ch, ca := ca, reg := if t.slot then 127 else t.reg, svc := t.svc, arrival := t.arrival % 2 ^ 20, deadline := t.deadline }

/-- The time after its meter at which a slice's response is delivered in STRICT mode (R273): 250 ns for a line a LOCKED or SCRATCH way serves,
600 ns for HBM, none for a REMOTE region. -/
def padNs (s : State) (pa : Nat) : Nat :=
  match s.cfg.locate pa with
  | .scratch _ _ _ => 250
  | .hbm _ ch ca =>
    let j := ch / 8
    let plan := Tab.get {} s.cfg.lla j
    if (List.range 16).any (fun w => bits plan.modes (2 * w + 1) (2 * w) = 1 &&
        (let l := Tab.get {} s.lla.lines ((j * 16384 + llaSet ch ca) * 16 + w); l.valid && l.tag = pa / 128)) then 250 else 600
  | _ => 0

/-- A request leaves its meter with SVC and DEADLINE: charged, unless a slotted flow carries it, and padded in STRICT mode (R263, R264, R273). Its
latency counts at the end of its pad, or else as a free value (R277, log 2). -/
def slotIn (s : State) (t : Txn) (tag svc deadline : Nat) : State × Txn :=
  let r := s.regulator t.reg
  let s := if t.reg < 70 && !t.slot then setRegulator s t.reg { r with lines := r.lines + 1 } else s
  let s := { s with noc := { s.noc with meters := s.noc.meters.filter (fun m => m.tag ≠ t.id) } }
  let pad := padNs s t.addr
  let s := if s.cfg.strict && t.reg < 64 && !t.slot && pad > 0 then
      { s with noc := { s.noc with pads := s.noc.pads ++
        [{ slice := t.reg, tag := tag, due := s.time + pad, arrival := t.arrival, ini := t.ini, view := t.slice }] } }
    else { countLatency s t.ini t.slice (Config.latency s.draws) with draws := s.draws + 1 }
  (s, { t with charged := true, svc := svc, deadline := deadline })

/-- A request waits at its meter (R267, R270). -/
def holdAtMeter (s : State) (t : Txn) : State :=
  if s.noc.meters.any (fun m => m.tag = t.id) then s
  else
    let s := setRegulator s t.reg { s.regulator t.reg with held := true }
    { s with noc := { s.noc with meters := s.noc.meters ++ [{ reg := t.reg, tag := t.id, arrival := t.arrival % 2 ^ 20, meter := meterOf s t }] } }

/-- Whether a meter has a guaranteed token of a regulator left (R265). -/
def Regulator.has (r : Regulator) (m : Nat) : Bool :=
  r.tokens ≥ 4 && (match r.shares with | none => true | some t => Tab.get 0 t m ≥ 4)

/-- A meter takes a guaranteed token. -/
def Regulator.take (r : Regulator) (m : Nat) : Regulator :=
  { r with tokens := r.tokens - 4, shares := r.shares.map (fun t => Tab.modify 0 t m (fun v => v - 4)) }

/-- A request reaches its meter: it is counted as presented, and reported as demand of its regulator unless a slotted flow carries it. -/
def reachMeter (s : State) (t : Txn) : State × Txn :=
  if t.arrived then (s, t)
  else
    let slot := slotted s t
    let s := countRequest s t.ini t.slice
    let r := s.regulator t.reg
    let s := if t.reg < 70 && !slot then
        setRegulator s t.reg { r with demand := r.demand + 1, demands := Tab.modify 0 r.demands (meterOf s t) (· + 1) }
      else s
    (s, { t with arrived := true, arrival := s.time, slot := slot })

/-- A request at its meter (R264–R268, R272): the state after and the transaction, charged if it passed. An address that is not there is not
charged. In the safe state every meter blocks (R280). -/
def charge (s : State) (t : Txn) : State × Txn :=
  if s.fcu.safe then (s, t)
  else if s.cfg.locate t.addr = .unmapped then (s, { t with charged := true })
  else
    let (s, t) := reachMeter s t
    let tag := t.src.tag
    if t.slot then slotIn s t tag 2 ((t.arrival + 1000) % 2 ^ 20)
    else if t.reg ≥ 70 then slotIn s t tag 0 0
    else
      let r := s.regulator t.reg
      let m := meterOf s t
      if s.noc.meters.any (fun q => q.tag = t.id && q.released) then
        if r.tokens ≥ 4 then slotIn (setRegulator s t.reg (r.take m)) t tag 2 ((s.time + 2000) % 2 ^ 20) else slotIn s t tag 3 0
      else if r.has m then
        let e := entrySvc t true
        slotIn (setRegulator s t.reg (r.take m)) t tag e.1 e.2
      else
        let e := entrySvc t false
        if !s.cfg.strict && !s.noc.throttled then slotIn s t tag e.1 e.2
        else if !s.cfg.strict && r.remainder ≥ 4 then slotIn (setRegulator s t.reg { r with remainder := r.remainder - 4 }) t tag e.1 e.2
        else (holdAtMeter s t, t)

/-- Lines of maintenance traffic a regulator admits now, of `n` (R165, R264, R267): all while the module is not throttled, else those it has tokens
for. -/
def admitLines (s : State) (reg n : Nat) : Nat :=
  if reg ≥ 70 || (!s.cfg.strict && !s.noc.throttled) then n
  else
    let r := s.regulator reg
    min n ((r.tokens.toNat / 4) + (if s.cfg.strict then 0 else r.remainder.toNat / 4))

/-- Charges `n` admitted lines of maintenance traffic (R165, R264): guaranteed tokens first, then the remainder. -/
def chargeLines (s : State) (reg n : Nat) : State :=
  if reg ≥ 70 || n = 0 then s
  else
    let r := s.regulator reg
    let g := min n (r.tokens.toNat / 4)
    let rest : Int := if s.noc.throttled && !s.cfg.strict then 4 * ((n - g : Nat) : Int) else 0
    setRegulator s reg { r with lines := r.lines + n, demand := r.demand + n, tokens := r.tokens - 4 * (g : Int), remainder := max 0 (r.remainder - rest) }

/-! ## The channels (R269, R175) -/

/-- Signed 20-bit slack of a deadline request (R269). -/
def slack (s : State) (q : McReq) : Int := toSigned 20 ((q.deadline + 2 ^ 20 - s.time % 2 ^ 20) % 2 ^ 20)

/-- The place of a deadline request in earliest-deadline-first order: one marked late lies before TIME, whatever its slack reads by now. -/
def edfKey (s : State) (q : McReq) : Int := let k := slack s q; if q.late && decide (k ≥ 0) then k - 2 ^ 20 else k

/-- The first request with the least key. -/
def firstLeast (f : McReq → Int) : List McReq → Option McReq
  | [] => none
  | q :: r => match firstLeast f r with
    | none => some q
    | some b => if f q ≤ f b then some q else some b

/-- Key of a request's bank in `openRows`. -/
def McReq.bank (q : McReq) : Nat := q.ch * 4294967296 + Config.dramBank q.ca % 4294967296

/-- Whether a request hits the row open in its bank. -/
def rowHit (s : State) (q : McReq) : Bool := Tab.get none s.noc.openRows q.bank = some (Config.dramRow q.ca)

/-- The request a channel serves next (R269): a deadline request that is late or short of slack, earliest deadline first; else a row hit; else the
oldest. SVC 3 is served only by the floor (R271). -/
def nextServed (s : State) (qs : List McReq) : Option McReq :=
  (firstLeast (edfKey s) (qs.filter (fun q => q.svc = 2 && (q.late || decide (slack s q < s.cfg.slackNs))))).orElse (fun _ =>
    let rest := qs.filter (fun q => q.svc ≠ 3)
    (rest.find? (rowHit s)).orElse (fun _ => rest.head?))

/-- Lines a regulator may still be served of a hot stack's capacity; none bounds nothing. -/
abbrev Allow := Option (Tab Nat)
def Allow.ok (a : Allow) (q : McReq) : Bool := match a with | none => true | some t => q.reg ≥ 70 || Tab.get 0 t q.reg > 0
def Allow.use (a : Allow) (q : McReq) : Allow := a.map (fun t => Tab.modify 0 t q.reg (· - 1))

/-- A channel serves up to `n` requests of its queue. -/
def serveChan : Nat → State → Allow → Nat → State × Allow
  | 0, s, a, _ => (s, a)
  | n + 1, s, a, ch =>
    match nextServed s (s.noc.mcq.filter (fun q => q.ch = ch && a.ok q)) with
    | none => (s, a)
    | some q =>
      let noc := { s.noc with mcq := s.noc.mcq.erase q, openRows := Tab.set none s.noc.openRows q.bank (some (Config.dramRow q.ca)),
                              lastReq := Tab.set 0 s.noc.lastReq ch s.time }
      serveChan n { s with noc := noc } (a.use q) ch

/-- What a channel serves in one 32 ns period: 96 GB/s, halved or quartered while its stack is HOT or CRITICAL (R174). -/
def chanLines (s : State) (ch : Nat) : Nat :=
  match (Tab.get {} s.hstacks (ch / 32)).therm with
  | 2 => 12
  | 3 => 6
  | _ => 24

/-- Divides `rest` among those with unmet demand by weight, giving none more than its demand (R267). Each entry is number, weight, unmet demand. -/
def divideRest : Nat → Nat → List (Nat × Nat × Nat) → List (Nat × Nat)
  | 0, _, _ => []
  | fuel + 1, rest, ds =>
    let w := (ds.map (fun d => d.2.1)).sum
    if w = 0 then []
    else
      let full := ds.filter (fun d => rest * d.2.1 / w ≥ d.2.2)
      if full.isEmpty then ds.map (fun d => (d.1, rest * d.2.1 / w))
      else full.map (fun d => (d.1, d.2.2)) ++
        divideRest fuel (rest - (full.map (fun d => d.2.2)).sum) (ds.filter (fun d => !(rest * d.2.1 / w ≥ d.2.2)))

/-- What a division gives one of its parties. -/
def part (l : List (Nat × Nat)) (n : Nat) : Nat := ((l.find? (fun p => p.1 = n)).map (·.2)).getD 0

/-- The division of a HOT or CRITICAL stack's capacity in a period (R175): among the regulators with traffic there by their guaranteed rates, and the
remainder by weight. Traffic of no regulator is not bounded by it (DESIGN CHOICE, log 145). -/
def stackAllow (s : State) (k : Nat) : Allow :=
  if (Tab.get ({} : Stack) s.hstacks k).therm < 2 then none
  else
    let here := s.noc.mcq.filter (fun q => q.ch / 32 = k && q.svc ≠ 3)
    let cap := ((List.range 32).filter (fun i => chanState s (32 * k + i) = 1)).length * chanLines s (32 * k) - (here.filter (fun q => q.reg ≥ 70)).length
    let want := ((List.range 70).map (fun n => (n, (here.filter (fun q => q.reg = n)).length))).filter (fun p => p.2 > 0)
    let first := divideRest 70 cap (want.map (fun p => (p.1, (s.regulator p.1).guar, p.2)))
    let rest := cap - (first.map (·.2)).sum
    let second := divideRest 70 rest (want.map (fun p => (p.1, (s.regulator p.1).weight, p.2 - part first p.1)))
    some (want.foldl (fun t p => Tab.set 0 t p.1 (part first p.1 + part second p.1)) [])

/-- The channels' queues after one period: each channel in service with requests queued serves. -/
def drainQueues (s : State) : State :=
  (List.range 8).foldl (fun s k =>
    let chs := ((s.noc.mcq.map (·.ch)).filter (fun c => c / 32 = k && chanState s c = 1)).eraseDups
    (chs.foldl (fun (x : State × Allow) ch => serveChan (chanLines x.1 ch) x.1 x.2 ch) (s, stackAllow s k)).1) s

/-- QL of a controller (R266). -/
def queueLevel (s : State) (i : Nat) : Nat :=
  let n := fun ch => (s.noc.mcq.filter (fun q => q.ch = ch)).length
  min 7 (max (n (2 * i)) (n (2 * i + 1)) / 8)

/-- Queue levels are reported, and the module becomes or ceases to be throttled (R266). -/
def reportLevels (s : State) : State :=
  let qls := (List.range 128).map (fun i => queueLevel s i)
  let s := { s with mcs := (List.range 128).foldl (fun t i => Tab.modify {} t i (fun m => { m with ql := qls.getD i 0 })) s.mcs }
  let top := qls.foldl max 0
  let hot := top ≥ s.cfg.throttleLevel
  let clean := if hot then 0 else s.noc.clean + 1
  { s with noc := { s.noc with maxQl := top, throttleNs := if s.noc.throttled then s.noc.throttleNs + 32 else s.noc.throttleNs,
                               clean := min clean 4, throttled := if hot then true else if clean ≥ 4 then false else s.noc.throttled } }

/-! ## A period (R265–R267, R272) -/

/-- Tokens of a regulator at the start of a period (R265, R272), after an accepted rate takes effect (R276) (DEDUCED, log 97). -/
def earn (s : State) (n : Nat) (r : Regulator) : Regulator :=
  let r := match r.next with
    | some (w, g) => { r with weight := w, guar := g, next := none }
    | none => r
  let tokens : Int :=
    if s.cfg.strict then (fixedFor s n r.guar r.weight : Int) + (if r.tokens ≥ 4 then r.tokens % 4 else r.tokens)
    else min (r.tokens + r.guar) (4 * r.guar)
  { r with tokens := tokens, remainder := 0 }

/-- The division of a regulator's tokens among its meters, in whole lines, by the demand each reported in the period before; lines that the division
leaves over go to the first of them (R265) (DESIGN CHOICE, log 146). -/
def divideTokens (s : State) (n : Nat) (r : Regulator) : Regulator :=
  let waiting := fun m => (s.noc.meters.filter (fun q => q.reg = n && q.meter = m)).length
  let ds := ((List.range 101).map (fun m => (m, max (Tab.get 0 r.demands m) (waiting m)))).filter (fun p => p.2 > 0)
  let total := (ds.map (·.2)).sum
  let lines := r.tokens.toNat / 4
  let share := fun (d : Nat) => lines * d / total
  let surplus := lines - (ds.map (fun p => share p.2)).sum
  { r with demands := [],
           shares := match ds with
             | [] => none
             | (m0, _) :: _ => some (ds.foldl (fun t p => Tab.set 0 t p.1 (4 * ((share p.2 + (if p.1 = m0 then surplus else 0) : Nat) : Int))) []) }

/-- One period of 64 CLK_NOC cycles (R265–R272): queues drain, levels are reported, tokens are earned and divided among the meters, and while throttled
the remainder is divided among the regulators whose demand exceeds their tokens (DEDUCED, log 91). -/
def periodStep (s : State) : State :=
  let s := reportLevels (drainQueues s)
  let ns := List.range 70
  let regs := ns.map (fun n => (n, divideTokens s n (earn s n (s.regulator n))))
  let demand := fun (n : Nat) (r : Regulator) => 4 * max r.demand (s.noc.meters.filter (fun m => m.reg = n)).length
  let used := (regs.map (fun p => min (demand p.1 p.2) p.2.tokens.toNat)).sum
  let unmet := regs.filterMap (fun p =>
    let d := demand p.1 p.2
    if d > p.2.tokens.toNat then some (p.1, p.2.weight, d - p.2.tokens.toNat) else none)
  let share := if s.cfg.strict || !s.noc.throttled then [] else divideRest 70 (22000 - used) unmet
  let regs := regs.map (fun p => (p.1, { p.2 with
    remainder := (part share p.1 : Int), demand := 0, held := s.noc.meters.any (fun m => m.reg = p.1) }))
  let ex := regs.foldl (fun m p => if p.2.tokens ≤ 0 then m ||| 2 ^ p.1 else m) 0
  { s with noc := { s.noc with regs := regs.foldl (fun t p => Tab.set {} t p.1 p.2) s.noc.regs, exhausted := BitVec.ofNat 70 ex } }

end Sys2Proof.Machine
end

