-- ==== Sys2Proof/Machine/Home.lean ====
section
/-!
DEFINITION. The home slices (R155–R160, R169, R170, R214–R223, R235, R454): region and scratch checks, the last-level array, the
directory, and the transactions of a line in their order of arrival.
-/
namespace Sys2Proof.Machine

/-! ## Checks at the home -/

def State.quarOf (s : State) (page : Nat) : Option (Nat × Quar) :=
  (s.fcu.quar.find? (fun p => match p.2 with | some q => q.page = page | none => false)).bind (fun p => p.2.map (fun q => (p.1, q)))

/-- Whether an opcode of R210 reads only. -/
def isRead (opc : Nat) : Bool := opc = 1 || opc = 2 || opc = 3 || opc = 4

/-- Region masks (R154, R155): SHARED_RO lets only the OWNER write. -/
def maskAllows (r : Region) (slice : Nat) (write : Bool) : Bool :=
  if write then (if r.sharedRo then r.owner = slice else r.writeMask.getLsbD slice) else r.readMask.getLsbD slice

/-- Owner of a way (R157, R160): the byte of the LLA plan. -/
def wayOwner (s : State) (j w : Nat) : Nat := bits (Tab.get {} s.cfg.lla j).owners (8 * w + 7) (8 * w)

/-- Mode of a way: 0 CACHE, 1 LOCKED, 2 SCRATCH. -/
def wayMode (s : State) (j w : Nat) : Nat := bits (Tab.get {} s.cfg.lla j).modes (2 * w + 1) (2 * w)

/-- The status with which the home refuses a request at once, if it does (R149, R155, R160, R173). Requests of no slice are the hub's own or
checked elsewhere: those of an H-site passed the filter (R203). Writebacks pass (DEDUCED, log 94). -/
def refusal (s : State) (t : Txn) : Option Nat :=
  let byMask := fun (r : Region) => match t.slice with
    | some sl =>
      let rd := isRead t.opc || t.opc ≥ 0x10
      let wr := !isRead t.opc || t.opc = 2 || t.opc = 3
      if (!rd || maskAllows r sl false) && (!wr || maskAllows r sl true) then none else some 1
    | none => none
  match s.cfg.locate t.addr with
  | .unmapped => some 1
  | .scratch j w _ =>
    if wayMode s j w ≠ 2 then some 1
    else match t.slice with
      | some sl => if t.opc = 7 || wayOwner s j w = sl then none else some 1
      | none => none
  | .hbm r ch _ => if t.opc = 7 then none else (byMask r).orElse (fun _ => if chanState s ch = 3 then some 4 else none)
  | .remote r _ _ => if t.opc = 7 then none else byMask r

/-! ## The array -/

def llaKey (j st w : Nat) : Nat := (j * 16384 + st) * 16 + w
def State.way (s : State) (j st w : Nat) : LlaLine := Tab.get {} s.lla.lines (llaKey j st w)
def setWay (s : State) (j st w : Nat) (l : LlaLine) : State := { s with lla := { s.lla with lines := Tab.set {} s.lla.lines (llaKey j st w) l } }
def State.home (s : State) (j : Nat) : HomeSlice := Tab.get {} s.lla.slices j
def setHome (s : State) (j : Nat) (h : HomeSlice) : State := { s with lla := { s.lla with slices := Tab.set {} s.lla.slices j h } }

/-- The array serves while ENABLED and while DISABLING (R156, R167). -/
def llaOn (s : State) : Bool := s.lla.state = 1 || s.lla.state = 2

/-- The way that holds a line, SCRATCH ways left out (R156, R157). -/
def lookup (s : State) (j st line : Nat) : Option Nat :=
  (List.range 16).find? (fun w => wayMode s j w ≠ 2 && (let l := s.way j st w; l.valid && l.tag = line))

/-- x¹⁶ + x¹⁴ + x¹³ + x¹¹ + 1 in Fibonacci form (R158): the register shifts right and the feedback enters bit 15 (DEDUCED, log 14). -/
def lfsrNext (v : BitVec 16) : BitVec 16 :=
  let b := (v ^^^ (v >>> 2) ^^^ (v >>> 3) ^^^ (v >>> 5)) &&& 1
  (v >>> 1) ||| (b <<< 15)

/-- Ways free for allocation: in CACHE mode and in service. -/
def cacheWays (s : State) (j : Nat) : List Nat :=
  (List.range 16).filter (fun w => wayMode s j w = 0 && !(s.home j).waysOut.getLsbD w)

/-- The victim of an allocation (R158): the state with the LFSR advanced where it was read, and the way. -/
def victim (s : State) (j st : Nat) : Option (State × Nat) :=
  match cacheWays s j with
  | [] => none
  | ws@(w0 :: _) =>
    match ws.find? (fun w => !(s.way j st w).valid) with
    | some w => some (s, w)
    | none =>
      let h := s.home j
      let low := h.lfsr.toNat % 16
      some (setHome s j { h with lfsr := lfsrNext h.lfsr }, (ws.find? (fun w => w ≥ low)).getD w0)

/-- A line that maintenance or a writeback brings takes a place in its channel's queue; a line of maintenance that finds none waits outside it
(DESIGN CHOICE, log 153). -/
def maintOffer (s : State) (reg ch ca : Nat) : State :=
  if mcRoom s ch then mcPush s { ch := ch, ca := ca, reg := reg, svc := 0, arrival := s.time % 2 ^ 20, deadline := 0 } else s

/-- Writes one dirty line to memory or to its owner, with its poison (R170): the state and the status it met; none while that cannot be done now. A
line on a channel out of service, on a peer lost or in no region any more is lost. `slice` is whose job carries a remote line, the region's owner's
where it is none. A line on its way to its owner is an operation of `tag`, or of the engine that waits for it (R234) (DEDUCED, log 95). -/
def writeBackFor (s : State) (tag : Nat) (keep : Bool) (j slice reg : Nat) (l : LlaLine) : Option (State × Nat) :=
  let s := setHome s j { s.home j with writebacks := (s.home j).writebacks + 1 }
  match s.cfg.locate (l.tag * 128) with
  | .hbm _ ch ca =>
    if chanState s ch = 3 then some (s, 0)
    else if chanState s ch = 1 && (reg ≠ 127 || mcRoom s ch) then some (maintOffer (setMemLine s ch ca l.data l.poison) reg ch ca, 0)
    else none
  | .remote r _ _ =>
    let owed := if r.target = 1 || !keep then s.lla.owed.find? (fun p => p.2 = l.tag) else none
    match startRemote s ((owed.map (·.1)).getD tag) (if slice < 64 then slice else r.owner) 1 r (l.tag * 128) 0 0 0 0 l.data (BitVec.allOnes 128) (keep || owed.isSome) l.poison with
    | .sent s => some (s, 0)
    | .fail st => some (oweFailure s l.tag st, st)
    | .wait => none
  | _ => some (s, 0)

/-- A writeback nobody waits for, charged to no regulator (R264). -/
def writeBack (s : State) (j slice : Nat) (l : LlaLine) : Option State := (writeBackFor s 0x60000 false j slice 127 l).map (·.1)

/-- Whether a miss of this request allocates (R154, R156–R159). -/
def mayAlloc (s : State) (t : Txn) (r : Region) (bypass : Bool) : Bool :=
  llaOn s && r.cache && (r.interleave ≠ 5 || r.remoteCacheable) && !t.noalloc && !s.cfg.strict && !bypass

/-- Outcome of an allocation: no way takes the line, the victim cannot be written back now, or the way is free. -/
inductive AllocRes where
  | no
  | hold
  | way (s : State) (w : Nat)
  deriving DecidableEq, Repr

/-- Frees a way for a line (R158), writing a dirty victim back. -/
def allocWay (s : State) (j st slice : Nat) : AllocRes :=
  match victim s j st with
  | none => .no
  | some (s, w) =>
    let old := s.way j st w
    if old.valid && old.dirty then
      match writeBack s j slice old with
      | some s => .way s w
      | none => .hold
    else .way s w

/-- A read of a region by an initiator of a slice whose FABRIC acquire on it runs bypasses clean hits (R239). -/
def acquiring (s : State) (slice : Option Nat) (r : Region) : Bool :=
  match slice with
  | some sl => s.fabOps.any (fun f => f.acquire && f.slice = sl && f.regions.getLsbD r.num)
  | none => false

/-! ## Atomics -/

/-- The word an atomic of opcode 0x10–0x14 leaves (R106, R210): `n` bits, signed or unsigned bounds. -/
def atomicNew (opc n : Nat) (unsigned : Bool) (old a b : Nat) : Nat :=
  let a := a % 2 ^ n
  let lt := fun (x y : Nat) => if unsigned then decide (x < y) else decide (toSigned n x < toSigned n y)
  match opc with
  | 0x10 => (old + a) % 2 ^ n
  | 0x11 => a
  | 0x12 => if old = a then b % 2 ^ n else old
  | 0x13 => if lt a old then a else old
  | _ => if lt old a then a else old

/-- The old value as AT_DONE returns it (R106, R212). -/
def atomicOld (n : Nat) (unsigned : Bool) (old : Nat) : Nat := if unsigned || n = 64 then old else wrapInt 64 (toSigned 32 old)

/-- Applies an atomic to a line: the line after and the old value. -/
def atomicLine (opc attr addr op0 op1 : Nat) (l : Line) : Line × Nat :=
  let n := if attr.testBit 0 then 64 else 32
  let off := addr % 128
  let old := le (lineBytes l) off (n / 8)
  (lineOf (splice (lineBytes l) off (leBytes (n / 8) (atomicNew opc n (attr.testBit 1) old op0 op1))), atomicOld n (attr.testBit 1) old)

/-- What a request leaves of a line, and the value it answers: a read answers the line, an atomic the old value. -/
def applyTo (t : Txn) (l : Line) : Line × Line :=
  if isRead t.opc then (l, l)
  else if t.opc ≥ 0x10 then
    let (n, old) := atomicLine t.opc t.attr t.addr t.op0 t.op1 l
    (n, BitVec.ofNat 1024 old)
  else (lineOf (mergeBytes ((List.range 128).map (fun i => t.mask.getLsbD i)) (lineBytes t.data) (lineBytes l)), 0)

/-- Whether a request replaces the whole line (R156, R170). -/
def fullLine (t : Txn) : Bool := (t.opc = 5 || t.opc = 6 || t.opc = 7) && t.mask = BitVec.allOnes 128

/-! ## Serving a request -/

/-- How a request was served: answered with a status and a value, sent on as a remote operation, or not now. -/
inductive Served where
  | done (s : State) (status : Nat) (val : Line)
  | left (s : State) (rop : Nat)
  | hold
  deriving DecidableEq, Repr

/-- An owner's full-line write of a line of a quarantined page (R454). -/
def quarWritten (s : State) (t : Txn) : State :=
  match s.quarOf (t.addr / 4096) with
  | some (e, q) =>
    if fullLine t && t.slice = some q.owner then
      let left := q.left &&& ~~~(1#32 <<< (t.addr / 128 % 32))
      { s with fcu := { s.fcu with quar := Tab.set none s.fcu.quar e (if left = 0 then none else some { q with left := left }) } }
    else s
  | none => s

/-- A request to a line the array or a scratch way holds in a way: reads answer it, writes and atomics update it in place and mark
it dirty; a partial write keeps poison, a full one clears it, an atomic or a read of a poisoned line answers POISON (DEDUCED, log 100). -/
def serveWay (s : State) (j st w : Nat) (scratch : Bool) (t : Txn) : Served :=
  let l := s.way j st w
  if l.poison && (isRead t.opc || t.opc ≥ 0x10) then .done s 2 0
  else
    let (nl, v) := applyTo t l.data
    if isRead t.opc then .done s 0 v
    else .done (setWay s j st w { l with data := nl, dirty := l.dirty || !scratch, poison := l.poison && !fullLine t || t.poison }) 0 v

/-- Counts a lookup (R163). -/
def countLookup (s : State) (j : Nat) (hit : Bool) : State :=
  let h := s.home j
  setHome s j (if hit then { h with hits := h.hits + 1 } else { h with misses := h.misses + 1 })

/-- What a request makes of a line of memory: the line after it, dirty unless it is as it was, with its poison; the answer and its status. -/
structure Miss where
  line : LlaLine
  val : Line
  status : Nat
  deriving DecidableEq, Repr

/-- A request meets a line of memory (R148, R156, R170): a partial write is merged; a read or an atomic of a poisoned line changes nothing. -/
def missOf (s : State) (ch ca : Nat) (t : Txn) : Miss :=
  let old := memLine s ch ca
  let bad := memPoisoned s ch ca && !fullLine t
  if bad && (isRead t.opc || t.opc ≥ 0x10) then { line := { valid := true, tag := t.addr / 128, poison := true, data := old }, val := 0, status := 2 }
  else
    let (nl, v) := applyTo t old
    { line := { valid := true, tag := t.addr / 128, dirty := !isRead t.opc, poison := bad || t.poison, data := nl }, val := v, status := 0 }

/-- Puts a request in its channel's queue, if that has room (R266). -/
def queueLine (s : State) (ch ca : Nat) (t : Txn) : Option State := if mcRoom s ch then some (mcPush s (t.mcReq ch ca)) else none

/-- A miss that allocates nothing reads or writes memory through its channel's queue. -/
def serveMem (s : State) (ch ca : Nat) (t : Txn) (m : Miss) : Served :=
  match queueLine s ch ca t with
  | none => .hold
  | some s => if m.line.dirty then .done (setMemLine s ch ca m.line.data m.line.poison) 0 m.val else .done s m.status m.val

/-- A miss that allocates installs the line (R156), clean for a read and dirty for a write; unless it writes the whole line, memory is read through
the channel's queue. -/
def fillWay (s : State) (ch ca w : Nat) (t : Txn) (m : Miss) : Served :=
  match (if fullLine t then some s else queueLine s ch ca t) with
  | none => .hold
  | some s => .done (setWay s (ch / 8) (llaSet ch ca) w m.line) m.status m.val

/-- A request to HBM: a hit is served by its way, a miss by memory or the way it allocates (R148, R156, R170). -/
def serveHbm (s : State) (r : Region) (ch ca : Nat) (t : Txn) : Served :=
  match (if llaOn s then lookup s (ch / 8) (llaSet ch ca) (t.addr / 128) else none) with
  | some w => serveWay (countLookup s (ch / 8) true) (ch / 8) (llaSet ch ca) w false t
  | none =>
    if chanState s ch = 3 then .done s 4 0
    else if chanState s ch ≠ 1 then .hold
    else
      let m := missOf s ch ca t
      let s := if llaOn s then countLookup s (ch / 8) false else s
      match (if mayAlloc s t r false then allocWay s (ch / 8) (llaSet ch ca) (t.slice.getD r.owner) else .no) with
      | .no => serveMem s ch ca t m
      | .hold => .hold
      | .way s w => fillWay s ch ca w t m

/-- A request leaves for its owner as an operation of a kind: 0 the read of its line, 1 a write, 2 an atomic. -/
def sendOn (s : State) (r : Region) (tag kind : Nat) (mask : BitVec 128) (t : Txn) : Served :=
  match startRemote s tag (t.slice.getD r.owner) kind r (if kind = 2 then t.addr else t.addr / 128 * 128) t.opc t.attr t.op0 t.op1 t.data mask (tag ≠ 0x60000)
      (kind = 1 && t.poison) with
  | .sent u => .left u (s.nx.nextOpid % 2 ^ 32)
  | .fail st => .done s st 0
  | .wait => .hold

/-- A request to a REMOTE region: a hit is served here; a miss that may allocate first fetches the line (a full-line write installs
it without); any other leaves the module (R154, R156, R234, R239). -/
def serveRemote (s : State) (r : Region) (j st : Nat) (tag : Nat) (t : Txn) : Served :=
  let bypass := isRead t.opc && acquiring s t.slice r
  match (if llaOn s then lookup s j st (t.addr / 128) else none).filter (fun w => !(bypass && !(s.way j st w).dirty)) with
  | some w => serveWay (countLookup s j true) j st w false t
  | none =>
    let s := if llaOn s then countLookup s j false else s
    if mayAlloc s t r bypass && !(cacheWays s j).isEmpty then
      if fullLine t then
        match allocWay s j st (t.slice.getD r.owner) with
        | .way s w => .done (setWay s j st w { valid := true, tag := t.addr / 128, dirty := true, data := t.data, poison := t.poison }) 0 0
        | .hold => .hold
        | .no => sendOn s r tag 1 t.mask t
      else sendOn s r tag 0 0 t
    else if isRead t.opc then sendOn s r tag 0 0 t
    else if t.opc ≥ 0x10 then sendOn s r tag 2 0 t
    else sendOn s r tag 1 t.mask t

/-! ## Doorbell and control lines -/

/-- Slots of a queue's rings, 0 where no ring was ever set (R284, R308). -/
def Queue.depth (q : Queue) : Nat := let n := bits q.ring 4 0; if 4 ≤ n && n ≤ 16 then 2 ^ n else 0

/-- Commands pending (R284). -/
def Queue.waiting (q : Queue) : Nat := let d := q.depth; if d = 0 then 0 else (q.prod + d - q.cons) % d

/-- A doorbell value (R286, R287): PROD is recorded, or the value discarded with DB_BAD. A queue whose ring was never set takes none. -/
def Queue.doorbell (q : Queue) (v : Nat) : Queue :=
  let d := q.depth
  let prod := v % 65536
  let p := (prod + d - q.cons) % d
  if d = 0 || v ≥ 2 ^ 32 || prod ≥ d then { q with dbBad := true }
  else if p < q.waiting then { q with dbBad := true }
  else if p = q.waiting then q
  else if v / 65536 ≠ (q.nextSeq + p + 65535) % 65536 then { q with dbBad := true }
  else { q with prod := prod }

/-- Word 0 of a line of a region as its home holds it. -/
def wordZero (s : State) (pa : Nat) : Nat :=
  match s.cfg.locate pa with
  | .hbm _ ch ca => (match (if llaOn s then lookup s (ch / 8) (llaSet ch ca) (pa / 128) else none) with
    | some w => (s.way (ch / 8) (llaSet ch ca) w).data
    | none => memLine s ch ca).toNat % 2 ^ 64
  | _ => 0

/-- Whether a register names a line: V, and LINE in bits 49:7 (R286, R394). -/
def namesLine (r : BitVec 64) (line : Nat) : Bool := bit r 0 && bits r 49 7 = line

/-- Doorbell and control lines (R286, R394): a write at its home that leaves word 0 of a named line with a new value delivers it (DEDUCED,
log 106). -/
def deliverWord (s : State) (line : Nat) (w : Nat) : State :=
  { s with
    queues := s.queues.map (fun p => (p.1, if namesLine p.2.dbLine line then p.2.doorbell w else p.2))
    slices := s.slices.map (fun p => (p.1, if namesLine p.2.ctlLine line then { p.2 with ctlPend := p.2.ctlPend ++ [BitVec.ofNat 64 w] } else p.2)) }

/-- Whether any register names a line. -/
def watchedLine (s : State) (line : Nat) : Bool :=
  s.queues.any (fun p => namesLine p.2.dbLine line) || s.slices.any (fun p => namesLine p.2.ctlLine line)

/-- Serves a request at its home (R156, R170, R223, R454), without what its new value tells the queues. -/
def serveLine (s : State) (tag : Nat) (t : Txn) : Served :=
  match s.cfg.locate t.addr with
  | .unmapped => .done s 1 0
  | .scratch j w st => serveWay s j st w true t
  | .hbm r ch ca =>
    if (isRead t.opc || t.opc ≥ 0x10) && (s.quarOf (t.addr / 4096)).isSome then .done s 2 0
    else
      match serveHbm s r ch ca t with
      | .done s st v => .done (quarWritten s t) st v
      | x => x
  | .remote r j st => serveRemote s r j st tag t

/-- Serves a request at its home, and delivers the word a write leaves in a doorbell or control line. -/
def serve (s : State) (tag : Nat) (t : Txn) : Served :=
  if isRead t.opc || !watchedLine s t.line then serveLine s tag t
  else match serveLine s tag t with
    | .done s' st v => .done (if wordZero s' t.addr ≠ wordZero s t.addr then deliverWord s' t.line (wordZero s' t.addr) else s') st v
    | x => x

/-- What a fetched remote line gives the request that waited for it: a read is answered, and the line installed clean where it may
allocate; a partial write or an atomic is merged and installed dirty, or goes to the owner where the line can no longer be held. -/
def serveFetched (s : State) (t : Txn) (l : Line) : Served :=
  match s.cfg.locate t.addr with
  | .remote r j st =>
    let (nl, v) := applyTo t l
    if (lookup s j st (t.addr / 128)).isNone && mayAlloc s t r (isRead t.opc && acquiring s t.slice r) then
      match allocWay s j st (t.slice.getD r.owner) with
      | .way s w => .done (setWay s j st w { valid := true, tag := t.addr / 128, dirty := !isRead t.opc, data := nl }) 0 v
      | _ => if isRead t.opc then .done s 0 v else .hold
    else if isRead t.opc && !((lookup s j st (t.addr / 128)).any (fun w => (s.way j st w).dirty)) then .done s 0 v
    else .hold
  | _ => .done s 0 l

/-! ## The directory -/

/-- Home slice and directory set of a line (R218; the set index is that of the array modulo 4,096, log 14). -/
def dirHome (s : State) (pa : Nat) : Nat × Nat := let (h, st) := (s.cfg.locate pa).home; (h, st % 4096)

def dirKey (j st w : Nat) : Nat := (j * 4096 + st) * 16 + w
def State.dirWay (s : State) (j st w : Nat) : DirEntry := Tab.get {} s.lla.dir (dirKey j st w)

/-- The way of a set that holds a line's entry. -/
def dirFind (s : State) (j st line : Nat) : Option Nat :=
  (List.range 16).find? (fun w => let e := s.dirWay j st w; e.st ≠ .none && e.line = line)

/-- A line's directory state (R218). -/
def dirOf (s : State) (pa : Nat) : DirState :=
  let (j, st) := dirHome s pa
  match dirFind s j st (pa / 128) with
  | some w => (s.dirWay j st w).st
  | none => .none

/-- The agents a directory state names. -/
def DirState.agents : DirState → List Nat
  | .none => []
  | .shared p => (List.range 8).filter (fun k => p.getLsbD k)
  | .exclusive o => [o.val]

/-- Writes a line's directory state; a state that names nobody frees the entry. A new entry takes the lowest free way. -/
def setDir (s : State) (pa : Nat) (d : DirState) : State :=
  let (j, st) := dirHome s pa
  let d := if d.agents.isEmpty then .none else d
  match dirFind s j st (pa / 128) with
  | some w => { s with lla := { s.lla with dir := Tab.set {} s.lla.dir (dirKey j st w) (if d = .none then {} else { line := pa / 128, st := d }) } }
  | none =>
    if d = .none then s
    else match (List.range 16).find? (fun w => (s.dirWay j st w).st = .none) with
      | some w => { s with lla := { s.lla with dir := Tab.set {} s.lla.dir (dirKey j st w) { line := pa / 128, st := d } } }
      | none => s

/-- A directory state without one agent (R221). -/
def DirState.without (d : DirState) (k : Nat) : DirState :=
  match d with
  | .none => .none
  | .shared p => .shared (p &&& ~~~(1#8 <<< k))
  | .exclusive o => if o.val = k then .none else .exclusive o

def presence (ks : List Nat) : BitVec 8 := ks.foldl (fun p k => p ||| (1#8 <<< k)) 0

/-- The agent of a transaction, where a Deckle agent sent it. -/
def Txn.agent (t : Txn) : Option Nat := match t.src with | .agent k _ => some k | _ => none

/-- The snoops a request sends (R219): SNP opcode and sites. A recall drops every holder (R222), or with opcode 4 asks the owner for its data (R238). -/
def snoopsOf (s : State) (t : Txn) : Nat × List Nat :=
  let d := dirOf s t.addr
  let others := fun (ks : List Nat) => ks.filter (fun k => t.agent ≠ some k)
  match t.src, t.opc, d with
  | .recall _, 4, .exclusive o => (3, [o.val])
  | .recall _, 4, _ => (0, [])
  | .recall _, _, _ => (2, d.agents)
  | _, 1, .exclusive o => (1, others [o.val])
  | _, 1, _ => (0, [])
  | _, 2, _ => (2, others d.agents)
  | _, 3, _ => (2, others d.agents)
  | _, 4, .exclusive o => (3, [o.val])
  | _, 4, _ => (0, [])
  | _, 7, _ => (0, [])
  | _, _, _ => (2, d.agents)

/-! ## Messages to the agents -/

def State.site (s : State) (k : Nat) : Site := Tab.get {} s.sites k
def setSite (s : State) (k : Nat) (x : Site) : State := { s with sites := Tab.set {} s.sites k x }
def setDk (s : State) (k : Nat) (d : Dk) : State := setSite s k { s.site k with dk := d }

/-- Leaves a message for a site; messages of a site that is not UP are discarded (R230). -/
def post (s : State) (k : Nat) (m : DkMsg) : State :=
  let x := s.site k
  if x.state = 4 || x.state = 5 then setDk s k { x.dk with outbox := x.dk.outbox ++ [m] } else s

/-- TXN of the snoops and acknowledgements of a transaction at its home. -/
def Txn.tracker (t : Txn) : Nat := t.id % 65536

/-- Completes an agent's outstanding request (R214, R216). -/
def retire (s : State) (k txn : Nat) : State :=
  let d := (s.site k).dk
  setDk s k { d with outstanding := d.outstanding.filter (fun p => p.1 ≠ txn) }

/-- A completion to an agent: RSP 3 or DAT 4 with its opcode, GRANT, STATUS and ADDR or line (R212, R213). HOME is zero in one from
the port itself (R209). -/
def complete (s : State) (k txn home cls opc grant attr status addr : Nat) (line : Line) : State :=
  retire (post s k { cls := cls, opc := opc, txn := txn, home := home, grant := grant, attr := attr, status := status, addr := addr, line := line }) k txn

/-- Refuses an agent's request: DONE for writes and atomics, RD_DATA with GRANT I for reads (R214). -/
def refuse (s : State) (k txn home opc status addr : Nat) : State :=
  if isRead opc then complete s k txn home 4 1 0 0 status addr 0 else complete s k txn home 3 0x20 0 0 status addr 0

/-! ## Transactions -/

def updTxn (s : State) (t : Txn) : State := { s with txns := s.txns.map (fun u => if u.id = t.id then t else u) }
def dropTxn (s : State) (id : Nat) : State := { s with txns := s.txns.filter (fun u => u.id ≠ id) }

/-- A transaction holds its line from its turn until it is answered (R220). -/
def Txn.active (t : Txn) : Bool := t.stage ≠ .ready

/-- Whether an H-site's access waits for a Chart reload that changes the region of its address (R59). -/
def reloadHolds (s : State) (t : Txn) : Bool :=
  s.chart.state = 4 && s.chart.reload && t.hsite.isSome &&
    (match s.chart.verified with
      | some c => (s.chart.prior.getD s.cfg).regionOf t.addr ≠ c.regionOf t.addr
      | none => false)

/-- Whether a host access waits for a posted write of the host that came before it (R248): one without Relaxed Ordering, unless the access is a write
that has it. -/
def hostWaits (s : State) (t : Txn) : Bool :=
  t.src = .host && !t.relaxed && s.txns.any (fun u => u.src = .host && u.id < t.id && u.active && !isRead u.opc && !u.relaxed)

/-- Whether it is a transaction's turn at its line: of those that arrived at the home before it, none is at its line (R220) and fewer than 4,096 hold the
home's trackers (R217); no earlier host write holds it (R248) and no reload. The list has them in order of arrival, once they have left their meters. -/
def isTurn (s : State) (t : Txn) : Bool :=
  let before := (s.txns.takeWhile (fun u => u.id ≠ t.id)).filter (fun u => u.active && u.charged)
  !before.any (fun u => u.line = t.line) &&
    (before.length < 4096 || (before.filter (fun u => (s.cfg.locate u.addr).home.1 = (s.cfg.locate t.addr).home.1)).length < 4096) &&
    !hostWaits s t && !reloadHolds s t

/-- A transaction that has left its meter arrives at its home, after those that are there. -/
def arriveHome (s : State) (t : Txn) : State := { s with txns := s.txns.filter (fun u => u.id ≠ t.id) ++ [t] }

/-- The completion of one line of a BAR4 read (R370): `op0` is the first byte asked for, `op1` how many. A write owes none. A read of
an address that is not there answers Unsupported Request; one of a poisoned line, or of a line no unit serves, sets EP (log 23). -/
def hostAnswer (s : State) (t : Txn) (status : Nat) (val : Line) : State :=
  if !isRead t.opc || !s.pcie.dlUp then s
  else if status = 1 then emit s (.unsupported t.addr)
  else emit s (.hostData (t.addr + t.op0) (status ≠ 0) (if status = 0 then sub (lineBytes val) t.op0 t.op1 else []))

/-- The answer to a peer's packet (R338, R342): READ_RESP for each line of a read (`op0` the first byte, `op1` the length, `mask` the
offset in the request), ATOMIC_RESP, and COMP once every line of a WRITE is ordered at its home. A status other than OK passes to
the lines still to come. -/
def fabricAnswer (s : State) (t : Txn) (job peer opid psn status : Nat) (val : Line) : State :=
  let st := if t.status ≠ 0 then t.status else status
  let more := s.txns.any (fun u => u.src = .fabric job peer opid psn)
  if t.opc ≥ 0x10 then sendNumbered s job peer 0x05 2 opid 0 st job (leBytes 8 val.toNat)
  else if isRead t.opc then
    sendNumbered s job peer 0x03 (if more then 0 else 2) opid t.mask.toNat status job (if status = 0 then sub (lineBytes val) t.op0 t.op1 else [])
  else if more then { s with txns := s.txns.map (fun u => if u.src = .fabric job peer opid psn then { u with status := st } else u) }
  else sendNumbered s job peer 0x06 2 opid 0 (st * 256 + 1) job []

/-- Notes a line of a REMOTE region that an engine wrote into the array (R234). -/
def noteOwed (s : State) (tag : Nat) (t : Txn) : State :=
  match s.cfg.locate t.addr with
  | .remote _ j st =>
    match (if llaOn s then lookup s j st t.line else none) with
    | some w =>
      if (s.way j st w).dirty && !s.lla.owed.contains (tag, t.line) then { s with lla := { s.lla with owed := (tag, t.line) :: s.lla.owed } } else s
    | none => s
  | _ => s

/-- Waiters of the recalls that maintenance makes start here: slice j's register context, and its system context after it. -/
def maintWaiter (j : Nat) (system : Bool) : Nat := 2 ^ 40 + 2 * j + (if system then 1 else 0)

/-- Tag under which a system context's writes to owners go, and the failures of what it recalled are kept. -/
def sysTag (j : Nat) : Nat := 0x65000 + j

/-- Notes that data a maintenance operation recalled from an agent could not reach its owner (R252). -/
def lostRecall (s : State) (t : Txn) (status : Nat) : State :=
  match t.src with
  | .recall w => if status ≠ 0 && w ≥ 2 ^ 40 then { s with lla := { s.lla with owedFail := (sysTag ((w - 2 ^ 40) / 2), status) :: s.lla.owedFail } } else s
  | _ => s

/-- Whether an initiator still waits for a padded response (R273). -/
def padded (s : State) (tag : Nat) : Bool := s.noc.pads.any (fun p => p.tag = tag)

/-- A transaction's answer reaches whoever asked: an engine's reads and atomics, and its writes that failed, wait for it as
`ready`; a posted write is forgotten. -/
def answer (s : State) (t : Txn) (status : Nat) (val : Line) : State :=
  match t.src with
  | .engine tag =>
    let s := if isRead t.opc || status ≠ 0 then s else noteOwed s tag t
    if isRead t.opc || t.opc ≥ 0x10 || status ≠ 0 then updTxn s { t with stage := .ready, status := status, data := val }
    else dropTxn s t.id
  | .agent k txn =>
    let s := dropTxn s t.id
    if status ≠ 0 then refuse s k txn (dirHome s t.addr).1 t.opc status (if isRead t.opc then t.addr else 0)
    else if t.opc = 4 then complete s k txn (dirHome s t.addr).1 4 1 0 0 0 t.addr val
    else if t.opc ≥ 0x10 then complete s k txn (dirHome s t.addr).1 3 0x23 0 0 0 val.toNat 0
    else s
  | .host => hostAnswer (dropTxn s t.id) t status val
  | .fabric job peer opid psn => fabricAnswer (dropTxn s t.id) t job peer opid psn status val
  | .recall _ => dropTxn (lostRecall s t status) t.id
  | .posted _ => dropTxn s t.id

/-- After an RD_SHARE, RD_OWN or UPGRADE was served, the directory and the grant of R219; the transaction waits for GRANT_ACK. -/
def grantLine (s : State) (t : Txn) (k txn : Nat) (val : Line) (data : Bool) : State :=
  let d := dirOf s t.addr
  let me : DirState := .exclusive ⟨k % 8, Nat.mod_lt _ (by decide)⟩
  let (g, d') : Nat × DirState :=
    if t.opc = 1 then
      match d with
      | .shared p => (1, .shared (p ||| (1#8 <<< k)))
      | .exclusive o => if o.val = k then (2, me) else (1, .shared (presence [o.val, k]))
      | .none => (2, me)
    else (2, me)
  let s := setDir (setDir s t.addr (if d' = me then .none else d)) t.addr d'
  let s := if data then complete s k txn (dirHome s t.addr).1 4 1 g 0 0 t.addr val else complete s k txn (dirHome s t.addr).1 3 0x20 g 0 0 0 0
  updTxn s { t with stage := .needAck }

/-- Handles what serving gave. -/
def onServed (s : State) (t : Txn) : Served → State
  | .hold => s
  | .left s id => updTxn s { t with stage := .remote, rop := some id }
  | .done s' status val =>
    match t.src with
    | .agent k txn =>
      if isRead t.opc && t.opc ≠ 4 && status = 0 then grantLine s' t k txn val true else answer s' t status val
    | _ => answer s' t status val

/-- Whether a write of an agent takes the PULL form: a REMOTE region and no allocation (R214). -/
def pullForm (s : State) (t : Txn) : Bool :=
  match s.cfg.locate t.addr with
  | .remote r j st =>
    let held := llaOn s && (lookup s j st t.line).isSome
    !held && !(mayAlloc s t r false && !(cacheWays s j).isEmpty)
  | _ => false

/-- An agent's write whose data has arrived is served (R214): the PULL form ends in DONE with the final status, the other form and a
writeback are complete without a further message. -/
def finishWrite (s : State) (t : Txn) (k txn : Nat) : State :=
  let s := if t.opc = 7 then setDir s t.addr .none else s
  match serve s t.src.tag t with
  | .done s st _ =>
    let s := dropTxn s t.id
    if t.pull then complete s k txn (dirHome s t.addr).1 3 0x20 0 0 st 0 0 else retire s k txn
  | .left s id => updTxn s { t with stage := .remote, rop := some id }
  | .hold => updTxn s { t with stage := .queued }

/-- An agent's request performed at its home (R214, R219). -/
def performAgent (s : State) (t : Txn) (k txn : Nat) : Nat → State
  | 3 =>
    let d := dirOf s t.addr
    let wasS := match d with | .shared p => p.getLsbD k | _ => false
    if wasS then grantLine s t k txn 0 false else onServed s t (serve s t.src.tag t)
  | 7 =>
    let mine := match dirOf s t.addr with | .exclusive o => decide (o.val = k) | _ => false
    if mine then updTxn (post s k { cls := 3, opc := 0x22, txn := txn, home := (dirHome s t.addr).1 }) { t with stage := .needData }
    else dropTxn (complete s k txn (dirHome s t.addr).1 3 0x20 0 1 0 0 0) t.id
  | opc =>
    if opc = 5 || opc = 6 then
      let pull := pullForm s t
      let m : DkMsg := { cls := 3, opc := if pull then 0x21 else 0x22, txn := txn, home := (dirHome s t.addr).1 }
      updTxn (post (setDir s t.addr .none) k m) { t with stage := .needData, pull := pull }
    else
      let s := if opc ≥ 0x10 then setDir s t.addr .none else s
      onServed s t (serve s t.src.tag t)

/-- Where dirty data goes that an agent returned to a snoop of a transaction: home, on its way to a remote owner as an operation that the transaction
waits for, or nowhere yet. -/
inductive HomeData where
  | home (s : State) (t : Txn)
  | away (s : State) (rop : Nat)
  | hold
  deriving DecidableEq, Repr

/-- Dirty data an agent returned to a snoop of a transaction is written home first (R219). -/
def dataHome (s : State) (t : Txn) : HomeData :=
  match t.snp with
  | none => .home s t
  | some l =>
    let wt : Txn := { id := t.id, src := .posted 0, opc := 5, addr := t.line * 128, slice := t.slice, mask := BitVec.allOnes 128, data := l }
    match serve s 0x60001 wt with
    | .done s st _ => let t := { t with snp := none }; .home (lostRecall (updTxn s t) t st) t
    | .left s id => .away s id
    | .hold => .hold

/-- A request whose snoops are answered is performed (R214, R219). -/
def perform (s : State) (t : Txn) : State :=
  match dataHome s t with
  | .hold => s
  | .away s id => updTxn s { t with stage := .remote, rop := some id }
  | .home s t =>
    match t.src, t.opc with
    | .recall _, opc => dropTxn (if opc = 4 then s else setDir s t.addr .none) t.id
    | .agent k txn, opc => if t.haveData then finishWrite s t k txn else performAgent s t k txn opc
    | src, opc =>
      let s := if isRead opc then s else setDir s t.addr .none
      onServed s t (serve s src.tag t)

/-- Whether a request takes a directory entry (R219). -/
def Txn.takesEntry (t : Txn) : Bool := isRead t.opc && t.opc ≠ 4 && t.agent.isSome

/-- Directory ways of a set kept for the admitted requests that take an entry and have none yet. -/
def keptWays (s : State) (j st : Nat) : Nat :=
  (s.txns.filter (fun u => u.takesEntry && u.snooped && u.stage ≠ .needAck && dirHome s u.addr = (j, st) && (dirFind s j st u.line).isNone)).length

/-- Whether a request needs a new directory entry and its set is full; then one entry without an active transaction is recalled,
chosen by the directory's LFSR (R222). None where no recall is needed. -/
def recallFor (s : State) (t : Txn) : Option State :=
  let (j, st) := dirHome s t.addr
  if !t.takesEntry || (dirFind s j st t.line).isSome
      || ((List.range 16).filter (fun w => (s.dirWay j st w).st = .none)).length > keptWays s j st then none
  else
    let busy := fun w => s.txns.any (fun u => u.active && u.charged && u.line = (s.dirWay j st w).line)
    let free := (List.range 16).filter (fun w => (s.dirWay j st w).st ≠ .none && !busy w)
    if s.txns.any (fun u => u.src = .recall t.id) then some s
    else match free with
      | [] => some s
      | w0 :: _ =>
        let h := s.home j
        let low := h.dirLfsr.toNat % 16
        let w := (free.find? (fun w => w ≥ low)).getD w0
        let s := setHome s j { h with dirLfsr := lfsrNext h.dirLfsr }
        let e := s.dirWay j st w
        let rt : Txn := { id := s.nextTxn, src := .recall t.id, opc := 0, addr := e.line * 128, stage := .snooping, wait := e.st.agents, snoopAt := s.time, charged := true, snooped := true }
        let s := { s with nextTxn := s.nextTxn + 1, txns := s.txns ++ [rt] }
        some (e.st.agents.foldl (fun s k => post s k { cls := 2, opc := 2, txn := rt.tracker, home := j, addr := e.line * 128 }) s)

/-- Whether the home holds a line poisoned, or reads of its page answer POISON (R170, R454). -/
def homePoisoned (s : State) (pa : Nat) : Bool :=
  match s.cfg.locate pa with
  | .unmapped => false
  | .scratch j w st => (s.way j st w).poison
  | .hbm _ ch ca =>
    (s.quarOf (pa / 4096)).isSome ||
      (match (if llaOn s then lookup s (ch / 8) (llaSet ch ca) (pa / 128) else none) with
        | some w => (s.way (ch / 8) (llaSet ch ca) w).poison
        | none => memPoisoned s ch ca)
  | .remote _ j st => ((if llaOn s then lookup s j st (pa / 128) else none).map (fun w => (s.way j st w).poison)).getD false

/-- A transaction passes its meter (R264), or waits there. -/
def passMeter (s : State) (t : Txn) : State × Txn :=
  if t.charged then (s, t)
  else
    let (s, t) := charge s t
    (if t.charged then arriveHome s t else updTxn s t, t)

/-- Whether a request of memory waits for its home: before the directory is there, or while its channel is not UP and the array does not hold the line. -/
def waitsForHome (s : State) (t : Txn) : Bool :=
  match s.cfg.locate t.addr with
  | .hbm _ ch ca => t.opc ≠ 7 && (!s.glb.dir || chanState s ch ≠ 1 && !(llaOn s && (lookup s (ch / 8) (llaSet ch ca) t.line).isSome))
  | _ => false

/-- Sends the snoops of a transaction, which then waits for their answers (R219); it is performed at once where it needs none. -/
def sendSnoops (s : State) (t : Txn) : State :=
  let (op, ks) := snoopsOf s t
  if ks.isEmpty then perform (updTxn s { t with snooped := true }) { t with snooped := true }
  else
    let m : DkMsg := { cls := 2, opc := op, txn := t.tracker, home := (dirHome s t.addr).1, addr := t.line * 128 }
    ks.foldl (fun s k => post s k m) (updTxn s { t with stage := .snooping, snooped := true, wait := ks, snoopAt := s.time })

/-- Admits a queued transaction (R220): charged at its meter, checked, its directory entry found, its snoops sent, performed. An RD_SHARE of a poisoned
line changes nothing in the directory (R230); a request that a slice reset discards at its meter is SQUASHED (R279). -/
def runTxn (s : State) (id : Nat) : State :=
  match s.txns.find? (fun u => u.id = id) with
  | none => s
  | some t =>
    if t.stage ≠ .queued || t.untranslated then s
    else if t.squashed then answer s t 8 0
    else
      let (s, t) := passMeter s t
      if !t.charged || !isTurn s t then s
      else if t.snooped then perform s t
      else match refusal s t with
        | some st => answer s t st 0
        | none =>
          if waitsForHome s t then s
          else if t.opc = 1 && homePoisoned s t.addr then answer s t 2 0
          else (recallFor s t).getD (sendSnoops s t)

/-- Gives every waiting transaction its chance, in order of arrival. -/
def settle (s : State) : State := s.txns.foldl (fun s t => runTxn s t.id) s

/-- A snoop of a transaction is answered by a site: the agent holds nothing any more, keeps S, or keeps what it had; a dirty line
comes with it (R212, R213, R219). -/
def snoopAnswered (s : State) (id k : Nat) (keeps : Nat) (dirty : Option Line) : State :=
  match s.txns.find? (fun u => u.id = id) with
  | none => s
  | some t =>
    let d := dirOf s t.addr
    let d' := if keeps = 0 then d.without k else if keeps = 1 then (match d with | .exclusive _ => .shared (presence [k]) | d => d) else d
    let s := setDir s t.addr d'
    let t := { t with wait := t.wait.filter (· ≠ k), snp := dirty.orElse (fun _ => t.snp) }
    if t.wait.isEmpty then
      let t := { t with stage := .queued }
      perform (updTxn s t) t
    else updTxn s t

/-- The write data of a transaction arrives (R214): WR_BYTES writes the bytes named, WR_LINE and WRBACK the whole line. -/
def dataArrived (s : State) (t : Txn) (mask : BitVec 128) (data : Line) : State :=
  match t.src with
  | .agent k txn => finishWrite s { t with mask := if t.opc = 6 then mask else BitVec.allOnes 128, data := data, haveData := true } k txn
  | _ => s

/-- The status and value that a remote operation brings reach the requester (R214, R219). -/
def remoteDone (s : State) (t : Txn) (st : Nat) (v : Line) : State :=
  match t.src with
  | .agent k txn =>
    if t.pull then complete (dropTxn s t.id) k txn (dirHome s t.addr).1 3 0x20 0 0 st 0 0
    else if t.haveData then retire (dropTxn s t.id) k txn
    else if isRead t.opc && t.opc ≠ 4 && st = 0 then grantLine s t k txn v true
    else answer s t st v
  | _ => answer s t st v

/-- Data that an agent returned to a snoop has reached its remote owner: a recall or a write goes on, a read is answered with it. -/
def dataAway (s : State) (t : Txn) (l : Line) : State :=
  let t := { t with snp := none, stage := .queued, rop := none }
  match t.src with
  | .recall _ => perform (updTxn s t) t
  | _ => if isRead t.opc then remoteDone s t 0 l else perform (updTxn s t) t

/-- A fetched remote line serves the request, or the request goes to the owner. -/
def lineFetched (s : State) (t : Txn) (l : Line) : State :=
  match serveFetched s t l with
  | .done s st v => remoteDone s t st v
  | _ =>
    match serve s t.src.tag { t with noalloc := true } with
    | .done s st v => remoteDone s t st v
    | .left s id => updTxn s { t with rop := some id, noalloc := true }
    | .hold => updTxn s { t with rop := none, stage := .queued, noalloc := true }

/-- The remote operation a transaction waited for is complete (R342, R371): its status reaches the requester, or the fetched line
serves the request. -/
def remoteArrived (s : State) (t : Txn) : State :=
  match t.rop.bind (fun id => s.rops.find? (fun o => o.id = id)) with
  | some o =>
    match o.done with
    | none => s
    | some st =>
      let s := dropRop s o.id
      if st ≠ 0 then remoteDone s t st 0
      else match t.snp with
        | some l => dataAway s t l
        | none => if o.kind = 0 then lineFetched s t o.data else remoteDone s t 0 o.data
  | none => s

/-- Delivers the completed remote operations to the transactions that wait for them, and lets the next ones go. -/
def settleRemote (s : State) : State :=
  settle (s.txns.foldl (fun s t => match s.txns.find? (fun u => u.id = t.id) with
    | some t => if t.stage = .remote then remoteArrived s t else s
    | none => s) s)

/-! ## Engine and hub accesses -/

/-- Answer of an engine's access: its value, a status, or not yet. -/
inductive Got where
  | ok (val : Line)
  | fail (status : Nat)
  | hold
  deriving DecidableEq, Repr

/-- The transaction of an engine's access: the read or atomic of it that waits, or a new one. -/
def accessTxn (s : State) (tag : Nat) (t : Txn) : State × Nat :=
  match s.txns.find? (fun u => u.src = .engine tag && u.addr = t.addr && u.opc = t.opc && (isRead t.opc || t.opc ≥ 0x10)) with
  | some u => (s, u.id)
  | none => ({ s with nextTxn := s.nextTxn + 1, txns := s.txns ++ [{ t with id := s.nextTxn, src := .engine tag }] }, s.nextTxn)

/-- An engine takes the answer of its transaction, if it is there. -/
def takeAnswer (s : State) (tag id : Nat) (t : Txn) : State × Got :=
  match s.txns.find? (fun u => u.id = id) with
  | none => (s, .ok 0)
  | some u =>
    if u.stage = .ready then (if 2 ^ 56 ≤ tag && padded s tag then (s, .hold) else (dropTxn s id, if u.status = 0 then .ok u.data else .fail u.status))
    else if isRead t.opc || t.opc ≥ 0x10 then (s, .hold)
    else (s, .ok 0)

/-- An engine's access by its tag (R220, R264). A read or atomic is answered at once, or by a later call once it is `ready`. A
write counts as issued: one that has not reached its home keeps its place there (DEDUCED, log 98). -/
def access (s : State) (tag : Nat) (t : Txn) : State × Got :=
  let (s, id) := accessTxn s tag t
  takeAnswer (runTxn s id) tag id t

/-- Whether an engine still has a write or remote operation that is not complete at its home or beyond (R234). -/
def tagBusy (s : State) (tag : Nat) : Bool :=
  s.txns.any (fun u => u.src = .engine tag && u.active) || ropWaiting s tag

/-- The failure a tag's issued writes met, if any, those of lines it wrote into the array among them (R252). -/
def tagFailure (s : State) (tag : Nat) : Option Nat :=
  ((s.txns.find? (fun u => u.src = .engine tag && u.stage = .ready && u.status ≠ 0)).map (·.status)).orElse (fun _ =>
    (ropFailure s tag).orElse (fun _ => (s.lla.owedFail.find? (fun p => p.1 = tag)).map (·.2)))

/-- Tag of the reads of the walk a requester waits for. -/
def walkTag (key : Nat) : Nat := 2 ^ 56 + key

/-- What becomes of an access nobody waits for any more: an answered one and a read not begun end; a read whose snoops are out goes on as the hub's own,
so that the data they bring reaches its home; a write goes on. -/
def Txn.abandon (t : Txn) : Option Txn :=
  if t.stage = .ready || (isRead t.opc && t.stage = .queued && !t.snooped) then none
  else if isRead t.opc then some { t with src := .posted 0 }
  else some t

/-- Forgets a tag's answered accesses, its reads and its walk (R305): writes issued go on. -/
def releaseTag (s : State) (tag : Nat) : State :=
  let mine := fun (u : Txn) => u.src = .engine tag || u.src = .engine (walkTag tag)
  dropRops { s with txns := s.txns.filterMap (fun u => if mine u then u.abandon else some u),
                    gtu := { s.gtu with walks := s.gtu.walks.filter (fun w => w.key ≠ tag), ahead := s.gtu.ahead.filter (fun p => p.1 % 2 ^ 62 ≠ tag) } } tag

/-- The hub's own posted write of bytes within one line, charged to no regulator (R445). -/
def postWrite (s : State) (why pa : Nat) (bs : List Byte) : State :=
  let off := pa % 128
  let mask := BitVec.ofNat 128 ((2 ^ bs.length - 1) <<< off)
  let t : Txn := { id := s.nextTxn, src := .posted why, opc := if bs.length = 128 then 5 else 6, addr := pa / 128 * 128, mask := mask,
                   data := lineOf (List.replicate off 0 ++ bs) }
  runTxn { s with nextTxn := s.nextTxn + 1, txns := s.txns ++ [t] } t.id

/-- Bytes of a line from an offset within it, for a read that an access answered. -/
def lineSlice (l : Line) (off n : Nat) : List Byte := sub (lineBytes l) off n

/-- An engine's read of `n` bytes within one line. -/
def readPart (s : State) (tag : Nat) (t : Txn) (n : Nat) : State × Got × List Byte :=
  let (s, g) := access s tag { t with opc := 4, addr := t.addr / 128 * 128 }
  (s, g, match g with | .ok l => lineSlice l (t.addr % 128) n | _ => [])

/-- An engine's write of bytes within one line. -/
def writePart (s : State) (tag : Nat) (t : Txn) (bs : List Byte) : State × Got :=
  let off := t.addr % 128
  access s tag { t with opc := if bs.length = 128 then 5 else 6, addr := t.addr / 128 * 128,
                        mask := BitVec.ofNat 128 ((2 ^ bs.length - 1) <<< off), data := lineOf (List.replicate off 0 ++ bs) }

end Sys2Proof.Machine
end

