-- ==== Sys2Proof/Machine/SliceStop.lean ====
section
/-!
DEFINITION. Stopping work: asynchronous stops of Mould cores (R89, R90), queue stops (R305, R306) and the first two steps of a slice
reset (R387), each as a change of state alone.
-/
namespace Sys2Proof.Machine

def State.core (s : State) (c : Nat) : Core := Tab.get {} s.cores c
def setCore (s : State) (c : Nat) (x : Core) : State := { s with cores := Tab.set {} s.cores c x }
def State.queue (s : State) (q : Nat) : Queue := Tab.get {} s.queues q
def setQueue (s : State) (q : Nat) (x : Queue) : State := { s with queues := Tab.set {} s.queues q x }
def State.slice (s : State) (n : Nat) : Slice := Tab.get {} s.slices n
def setSlice (s : State) (n : Nat) (x : Slice) : State := { s with slices := Tab.set {} s.slices n x }

/-- Logical number of a core given as site × 24 + local, if it has one (R33, R431). -/
def logicalOf (s : State) (c : Nat) : Option Nat := s.glb.logical.findIdx? (· = c)

/-- Core of a logical number. -/
def coreOf (s : State) (n : Nat) : Option Nat := s.glb.logical[n]?

/-- SLICES record of a slice (R46). -/
def sliceRec (s : State) (n : Nat) : Option SliceRec := s.cfg.slices.find? (fun r => r.slice = n)

/-- Slice of a core under the applied Chart. -/
def sliceOfCore (s : State) (c : Nat) : Option Nat :=
  match logicalOf s c with
  | none => none
  | some l => (s.cfg.slices.find? (fun r => r.cores.getLsbD l)).map (·.slice)

/-- Slice that owns a queue (R283). -/
def sliceOfQueue (s : State) (q : Nat) : Option Nat :=
  (s.cfg.slices.find? (fun r => r.qFirst ≤ q && q < r.qFirst + r.qCount)).map (·.slice)

/-- Cores of a slice. -/
def coresOfSlice (s : State) (n : Nat) : List Nat :=
  match sliceRec s n with
  | none => []
  | some r => ((List.range 144).filter (fun l => r.cores.getLsbD l)).filterMap (fun l => coreOf s l)

/-- Queues of a slice. -/
def queuesOfSlice (s : State) (n : Nat) : List Nat :=
  match sliceRec s n with
  | none => []
  | some r => (List.range r.qCount).map (· + r.qFirst)

/-- A slice is occupied from the acceptance of its BIND to the end of its unbind (R383). -/
def occupied (s : State) (n : Nat) : Bool := let st := (s.slice n).state; 1 ≤ st && st ≤ 5

/-- Whether a site holds a customer die (R4): code 8 or 9. -/
def siteCode (s : State) (k : Nat) : Nat := Tab.get 0 s.fuses.codes k
def customerDie (s : State) (k : Nat) : Bool := siteCode s k = 8 || siteCode s k = 9

/-- An asynchronous stop (R89, R90): queued matrix operations and descriptors not started are discarded. -/
def Core.stop (c : Core) (cause : Nat) (val : BitVec 64) : Core :=
  if c.st = .running || c.st = .waiting then
    { c with st := .halted, hold := .none, trapAsync := true, trapCause := cause, trapPc := c.pc, trapVal := val, trapValid := true,
             matq := [], tq := c.tq.map (fun p => (p.1, { p.2 with q := p.2.q.filter (·.started) })) }
  else c

/-- Stops a core, if it runs or waits. -/
def stopCore (s : State) (c cause : Nat) (val : BitVec 64) : State := setCore s c ((s.core c).stop cause val)

/-- HALT_REQ to a core (R88): a Mould core stops with HALT_REQUEST, a customer die's unit is asked. -/
def haltReq (s : State) (c : Nat) : State :=
  if customerDie s (c / 24) then
    let st := (s.core c).st
    if st = .running || st = .waiting then post s (c / 24) { cls := 5, opc := 6, unit := c % 24 } else s
  else stopCore s c 0x12 0

/-- CORE_RESET to a core (R85, R88). -/
def resetCore (s : State) (c : Nat) : State :=
  if customerDie s (c / 24) then post s (c / 24) { cls := 5, opc := 4, addr := 2 ^ (c % 24) }
  else setCore s c { s.core c with st := .reset, hold := .none, survey := false }

/-- Sends an MSI-X message (R367, R375, R376, R378, R379): lost while the link is down, none in the safe state; a masked vector, and one whose message
waits for the link, sets its pending bit. -/
def sendMsix (s : State) (v : Nat) : State :=
  if s.fcu.safe || !s.pcie.dlUp || !s.pcie.msixEnable then s
  else if msixWaits s v then { s with pcie := { s.pcie with pba := s.pcie.pba ||| (1#2048 <<< v) } }
  else emit s (.msix v)

/-- Whether a command of a queue is in progress: running, or waiting for its record (R301). -/
def Queue.inProgress (q : Queue) : Bool := q.cmd.isSome || !q.closing.isEmpty

/-- A stop of a queue (R305–R307): it stops at once where nothing is in progress, its interrupt due and a held record kept, else after the command in
progress. -/
def Queue.stop (q : Queue) (reason : Nat) : Queue :=
  if q.state = 0 then q
  else if !q.inProgress then { q with state := 0, reason := reason, irqDue := true, heldIssued := false }
  else { q with state := 2, stopReason := reason }

/-- Opcode of a command slot, and a byte or field of it. -/
def Cmd.opc (c : Cmd) : Nat := c.raw.toNat % 256
def Cmd.le (c : Cmd) (off n : Nat) : Nat := (c.raw.toNat >>> (8 * off)) % 2 ^ (8 * n)

/-- Whether an abort ends a command at once and not at its next element: WAIT, LAUNCH, COLLECTIVE (R305, R387). -/
def Cmd.endsAsAbort (c : Cmd) : Bool := c.opc = 0x0B || c.opc = 0x10 || c.opc = 0x12

/-- HALT_REQ to the cores a LAUNCH named (R87, R305). -/
def haltLaunched (s : State) (q : Nat) : State :=
  (List.range 144).foldl (fun s c => if (s.core c).launch = some q then haltReq s c else s) s

/-- Marks a queue's command to end as aborted; a LAUNCH halts its cores. -/
def abortCmd (s : State) (q : Nat) : State :=
  match (s.queue q).cmd with
  | none => s
  | some c =>
    let s := setQueue s q { s.queue q with cmd := some { c with aborting := true } }
    if c.opc = 0x10 && c.stage > 0 then haltLaunched s q else s

/-- Steps 1 and 2 of a reset or unbind (R387): queues stop, cores get HALT_REQ; under DRAIN WAIT, LAUNCH and COLLECTIVE end as an
abort ends them; under SQUASH every command in progress ends SQUASHED, and requests at meters are discarded (R279). -/
def squashSlice (s : State) (n : Nat) : State :=
  let s := setSlice s n { s.slice n with squash := true }
  let s := (queuesOfSlice s n).foldl abortCmd s
  let s := (coresOfSlice s n).foldl (fun s c =>
    let x := s.core c
    setCore s c { x with tq := x.tq.map (fun p => (p.1, { p.2 with q := p.2.q.map (fun d => if d.started && d.fail.isNone then { d with fail := some (7, d.runs) } else d) })) }) s
  let atMeter := fun (t : Txn) => t.reg = n && t.arrived && !t.charged
  let walk := fun (t : Txn) => t.ini = 206
  { s with noc := { s.noc with meters := s.noc.meters.filter (fun m => m.reg ≠ n) },
           txns := (s.txns.filter (fun t => !(atMeter t && walk t))).map (fun t => if atMeter t then { t with squashed := true } else t) }

def beginReset (s : State) (n : Nat) (squash unbind : Bool) : State :=
  let sl := s.slice n
  let s := setSlice s n { sl with state := if unbind then 4 else 3, stage := .drain, squash := squash }
  let s := (queuesOfSlice s n).foldl (fun s q => setQueue s q ((s.queue q).stop 5)) s
  let s := (coresOfSlice s n).foldl haltReq s
  if squash then squashSlice s n
  else (queuesOfSlice s n).foldl (fun s q => match (s.queue q).cmd with
    | some c => if c.endsAsAbort then abortCmd s q else s
    | none => s) s

/-- The fence reaction on a slice, by its state (R443). -/
def fenceSlice (s : State) (n : Nat) : State :=
  if n ≥ 64 then s
  else
    let sl := s.slice n
    match sl.state with
    | 1 => setSlice s n { sl with fenceAfterBind := true }
    | 2 => beginReset s n true false
    | 3 => if sl.squash || sl.stage ≠ .drain then s else squashSlice s n
    | 4 => if sl.squash || sl.stage ≠ .drain then s else squashSlice s n
    | _ => s

end Sys2Proof.Machine
end

