-- ==== Sys2Proof/Machine/Raise.lean ====
section
/-!
DEFINITION. Raising a fault source (R439–R449): sticky bit, record, reaction, interrupt and the entry to the safe state.
-/
namespace Sys2Proof.Machine

/-- Class of a source (R440), none for the fixed sources 5 and 6. -/
def faultClass (n : Nat) : Option Nat :=
  let spans : List (Nat × Nat × Nat) :=
    [(0, 1, 0), (2, 4, 1), (8, 16, 2), (32, 79, 3), (80, 95, 4), (96, 103, 5), (104, 105, 6), (112, 255, 7), (256, 399, 8), (400, 655, 9),
     (656, 911, 10), (912, 919, 11), (920, 927, 12), (928, 959, 13), (960, 991, 14), (992, 1023, 15), (1024, 1081, 16), (1082, 1161, 17),
     (1164, 1227, 18), (1228, 1291, 19), (1292, 1419, 20), (1420, 1483, 21), (1484, 1491, 22), (1492, 1493, 23), (1494, 1500, 24),
     (1501, 1501, 25), (1502, 1502, 26)]
  (spans.find? (fun p => p.1 ≤ n && n ≤ p.2.1)).map (fun p => p.2.2)

/-- Floor of a class (R440). -/
def faultFloor (c : Nat) : Nat :=
  if c = 14 || c = 15 || c = 24 then 3
  else if c = 3 || c = 4 || c = 8 || c = 10 || c = 12 || c = 16 || c = 17 || c = 18 || c = 25 || c = 26 then 1 else 0

/-- The reaction a raise applies: the Chart's, and never less than the floor (R442). -/
def reactionOf (s : State) (src : Nat) : Nat :=
  match faultClass src with
  | none => 3
  | some c => max ((s.cfg.react)[c]?.getD 0) (faultFloor c)

/-- The 64 bytes of a record (R444). -/
def FaultRec.bytes (r : FaultRec) : List Byte :=
  leBytes 8 r.time ++ leBytes 2 r.source ++ leBytes 1 r.cls ++ leBytes 1 r.reaction ++ leBytes 1 r.slice ++
  leBytes 1 (if r.phase then 1 else 0) ++ leBytes 2 r.suppressed ++ leBytes 4 r.epoch ++ leBytes 2 r.unit ++ leBytes 2 0 ++
  leBytes 8 r.addr ++ leBytes 8 r.info0 ++ leBytes 8 r.info1 ++ leBytes 4 r.pasid ++ leBytes 4 r.generation ++ leBytes 8 r.seq

/-- What a raise says of its event. -/
structure Event where
  slice : Nat := 0xFF
  unit : Nat := 0
  addr : Nat := 0
  info0 : Nat := 0
  info1 : Nat := 0
  deriving DecidableEq, Repr

/-- Whether the hub's own write of a line would fail: no such address, its channel out of service, or the line poisoned and not
wholly written (R301, R445). -/
def writeFails (s : State) (pa n : Nat) : Bool :=
  match s.cfg.locate pa with
  | .unmapped => true
  | .scratch j w st => wayMode s j w ≠ 2 || (n < 128 && (s.way j st w).poison)
  | .hbm _ ch ca =>
    chanState s ch = 3 ||
      (n < 128 && (match (if llaOn s then lookup s (ch / 8) (llaSet ch ca) (pa / 128) else none) with
        | some w => (s.way (ch / 8) (llaSet ch ca) w).poison
        | none => memPoisoned s ch ca))
  | .remote _ _ _ => true

/-- Debug ends (R422). A core halted stays HALTED (DEDUCED, log 127). -/
def endDebug (s : State) : State :=
  { s with wmk := { s.wmk with rights := 0, dbgSites := 0, dbgUntil := none, dbgCores := [] } }

/-- What the interrupt sends, by MODE of FCU_IRQ (R447). -/
def fcuSend (s : State) : State :=
  let mode := bits s.fcu.irq 31 30
  let s := if mode % 2 = 1 then sendMsix s (bits s.fcu.irq 10 0) else s
  if mode ≥ 2 then postWrite s 1 s.fcu.irqAddr.toNat (leBytes 8 s.fcu.irqData.toNat) else s

/-- Whether a record's write is still on its way. -/
def recordWaits (s : State) : Bool := s.txns.any (fun t => t.src = .posted 0)

/-- The FCU interrupt (R447): it goes once the records are written (R445) (DEDUCED, log 164). In the safe state nothing is sent. -/
def fcuInterrupt (s : State) : State :=
  if s.fcu.irqPending then s
  else
    let s := { s with fcu := { s.fcu with irqPending := true } }
    if s.fcu.safe then s else if recordWaits s then { s with fcu := { s.fcu with irqDue := true } } else fcuSend s

/-- An interrupt that waited for records goes when they are written (R445). -/
def fcuLate (s : State) : State :=
  if s.fcu.irqDue && !s.quiet && !recordWaits s then fcuSend { s with fcu := { s.fcu with irqDue := false } } else s

/-- Entry to the safe state (R449): ERR_FATAL, remote faults on every UP port, HEARTBEAT low, stacks to self-refresh, maintenance
stopped (R178), debug ended, IDE keys erased, bit 3 of block 12 set. -/
def enterSafe (s : State) (src : Nat) : State :=
  if s.fcu.safe then s
  else
    let s := if s.pcie.dlUp then emit s .errFatal else s
    let s := ((List.range 128).filter (fun p => (s.port p).state = 2)).foldl (fun s p => emit s (.remoteFault p)) s
    let s := loseRecent (endDebug s)
    { s with
      fcu := { s.fcu with safe := true, safeSource := src, safeTime := s.time }
      pins := { s.pins with heartbeat := false, hbRunning := false, selfRefresh := 0xFF }
      pcie := { s.pcie with ideKeys := [] }
      lla := { s.lla with slices := s.lla.slices.map (fun p => (p.1, { p.2 with running := none, pos := {}, sys := [], sysMore := [], sysPos := {} })) }
      wmk := { s.wmk with events := s.wmk.events ||| 8 } }

/-- The record of a raise. -/
def makeRecord (s : State) (src react : Nat) (e : Event) : FaultRec :=
  let sl := s.slice e.slice
  { time := s.time, source := src, cls := (faultClass src).getD 0xFF, reaction := react, slice := e.slice,
    suppressed := Tab.get 0 s.fcu.supp src, epoch := s.chart.epoch, unit := e.unit, addr := e.addr, info0 := e.info0, info1 := e.info1,
    pasid := if e.slice < 64 then sl.pasid else 0, generation := if e.slice < 64 then sl.gen else 0, seq := s.fcu.seq,
    phase := s.fcu.prod / 4096 % 2 = 0 }

/-- Keeps a record in the history and counts it (R444). Its window of suppression begins (R446) (DEDUCED, log 93). -/
def keepRecord (s : State) (src : Nat) (r : FaultRec) : State :=
  { s with fcu := { s.fcu with seq := (s.fcu.seq + 1) % 2 ^ 64, hist := (r :: s.fcu.hist).take 16,
                               last := Tab.set none s.fcu.last src (some s.time), supp := Tab.set 0 s.fcu.supp src 0 } }

/-- Queue full or disabled, and queue write failing (R445). -/
inductive Queued where
  | ok (s : State)
  | full (s : State)
  | failed (s : State)
  deriving DecidableEq, Repr

/-- Puts a record in the queue (R445). -/
def queueRecord (s : State) (r : FaultRec) : Queued :=
  let f := s.fcu
  let drop := { s with fcu := { f with drops := satAdd (2 ^ 64 - 1) f.drops 1 } }
  if !bit f.qBase 0 || (f.prod + 2 ^ 32 - f.cons) % 2 ^ 32 ≥ 4096 then .full drop
  else
    let pa := bits f.qBase 49 18 * 262144 + f.prod % 4096 * 64
    if writeFails s pa 64 then .failed { drop with fcu := { drop.fcu with qBase := f.qBase &&& ~~~1#64 } }
    else
      let s := postWrite s 0 pa r.bytes
      .ok { s with fcu := { s.fcu with prod := (s.fcu.prod + 1) % 2 ^ 32 } }

/-- Reactions below the safe state (R442). -/
def react (s : State) (r : Nat) (e : Event) : State :=
  let s := if r ≥ 1 then fcuInterrupt s else s
  if r = 2 && !s.fcu.safe then fenceSlice s e.slice else s

/-- One raise without the raises it causes: sticky bit, record unless suppressed, queue, reaction. The second part says which
source of class 0 the record's fate raises. -/
def raiseOne (s : State) (src : Nat) (e : Event) : State × Option Nat :=
  let s := { s with fcu := { s.fcu with sticky := s.fcu.sticky ||| (1#1536 <<< src) } }
  let r := reactionOf s src
  let within : Bool := match Tab.get none s.fcu.last src with | some t => decide (s.time < t + 100000) | none => false
  if r = 3 then
    let s := if src = 6 then { s with fcu := { s.fcu with selfFault := true } }
             else if within then { s with fcu := { s.fcu with supp := Tab.set 0 s.fcu.supp src (satAdd 65535 (Tab.get 0 s.fcu.supp src) 1) } }
             else keepRecord s src (makeRecord s src r e)
    (enterSafe s src, none)
  else if within then
    let s := { s with fcu := { s.fcu with supp := Tab.set 0 s.fcu.supp src (satAdd 65535 (Tab.get 0 s.fcu.supp src) 1) } }
    (react s r e, none)
  else
    let rec' := makeRecord s src r e
    let s := keepRecord s src rec'
    if s.fcu.safe then (react s r e, none)
    else match queueRecord s rec' with
      | .ok s => (react s r e, none)
      | .full s => (react s r e, some 0)
      | .failed s => (react s r e, some 1)

/-- Raises a source (R439): a record that is dropped raises source 0, one whose write fails source 1, whose own record may be dropped
in turn (R445) (DEDUCED, log 52). -/
def raise (s : State) (src : Nat) (e : Event) : State :=
  let (s, more) := raiseOne s src e
  match more with
  | none => s
  | some n =>
    if n = src then s
    else
      let (s, more) := raiseOne s n {}
      match more with
      | some 0 => if n = 0 || src = 0 then s else (raiseOne s 0 {}).1
      | _ => s

end Sys2Proof.Machine
end

