-- ==== Sys2Proof/Machine/Translate.lean ====
section
/-!
DEFINITION. Address translation (R179–R198): contexts, walks, held translations, host-view windows, fault records; and the accesses of
engines that name memory by device virtual address.
-/
namespace Sys2Proof.Machine

def State.ctx (s : State) (n : Nat) : GtuCtx := Tab.get {} s.gtu.ctx n
def setCtx (s : State) (n : Nat) (c : GtuCtx) : State := { s with gtu := { s.gtu with ctx := Tab.set {} s.gtu.ctx n c } }

/-- A translation: a physical address with the page's NOALLOC, a fault with REASON and LEVEL (R198), or not yet. -/
inductive Tr where
  | pa (a : Nat) (noalloc : Bool)
  | fault (reason level : Nat)
  | hold
  deriving DecidableEq, Repr

/-- Result of a walk: an entry to install, a fault, or not yet. -/
inductive Walked where
  | leaf (e : TlbEntry)
  | fault (reason level : Nat)
  | hold
  deriving DecidableEq, Repr

/-- Reads one table entry (R185, R186): the value, or the fault of the table page. -/
def readEntry (s : State) (slice tag table idx level : Nat) : State × (Walked ⊕ Nat) :=
  let pa := table + idx * 8
  let okRegion := match s.cfg.locate pa with
    | .hbm r _ _ => r.readMask.getLsbD slice
    | _ => false
  if !okRegion then (s, .inl (.fault 0x04 level))
  else
    let (s, g, bs) := readPart s tag { id := 0, src := .engine tag, opc := 4, addr := pa, reg := slice, ini := 206 } 8
    match g with
    | .hold => (s, .inl .hold)
    | .fail 2 => (s, .inl (.fault 0x05 level))
    | .fail 4 => (s, .inl (.fault 0x09 level))
    | .fail _ => (s, .inl (.fault 0x04 level))
    | .ok _ => (s, .inr (leNat bs))

/-- Whether an entry with V at 1 breaks R182 at a level. -/
def entryReserved (e level : Nat) : Bool :=
  let b := fun i => e.testBit i
  let leaf := b 1
  decide (e >>> 50 ≠ 0) || decide ((e >>> 7) % 32 ≠ 0) || (leaf && level ≥ 3) || (!leaf && level = 0)
    || (!leaf && decide ((e >>> 2) % 32 ≠ 0))
    || (leaf && level = 2 && decide ((e >>> 12) % 2 ^ 18 ≠ 0)) || (leaf && level = 1 && decide ((e >>> 12) % 2 ^ 9 ≠ 0))
    || (leaf && (level = 1 || level = 2) && b 5)

/-- Physical base in an entry. -/
def entryAddr (e : Nat) : Nat := (e >>> 12) % 2 ^ 38 * 4096

/-- The translation a leaf gives. -/
def leafEntry (slice dva e level : Nat) : TlbEntry :=
  let size := if level = 2 then 0x40000000 else if level = 1 then 0x200000 else 0x1000
  { slice := slice, va := dva / size * size, size := size, pa := entryAddr e, r := e.testBit 2, w := e.testBit 3, a := e.testBit 4,
    noalloc := e.testBit 6 }

/-- A leaf at L0 with CONT: the first entry of its group translates the whole 64 KiB where it qualifies (R184). -/
def contLeaf (s : State) (slice tag table dva e : Nat) : State × Walked :=
  let idx := (dva >>> 12) % 512
  let (s, f) := readEntry s slice tag table (idx / 16 * 16) 0
  match f with
  | .inl .hold => (s, .hold)
  | .inl _ => (s, .leaf (leafEntry slice dva e 0))
  | .inr g =>
    if g.testBit 0 && g.testBit 1 && g.testBit 5 && !entryReserved g 0 then
      (s, .leaf { leafEntry slice dva g 0 with va := dva / 65536 * 65536, size := 65536, pa := entryAddr g / 65536 * 65536 })
    else (s, .leaf (leafEntry slice dva e 0))

/-! ## What holds translations (R188) -/

/-- TLB slice of an address of a context. -/
def tlbSlice (slice dva : Nat) : Nat := (Config.tlbHash slice (dva / 0x40000000)).val

/-- Whether a held translation covers an address of a context. -/
def TlbEntry.has (e : TlbEntry) (slice dva : Nat) : Bool := e.slice = slice && e.va ≤ dva && dva < e.va + e.size

/-- Whether two translations are for the same page. -/
def TlbEntry.same (e o : TlbEntry) : Bool := o.slice = e.slice && o.va = e.va && o.size = e.size

/-- The translation the shared TLB holds for an address. -/
def tlbFind (s : State) (slice dva : Nat) : Option TlbEntry := s.gtu.tlb.find? (fun e => e.has slice dva)

/-- The translation the micro-TLB of a port holds for an address. -/
def microFind (s : State) (port slice dva : Nat) : Option TlbEntry := (s.gtu.micro.find? (fun p => p.1 = port && p.2.has slice dva)).map (·.2)

/-- One of a list, chosen by the replacement that the spec leaves open; none of an empty one. -/
def victimOf {α : Type} (n : Nat) (l : List α) : Option α := match l with | [] => none | a :: r => (a :: r)[Config.tlbVictim n % (r.length + 1)]?

/-- Puts a translation in the micro-TLB of a port, which holds 64. -/
def microInstall (s : State) (port : Nat) (e : TlbEntry) : State :=
  let rest := s.gtu.micro.filter (fun p => !(p.1 = port && e.same p.2))
  let mine := rest.filter (fun p => p.1 = port)
  let rest := if mine.length < 64 then rest else match victimOf s.draws mine with | some v => rest.erase v | none => rest
  { s with gtu := { s.gtu with micro := (port, e) :: rest }, draws := if mine.length < 64 then s.draws else s.draws + 1 }

/-- Entries of the shared TLB in the set of an entry: eight ways to a set. -/
def tlbWays (e : TlbEntry) (l : List TlbEntry) : List TlbEntry :=
  l.filter (fun o => tlbSlice o.slice o.va = tlbSlice e.slice e.va && Config.tlbSet o.slice o.va o.size = Config.tlbSet e.slice e.va e.size)

/-- Installs a translation in the shared TLB in place of one of the same page; in a full set it takes the place of one that is not pinned (R188, R202)
(DEDUCED, log 88). -/
def install (s : State) (e : TlbEntry) : State :=
  let rest := s.gtu.tlb.filter (fun o => !e.same o)
  if rest.length < 8 || (tlbWays e rest).length < 8 then { s with gtu := { s.gtu with tlb := e :: rest } }
  else match victimOf s.draws ((tlbWays e rest).filter (fun o => !o.pinned)) with
    | some v => { s with gtu := { s.gtu with tlb := e :: rest.erase v }, draws := s.draws + 1 }
    | none => { s with gtu := { s.gtu with tlb := rest } }

/-- Bytes of DVA that one table of a level covers. -/
def tableSpan (level : Nat) : Nat := 2 ^ (21 + 9 * level)

/-- The table the walk caches let a walk begin at: the lowest level they hold. -/
def cachedTable (s : State) (slice dva : Nat) : Option WalkPtr :=
  (List.range 4).findSome? (fun l => s.gtu.wcache.find? (fun c => c.slice = slice && c.level = l && c.va = dva / tableSpan l * tableSpan l))

/-- Holds a table pointer in the walk cache of its group of walkers, of 512 entries. -/
def cacheTable (s : State) (slice dva level table : Nat) : State :=
  let c : WalkPtr := { slice := slice, level := level, va := dva / tableSpan level * tableSpan level, table := table }
  let rest := s.gtu.wcache.filter (fun o => !(o.slice = c.slice && o.level = c.level && o.va = c.va))
  if rest.length < 512 then { s with gtu := { s.gtu with wcache := c :: rest } }
  else
    let mine := rest.filter (fun o => tlbSlice o.slice o.va / 8 = tlbSlice slice dva / 8)
    if mine.length < 512 then { s with gtu := { s.gtu with wcache := c :: rest } }
    else match victimOf s.draws mine with
      | some v => { s with gtu := { s.gtu with wcache := c :: rest.erase v }, draws := s.draws + 1 }
      | none => s

/-! ## Walks (R180–R188) -/

/-- A walk from where it stands, until it ends or waits (R180–R186): its outcome, and how far it has come. -/
def walkRun (s : State) (w : GtuWalk) (dva : Nat) : Nat → State × Walked × GtuWalk
  | 0 => (s, .hold, w)
  | fuel + 1 =>
    match w.leaf with
    | some e => let (s, r) := contLeaf s w.slice (walkTag w.key) w.table dva e; (s, r, w)
    | none =>
      let (s, r) := readEntry s w.slice (walkTag w.key) w.table ((dva >>> (12 + 9 * w.level)) % 512) w.level
      match r with
      | .inl r => (s, r, w)
      | .inr e =>
        if !e.testBit 0 then (s, .fault 0x01 w.level, w)
        else if entryReserved e w.level then (s, .fault 0x03 w.level, w)
        else if e.testBit 1 then
          if w.level = 0 && e.testBit 5 then walkRun s { w with leaf := some e } dva fuel
          else (s, .leaf (leafEntry w.slice dva e w.level), w)
        else walkRun (cacheTable s w.slice dva (w.level - 1) (entryAddr e)) { w with level := w.level - 1, table := entryAddr e } dva fuel

/-- Walkers in service of the group that serves an address, 32 unless some are retired (R188, R468). -/
def walkersFor (s : State) (slice dva : Nat) : Nat :=
  if s.tel.walkersOut = 0 then 32
  else ((List.range 32).filter (fun i => !s.tel.walkersOut.getLsbD (32 * (tlbSlice slice dva / 8) + i))).length

/-- Walks of the group of walkers that serves an address. -/
def walksWith (s : State) (slice dva : Nat) (ws : List GtuWalk) : List GtuWalk :=
  if ws.length < walkersFor s slice dva then ws else ws.filter (fun w => tlbSlice w.slice (w.page * 4096) / 8 = tlbSlice slice dva / 8)

/-- Whether a walk may begin: a walker is free beyond those for the walks that come before it, in order of arrival and demand walks first (R188). -/
def walkMayStart (s : State) (w : GtuWalk) : Bool :=
  let mine := walksWith s w.slice (w.page * 4096) s.gtu.walks
  let waiting := mine.filter (fun o => !o.started && o.key ≠ w.key)
  let before := (mine.takeWhile (fun o => o.key ≠ w.key)).filter (fun o => !o.started)
  let ahead := if w.prefetch then (waiting.filter (fun o => !o.prefetch)).length + (before.filter (fun o => o.prefetch)).length
    else (before.filter (fun o => !o.prefetch)).length
  (mine.filter (fun o => o.started)).length + ahead < walkersFor s w.slice (w.page * 4096)

/-- Keeps a walk that waits, in its place. -/
def keepWalk (s : State) (w : GtuWalk) : State :=
  { s with gtu := { s.gtu with walks := if s.gtu.walks.any (fun o => o.key = w.key) then s.gtu.walks.map (fun o => if o.key = w.key then w else o) else s.gtu.walks ++ [w] } }

/-- Ends the walk of a requester, with its reads. -/
def dropWalk (s : State) (key : Nat) : State :=
  if s.gtu.walks.any (fun o => o.key = key) then
    { s with gtu := { s.gtu with walks := s.gtu.walks.filter (fun o => o.key ≠ key) },
             txns := s.txns.filterMap (fun t => if t.src = .engine (walkTag key) then t.abandon else some t) }
  else s

/-- A walk in a slice's context for a requester (R186): it goes on where it stood if it waited for the same page. -/
def walk (s : State) (key slice dva : Nat) (prefetch : Bool := false) : State × Walked :=
  let c := s.ctx slice
  let st := (s.slice slice).state
  if !bit c.root 0 || (s.slice slice).pasid = 0 || st = 0 || st = 6 then (dropWalk s key, .fault 0x08 7)
  else
    let held := s.gtu.walks.find? (fun w => w.key = key && w.slice = slice && w.page = dva / 4096)
    let s := if held.isSome then s else dropWalk s key
    let start : GtuWalk := { key := key, slice := slice, page := dva / 4096, prefetch := prefetch }
    let w := held.getD start
    if !w.started && !walkMayStart s w then (keepWalk s w, .hold)
    else
      let w := if w.started then w else
        match cachedTable s slice dva with
        | some p => { w with started := true, level := p.level, table := p.table }
        | none => { w with started := true, level := 4, table := bits c.root 49 12 * 4096 }
      let (s, r, w) := walkRun s w dva 6
      match r with
      | .hold => (keepWalk s w, .hold)
      | r => (dropWalk s key, r)

/-- Level of a held page, by its size. -/
def TlbEntry.level (e : TlbEntry) : Nat := if e.size = 0x40000000 then 2 else if e.size = 0x200000 then 1 else 0

/-- Records a fault in a context (R187, R197). -/
def recordFault (s : State) (slice addr port level access reason : Nat) : State :=
  let c := s.ctx slice
  if bit c.faultInfo 63 then setCtx s slice { c with faultInfo := c.faultInfo ||| (1#64 <<< 62) }
  else setCtx s slice { c with
    faultAddr := BitVec.ofNat 64 addr
    faultInfo := BitVec.ofNat 64 (2 ^ 63 + flag (bit c.faultInfo 62) 62 + fld port 23 20 + fld level 19 16 + fld access 15 12 + fld reason 7 0) }

/-- Whether a migration holds writes to an address (R199). -/
def writeHeld (s : State) (slice dva : Nat) : Bool := s.gtu.holds.any (fun h => h.slice = slice && h.va ≤ dva && dva < h.va + h.size)

/-- Counts a walk that ended (R187). -/
def countWalk (s : State) (slice : Nat) (prefetch : Bool) : State :=
  let c := s.ctx slice
  setCtx s slice (if prefetch then { c with prewalks := c.prewalks + 1 } else { c with walks := c.walks + 1 })

/-- Finds the translation of an address in the shared TLB, or walks and installs it, counting the walk when it ends (R187, R188). -/
def lookupOrWalk (s : State) (key slice dva : Nat) (prefetch : Bool := false) : State × Walked :=
  match tlbFind s slice dva with
  | some e => (dropWalk s key, .leaf e)
  | none =>
    match walk s key slice dva prefetch with
    | (s, .hold) => (s, .hold)
    | (s, .leaf e) => (install (countWalk s slice prefetch) e, .leaf e)
    | (s, .fault r l) => (if r = 0x08 then s else countWalk s slice prefetch, .fault r l)

/-- The translation of an address at a port: its micro-TLB's, or what the shared TLB or a walk gives, which the micro-TLB then holds (R188). -/
def portLookup (s : State) (key slice port dva : Nat) : State × Walked :=
  match microFind s port slice dva with
  | some e => (s, .leaf e)
  | none =>
    match lookupOrWalk s key slice dva with
    | (s, .leaf e) => (microInstall s port e, .leaf e)
    | x => x

/-- Translates an access of a slice at a port for a requester: 0 read, 1 write, 2 atomic (R179, R183, R197). -/
def translate (s : State) (key slice port access dva : Nat) : State × Tr :=
  if dva ≥ 2 ^ 57 then (recordFault s slice dva port 7 access 0x06, .fault 0x06 7)
  else if access ≠ 0 && writeHeld s slice dva then (s, .hold)
  else
    let (s, w) := portLookup s key slice port dva
    match w with
    | .hold => (s, .hold)
    | .fault r l => (recordFault s slice dva port l access r, .fault r l)
    | .leaf e =>
      let ok := match access with | 0 => e.r | 1 => e.w | _ => e.a
      if ok then (s, .pa (e.pa + (dva - e.va)) e.noalloc)
      else (recordFault s slice dva port e.level access 0x02, .fault 0x02 e.level)

/-- Converts an HVA through the lowest valid window that covers it (R191, R192). -/
def hostView (wins : Tab HvWin) (hva : Nat) : Option Nat :=
  ((List.range 16).find? (fun w =>
    let x := Tab.get {} wins w
    bit x.hva 0 && bits x.size 56 21 ≠ 0 && bits x.hva 63 21 * 2097152 ≤ hva && hva < bits x.hva 63 21 * 2097152 + bits x.size 56 21 * 2097152)).map
    (fun w => (hva + bits (Tab.get {} wins w).delta 63 21 * 2097152) % 2 ^ 64)

/-! ## Engines -/

/-- An engine at work: its tag, the slice whose context and masks apply, its translation port, the regulator charged, its counter set,
NOALLOC, and the host-view windows with which an address is converted first, if it is an HVA. -/
structure Eng where
  tag : Nat
  slice : Nat
  port : Nat
  reg : Nat
  ini : Nat
  noalloc : Bool := false
  hv : Option (Tab HvWin) := none
  deriving DecidableEq, Repr

/-- Answer to an engine: bytes, a status of R215 with its REASON, or not yet. -/
inductive Eres where
  | ok (bs : List Byte)
  | fail (status reason : Nat)
  | hold
  deriving DecidableEq, Repr

/-- The physical address of an engine's access. -/
def Eng.translate (e : Eng) (s : State) (access addr : Nat) : State × Tr :=
  match e.hv with
  | none => Machine.translate s e.tag e.slice e.port access addr
  | some wins =>
    match hostView wins addr with
    | none => (recordFault s e.slice addr e.port 7 access 0x07, .fault 0x07 7)
    | some dva => if dva ≥ 2 ^ 57 then (recordFault s e.slice dva e.port 7 access 0x06, .fault 0x06 7) else Machine.translate s e.tag e.slice e.port access dva

def Eng.txn (e : Eng) (pa : Nat) (na : Bool) : Txn :=
  { id := 0, src := .engine e.tag, opc := 4, addr := pa, slice := some e.slice, reg := e.reg, ini := e.ini, noalloc := e.noalloc || na }

/-- Reads `n` bytes within one line. -/
def Eng.read (e : Eng) (s : State) (addr n : Nat) : State × Eres :=
  let (s, t) := e.translate s 0 addr
  match t with
  | .hold => (s, .hold)
  | .fault r _ => (s, .fail 3 r)
  | .pa a na =>
    let (s, g, bs) := readPart s e.tag (e.txn a na) n
    (s, match g with | .ok _ => .ok bs | .fail st => .fail st 0 | .hold => .hold)

/-- Writes bytes within one line. -/
def Eng.write (e : Eng) (s : State) (addr : Nat) (bs : List Byte) : State × Eres :=
  let (s, t) := e.translate s 1 addr
  match t with
  | .hold => (s, .hold)
  | .fault r _ => (s, .fail 3 r)
  | .pa a na =>
    let (s, g) := writePart s e.tag (e.txn a na) bs
    (s, match g with | .ok _ => .ok [] | .fail st => .fail st 0 | .hold => .hold)

/-- A 64-bit atomic at an aligned address: opcode of R210, UNSIGNED set. -/
def Eng.atomic (e : Eng) (s : State) (addr opc op0 : Nat) : State × Eres :=
  let (s, t) := e.translate s 2 addr
  match t with
  | .hold => (s, .hold)
  | .fault r _ => (s, .fail 3 r)
  | .pa a na =>
    let (s, g) := access s e.tag { e.txn a na with opc := opc, attr := 3, op0 := op0 }
    (s, match g with | .ok v => .ok (leBytes 8 v.toNat) | .fail st => .fail st 0 | .hold => .hold)

/-- Bytes from an address up to the end of its line, at most `n`. -/
def lineRest (addr n : Nat) : Nat := min n (128 - addr % 128)

/-- Reads `n` bytes, line by line; `fuel` bounds the lines. -/
def Eng.readSpan (e : Eng) : Nat → State → Nat → Nat → State × Eres
  | 0, s, _, n => (s, if n = 0 then .ok [] else .hold)
  | fuel + 1, s, addr, n =>
    if n = 0 then (s, .ok [])
    else
      let k := lineRest addr n
      let (s, r) := e.read s addr k
      match r with
      | .ok bs =>
        let (s, r2) := e.readSpan fuel s (addr + k) (n - k)
        (s, match r2 with | .ok bs2 => .ok (bs ++ bs2) | x => x)
      | x => (s, x)

/-- Writes bytes, line by line. -/
def Eng.writeSpan (e : Eng) : Nat → State → Nat → List Byte → State × Eres
  | 0, s, _, bs => (s, if bs.isEmpty then .ok [] else .hold)
  | fuel + 1, s, addr, bs =>
    match bs with
    | [] => (s, .ok [])
    | _ =>
      let k := lineRest addr bs.length
      let (s, r) := e.write s addr (bs.take k)
      match r with
      | .ok _ => e.writeSpan fuel s (addr + k) (bs.drop k)
      | x => (s, x)

/-- Status of R302 for a status of R215. -/
def recordStatus (st : Nat) : Nat :=
  match st with
  | 0 => 0
  | 1 => 3
  | 2 => 4
  | 3 => 2
  | 4 => 7
  | n => n

/-- Status of R83 for a status of R215. -/
def tmStatus (st : Nat) : Nat :=
  match st with
  | 1 => 2
  | 2 => 3
  | 3 => 1
  | 4 => 8
  | 5 => 4
  | 6 => 5
  | 8 => 7
  | n => n

end Sys2Proof.Machine
end

