-- ==== Sys2Proof/Machine/Finish.lean ====
section
/-!
DEFINITION. When an engine's work is complete at FABRIC scope (R234, R249): its lines written into the array reach their owners, its
packets are acknowledged, and its writes to host memory are followed by a flush read.
-/
namespace Sys2Proof.Machine

/-- Whether an engine's work is complete, must wait, or failed with a status of R215. -/
inductive WorkEnd where
  | done
  | wait
  | fail (status : Nat)
  deriving DecidableEq

/-- The way that holds a line of a REMOTE region dirty: home slice, set and way. -/
def dirtyRemote (s : State) (line : Nat) : Option (Nat × Nat × Nat) :=
  match s.cfg.locate (line * 128) with
  | .remote _ j st => ((if llaOn s then lookup s j st line else none).filter (fun w => (s.way j st w).dirty)).map (fun w => (j, st, w))
  | _ => none

/-- Whether a write of a line is on its way to the line's owner. -/
def openWrite (s : State) (line : Nat) : Bool := s.rops.any (fun o => o.kind = 1 && o.line = line && o.done = none)

/-- A line that an engine wrote into the array goes to its owner as an operation of the engine's; the engine waits for one that another initiator or an
eviction has sent, and for one that cannot go now (R234). -/
def flushLine (s : State) (tag slice line : Nat) : State :=
  let off := fun (s : State) => { s with lla := { s.lla with owed := s.lla.owed.filter (· ≠ (tag, line)) } }
  match dirtyRemote s line with
  | none => if openWrite s line then s else off s
  | some (j, st, w) =>
    let l := s.way j st w
    match writeBackFor s tag true j slice 127 l with
    | none => s
    | some (s, _) => off (setWay s j st w { l with dirty := false })

/-- Writes back the lines of REMOTE regions an engine wrote into the array, each as soon as it can go. -/
def flushOwed (s : State) (tag slice : Nat) : State := (s.lla.owed.filter (fun p => p.1 = tag)).foldl (fun s p => flushLine s tag slice p.2) s

/-- Starts the flush read behind an engine's writes to host memory (R234). -/
def startFlush (s : State) (tag : Nat) (bus : Nat) (pasid : Option Nat) : State :=
  let id := s.nx.nextOpid % 2 ^ 32
  let op : ROp := { id := id, tag := tag, target := .host bus pasid, kind := 3, addr := 0, len := 4, sentAt := s.time }
  emit { s with rops := s.rops ++ [op], nx := { s.nx with nextOpid := s.nx.nextOpid + 1 } } (.tlp id 3 bus pasid 4 [])

/-- An engine's writes brought to completion at FABRIC scope: the state, and where it stands. -/
def finishWrites (s : State) (tag slice : Nat) : State × WorkEnd :=
  let s := flushOwed s tag slice
  if s.lla.owed.any (fun p => p.1 = tag) || tagBusy s tag then (s, .wait)
  else match tagFailure s tag with
    | some st => (s, .fail st)
    | none =>
      let mine := s.rops.filter (fun o => o.tag = tag)
      if mine.any (fun o => o.kind = 3) then (s, .done)
      else match mine.findSome? (fun o => match o.target with | .host b p => if o.kind = 1 then some (b, p) else none | _ => none) with
        | none => (s, .done)
        | some (b, p) => if !s.pcie.dlUp then (s, .fail 6) else if linkBusy s then (s, .wait) else (startFlush s tag b p, .wait)

/-- Forgets an engine's finished work. -/
def endWork (s : State) (tag : Nat) : State :=
  releaseTag { s with lla := { s.lla with owed := s.lla.owed.filter (fun p => p.1 ≠ tag), owedFail := s.lla.owedFail.filter (fun p => p.1 ≠ tag) } } tag

/-- Forgets what has failed of an engine's work that ends in a failure or an abort; its writes are still awaited (R301). -/
def endFailed (s : State) (tag : Nat) : State :=
  releaseTag { s with lla := { s.lla with owedFail := s.lla.owedFail.filter (fun p => p.1 ≠ tag) } } tag

/-- Whether a write or atomic of an engine's has been handed to the Meridian transport or the endpoint's transmit path (R234). -/
def handedOver (s : State) (t : Txn) : Bool :=
  t.stage = .remote && t.snp.isNone && s.rops.any (fun o => t.rop = some o.id && (o.kind = 1 || o.kind = 2 && t.opc ≥ 0x10))

/-- Whether every access an engine has issued is complete at MODULE scope (R234). -/
def moduleDone (s : State) (tag : Nat) : Bool := !s.txns.any (fun t => t.src = .engine tag && t.active && !handedOver s t)

/-- Whether a transaction is a failed access of an engine's within the module. -/
def failedHere (tag : Nat) (t : Txn) : Bool := t.src = .engine tag && t.stage = .ready && t.status ≠ 0 && t.rop.isNone

/-- The failure of an access within the module, if any: of the last one issued, since an engine waits for each at MODULE scope. -/
def moduleFailure (s : State) (tag : Nat) : Option Nat := (s.txns.find? (failedHere tag)).map (·.status)

/-- What an engine has under way passes to another tag. -/
def retag (s : State) (old new : Nat) : State :=
  let swap := fun (n : Nat) => if n = old then new else n
  { s with
    txns := s.txns.map (fun t => if t.src = .engine old then { t with src := .engine new } else t)
    rops := s.rops.map (fun o => { o with tag := swap o.tag })
    lla := { s.lla with owed := s.lla.owed.map (fun p => (swap p.1, p.2)), owedFail := s.lla.owedFail.map (fun p => (swap p.1, p.2)) }
    noc := { s.noc with pads := s.noc.pads.map (fun p => { p with tag := swap p.tag }) } }

/-! ## Accesses by physical address -/

/-- A unit of the hub that names memory by physical address: its tag, regulator and counter set (127 and 999 for none). -/
structure Hub where
  tag : Nat
  reg : Nat := 127
  ini : Nat := 999
  deriving DecidableEq, Repr

def Hub.txn (h : Hub) (pa : Nat) : Txn := { id := 0, src := .engine h.tag, opc := 4, addr := pa, reg := h.reg, ini := h.ini }

/-- Reads `n` bytes, line by line; `fuel` bounds the lines. -/
def Hub.read (h : Hub) : Nat → State → Nat → Nat → State × Eres
  | 0, s, _, n => (s, if n = 0 then .ok [] else .hold)
  | fuel + 1, s, pa, n =>
    if n = 0 then (s, .ok [])
    else
      let k := lineRest pa n
      let (s, g, bs) := readPart s h.tag (h.txn pa) k
      match g with
      | .hold => (s, .hold)
      | .fail st => (s, .fail st 0)
      | .ok _ =>
        let (s, r) := h.read fuel s (pa + k) (n - k)
        (s, match r with | .ok bs2 => .ok (bs ++ bs2) | x => x)

/-- Writes bytes, line by line. -/
def Hub.write (h : Hub) : Nat → State → Nat → List Byte → State × Eres
  | 0, s, _, bs => (s, if bs.isEmpty then .ok [] else .hold)
  | fuel + 1, s, pa, bs =>
    match bs with
    | [] => (s, .ok [])
    | _ =>
      let k := lineRest pa bs.length
      let (s, g) := writePart s h.tag (h.txn pa) (bs.take k)
      match g with
      | .hold => (s, .hold)
      | .fail st => (s, .fail st 0)
      | .ok _ => h.write fuel s (pa + k) (bs.drop k)

end Sys2Proof.Machine
end

