-- ==== Sys2Proof/Machine/Sites.lean ====
section
/-!
DEFINITION. Sites (R19, R28–R31, R434): power, clock and reset steps, link training, site resets, loss of a link and retirement of
cores.
-/
namespace Sys2Proof.Machine

/-- A site that carries traffic: UP or DEGRADED. -/
def siteUp (s : State) (k : Nat) : Bool := (s.site k).state = 4 || (s.site k).state = 5

/-- Whether a site is occupied by something the hub accepts (R4, R29); M-sites always are. -/
def occupiedSite (s : State) (k : Nat) : Bool := k ≥ 8 || siteCode s k = 1 || siteCode s k = 2 || siteCode s k = 8 || siteCode s k = 9

/-- Whether bring-up step `n` (1 CLOCKS … 4 LLA_INIT) is DONE. -/
def stepDone (s : State) (n : Nat) : Bool := s.glb.doneMask.getLsbD (n - 1)

/-- Poisons a line where it lives (R30, R169, R170): its array way, a scratch way, or memory. -/
def poisonLine (s : State) (pa : Nat) : State :=
  match s.cfg.locate pa with
  | .scratch j w st => setWay s j st w { s.way j st w with poison := true }
  | .hbm _ ch ca =>
    match (if llaOn s then lookup s (ch / 8) (llaSet ch ca) (pa / 128) else none) with
    | some w => setWay s (ch / 8) (llaSet ch ca) w { s.way (ch / 8) (llaSet ch ca) w with poison := true, dirty := true }
    | none =>
      let key := memKey ch ca / 128
      if s.poison.contains key then s else { s with poison := key :: s.poison }
  | .remote _ j st =>
    match (if llaOn s then lookup s j st (pa / 128) else none) with
    | some w => setWay s j st w { s.way j st w with poison := true, dirty := true }
    | none => s
  | .unmapped => s

/-- What becomes of an outstanding request of a site whose traffic is resolved (R30): one that waits for the site's own message ends, but that the
snoops of a write are still awaited as a recall's are; any other completes at the hub as a request of the hub's own, so that its responses reach
nobody and no line is granted. -/
def orphan (k : Nat) (t : Txn) : Option Txn :=
  match t.src with
  | .agent j txn =>
    if j ≠ k then some t
    else if t.stage = .snooping && (t.opc = 5 || t.opc = 6) then some { t with src := .recall t.id }
    else if t.stage = .needAck || ((t.opc = 5 || t.opc = 6 || t.opc = 7) && !t.haveData) then none
    else some { t with src := .posted (0x100000 + 65536 * k + txn), stage := if t.stage = .needData then .queued else t.stage }
  | _ => some t

/-- Resolves a site's traffic (R30): its requests complete at the hub unseen, snoops to it are answered GONE, and every line the directory
records as held by it is dropped from it. A line recorded in X may be M, and goes home poisoned (DEDUCED, log 15). -/
def resolveSite (s : State) (k : Nat) : State :=
  let walking := fun (t : Txn) => t.untranslated && t.agent = some k
  let s := (s.txns.filter walking).foldl (fun s t => dropWalk s t.src.tag) s
  let s := { s with txns := s.txns.filterMap (orphan k) }
  let s := s.txns.foldl (fun s t => if t.stage = .snooping && t.wait.contains k then snoopAnswered s t.id k 0 none else s) s
  let s := s.lla.dir.foldl (fun s p =>
    let e := p.2
    let s := if e.st = .exclusive ⟨k % 8, Nat.mod_lt _ (by decide)⟩ && k < 8 then poisonLine s (e.line * 128) else s
    if k < 8 then setDir s (e.line * 128) (e.st.without k) else s) s
  settle (setDk s k { (s.site k).dk with outbox := [], outstanding := [] })

/-- The core whose access is held. -/
def HeldAcc.src : HeldAcc → Nat
  | .store src _ _ => src
  | .post src _ _ => src

/-- Retires a core in place (R434, R440): a hole, a fault record, and for a Survey failure a retirement fuse. A core whose store or SEMPOST was held for
it stops with LOCAL_RETIRED (R90). -/
def retireCore (s : State) (c : Nat) (fuse : Bool) : State :=
  let x := s.core c
  if x.st = .retired then s
  else
    let s := setCore s c { x with st := .retired, hold := .none, survey := false, matq := [], heldAcc := [],
                                  tq := x.tq.map (fun p => (p.1, { p.2 with q := p.2.q.filter (·.started) })) }
    let s := x.heldAcc.foldl (fun s a => stopCore s a.src 0x05 (BitVec.ofNat 64 (c % 24))) s
    let s := { s with glb := { s.glb with retiredCores := s.glb.retiredCores + 1, retiredUnits := s.glb.retiredUnits + 1 } }
    let lg := (logicalOf s c).getD 0
    let s := raise s (256 + c) { slice := (sliceOfCore s c).getD 0xFF, unit := lg }
    if !fuse then s
    else if s.fuses.retire.length ≥ 64 then raise s 4 { unit := lg }
    else { s with fuses := { s.fuses with retire := s.fuses.retire ++ [c] }, glb := { s.glb with retiredFused := s.glb.retiredFused + 1 } }

/-- Numbered cores of a C-site. -/
def numberedCores (s : State) (k : Nat) : List Nat := s.glb.logical.filter (fun c => c / 24 = k)

/-- A C-site shows RETIRED once every numbered core on it is retired (R433). -/
def siteRetired (s : State) (k : Nat) : State :=
  let cs := numberedCores s k
  if k < 6 && !cs.isEmpty && cs.all (fun c => (s.core c).st = .retired) && siteUp s k then setSite s k { s.site k with state := 7 } else s

/-- A Felt boot in progress ends FAILED with ERROR SITE when its site leaves UP (R438). -/
def feltLeaves (s : State) (k : Nat) : State :=
  if k = 6 || k = 7 then
    { s with glb := { s.glb with felt := Tab.modify {} s.glb.felt (k - 6) (fun f => if f.state = 1 || f.state = 2 then { f with state := 4, error := 1 } else f) } }
  else s

/-- The channels of a stack that fails: their requests end, and after OPEN they stay out of service for the epoch (R432) (DEDUCED, log 162). -/
def failChannels (s : State) (k : Nat) : State :=
  if k < 8 then s
  else
    let cs := (List.range 32).map (fun i => 32 * (k - 8) + i)
    let s := cs.foldl (fun s c => setChan s c 3) s
    { s with chOut := if s.glb.open_ then s.chOut ++ cs.filter (fun c => !s.chOut.contains c) else s.chOut }

/-- A site fails (R19, R30, R31, R430, R434): its traffic is resolved, and after OPEN its cores are retired in place, not fused. -/
def failSite (s : State) (k : Nat) (linkErr : Bool) : State :=
  let x := s.site k
  let s := setSite s k { x with state := 6, unitsUp := 0, linkErr := x.linkErr || linkErr, stopAt := none }
  let s := failChannels (feltLeaves (resolveSite s k) k) k
  let s := if stepDone s 3 then raise s (80 + k) { unit := k } else s
  let s := if s.glb.open_ && k < 6 then (numberedCores s k).foldl (fun s c => retireCore s c false) s else s
  settle s

/-- Core reset by a site reset (R85): every core of the site is held in RESET. -/
def resetCores (s : State) (k : Nat) : State :=
  if k ≥ 6 then s
  else (List.range 24).foldl (fun s n =>
    let x := s.core (24 * k + n)
    if x.st = .retired then s else setCore s (24 * k + n) { x with st := .reset, hold := .none, survey := false }) s

/-- What a stack loses when its domain is switched off: its bytes are undefined (log 16). -/
def loseStack (s : State) (m : Nat) : State :=
  let lo := memKey (32 * m) 0
  let len := 32 * 4294967296
  { s with mem := s.mem.filter (fun p => !(lo ≤ p.1 && p.1 < lo + len)), poison := s.poison.filter (fun l => !(lo / 128 ≤ l && l < (lo + len) / 128)),
           undef := { lo := lo, len := len, gen := s.draws } :: punch lo len s.undef, draws := s.draws + 1 }

/-- Felt firmware is loaded again after a site reset (R435): STATE is IDLE, or FAILED where a boot was in progress (R438) (DEDUCED, log 162). -/
def feltIdle (s : State) (k : Nat) : State :=
  if k = 6 || k = 7 then
    let h := k - 6
    { s with glb := { s.glb with felt := Tab.modify {} s.glb.felt h (fun f => if f.state = 1 || f.state = 2 then { f with state := 4, error := 1 } else { f with state := 0, error := 0 }),
                                 feltReady := s.glb.feltReady &&& ~~~(1#2 <<< h) } }
  else s

/-- The CTL bits from `b` up are cleared and the site goes to state `st` (R31). -/
def dropTo (s : State) (k b st : Nat) : State :=
  let x := s.site k
  let x := { x with pwrReq := x.pwrReq && b > 0, clkFwd := x.clkFwd && b > 1, rstRel := x.rstRel && b > 2, train := false, unitsUp := 0,
                    state := st, stopAt := none }
  let s := setSite s k x
  let s := if b ≤ 2 then feltIdle (resetCores s k) k else s
  let s := if k ≥ 8 then (List.range 32).foldl (fun s i =>
      let c := 32 * (k - 8) + i
      setChan s c (if s.chOut.contains c then 3 else 0)) s
    else s
  if b = 0 then
    let s := { s with tel := { s.tel with pd := Tab.modify {} s.tel.pd (8 + k) (fun p => { p with state := 0 }) } }
    if k ≥ 8 then loseStack s (k - 8) else s
  else s

/-- Training stops at once: requests held for the channels of a stack that trained complete with UNIT_RETIRED (R31, R427). -/
def endTraining (s : State) (k : Nat) : State :=
  if k < 8 then s else settle ((List.range 32).foldl (fun s i => setChan s (32 * (k - 8) + i) 3) s)

/-- State at which a site stops when the bit is cleared. -/
def stopState (b : Nat) : Nat := match b with | 0 => 0 | 1 => 1 | _ => 2

/-- A site that carries traffic holds at HELD until it is resolved, and then stops where bit `b` selects (R30, R31). -/
def stopping (s : State) (k b : Nat) : State :=
  let s := dropTo s k (max b 1) 2
  setSite s k { s.site k with pwrReq := (s.site k).pwrReq && b > 0, stopAt := some (stopState b) }

/-- SITE_PWR_REQ (R29 step 1): accepted at OFF with ROOT_LOCK, at an occupied site; the domain ramps, unless tripped (R464, R487). -/
def execSitePwrReq (site : Fin 16) (s : State) : Host.Outcome State Fault Refusal :=
  let x := s.site site
  .next (if x.state = 0 && !x.pwrReq && s.clk.rootLock && occupiedSite s site && !s.pins.thermTrip && !s.quiet then
    let s := setSite s site { x with pwrReq := true }
    { s with tel := { s.tel with pd := Tab.modify {} s.tel.pd (8 + site.val) (fun p => { p with state := 1 }) } }
  else s)

/-- SITE_POWERED (R29 step 2). -/
def execSitePowered (site : Fin 16) (s : State) : Host.Outcome State Fault Refusal :=
  let x := s.site site
  .next (if x.state = 0 && x.pwrReq && !s.quiet then
    let s := setSite s site { x with state := 1 }
    { s with tel := { s.tel with pd := Tab.modify {} s.tel.pd (8 + site.val) (fun p => { p with state := 2 }) } }
  else s)

/-- SITE_CLK_FWD (R29 step 3). -/
def execSiteClkFwd (site : Fin 16) (s : State) : Host.Outcome State Fault Refusal :=
  let x := s.site site
  .next (if x.state = 1 && x.pwrReq && !x.clkFwd && !s.quiet then setSite s site { x with clkFwd := true } else s)

/-- SITE_HELD (R29 step 4). -/
def execSiteHeld (site : Fin 16) (s : State) : Host.Outcome State Fault Refusal :=
  let x := s.site site
  .next (if x.state = 1 && x.clkFwd && !s.quiet then setSite s site { x with state := 2 } else s)

/-- SITE_RST_REL (R29 step 5): the reset is released, and the port's counters are cleared (R229). -/
def execSiteRstRel (site : Fin 16) (s : State) : Host.Outcome State Fault Refusal :=
  let x := s.site site
  .next (if x.state = 2 && x.stopAt.isNone && x.clkFwd && !x.rstRel && !s.quiet then
    setSite s site { x with rstRel := true, dk := { snoopTimeout := x.dk.snoopTimeout } }
  else s)

/-- SITE_TRAIN (R29 step 6). -/
def execSiteTrain (site : Fin 16) (s : State) : Host.Outcome State Fault Refusal :=
  let x := s.site site
  .next (if x.state = 2 && x.stopAt.isNone && x.rstRel && !x.train && !s.quiet then setSite s site { x with train := true, state := 3 } else s)

/-- Number of ones in the low `n` bits. -/
def ones (n v : Nat) : Nat := ((List.range n).filter (fun i => v.testBit i)).length

/-- Width of one direction of a module after lane repair (R19): 2 full, 1 on one half, 0 out; with the data lanes substituted. `ctlOk` says that no
clock, valid or track lane failed beyond its spare. Of two halves that qualify the module runs on lanes 0–31 (DESIGN CHOICE, log 135). -/
def laneRepair (lanes : BitVec 64) (ctlOk : Bool) : Nat × Nat :=
  let all := ones 64 lanes.toNat
  let lo := ones 32 lanes.toNat
  if all ≤ 4 && ctlOk then (2, all)
  else if lo ≤ 4 then (1, lo)
  else if all - lo ≤ 4 then (1, all - lo)
  else (0, 0)

/-- Clock, valid and track lanes `lo` to `lo + 2` of a module: whether each has its lane or its spare, and how many are substituted (R19). -/
def ctlRepair (ctl : BitVec 12) (lo : Nat) : Bool × Nat :=
  let three := [lo, lo + 1, lo + 2]
  (three.all (fun i => !(ctl.getLsbD (2 * i) && ctl.getLsbD (2 * i + 1))),
   (three.filter (fun i => ctl.getLsbD (2 * i) && !ctl.getLsbD (2 * i + 1))).length)

/-- A module after training: its width (the worse of its directions, log 17) and its substituted lanes. -/
def moduleWidth (m : ModTrain) : Nat × Nat :=
  let (okOut, co) := ctlRepair m.ctl 0
  let (okIn, ci) := ctlRepair m.ctl 3
  let (wo, ro) := laneRepair m.outLanes okOut
  let (wi, ri) := laneRepair m.inLanes okIn
  let w := min wo wi
  (w, if w = 0 then 0 else ro + ri + co + ci)

/-- The lanes failed at training with those marked failed at manufacture (R19). -/
def withFused (s : State) (k i : Nat) (m : ModTrain) : ModTrain :=
  let f : ModTrain := Tab.get {} s.fuses.lanes (16 * k + i)
  { outLanes := m.outLanes ||| f.outLanes, inLanes := m.inLanes ||| f.inLanes, ctl := m.ctl ||| f.ctl }

/-- UCIe modules fitted at a C- or H-site (R18). -/
def modulesFitted (k : Nat) : Nat := if k < 6 then 16 else 6

/-- Whether a site that trained to DEGRADED is one that fails: after OPEN, where DEGRADED_OK is 0 (R40; before OPEN it fails there, R430). -/
def refusesDegraded (s : State) (k : Nat) : Bool :=
  s.glb.open_ && (match s.cfg.sites[k]? with | some r => r.degradedOk ≠ 1 | none => true)

/-- SITE_TRAINING_DONE (R19, R29 step 7, R40, R173): the modules' widths decide UP, DEGRADED or FAILED; a stack's untrained channels are
out of service, and a channel that failed earlier stays so (R432). Modules not listed trained without a failed lane (DEDUCED, log 89). -/
def execSiteTrainingDone (site : Fin 16) (mods : List ModTrain) (chFailed : BitVec 32) (s : State) : Host.Outcome State Fault Refusal :=
  let k := site.val
  let x := s.site k
  .next (if x.state ≠ 3 || s.quiet then s
  else if k < 8 then
    let fitted := modulesFitted k
    let ws := (List.range fitted).map (fun i => moduleWidth (withFused s k i ((mods[i]?).getD {})))
    let total := (ws.map (·.1)).sum
    let up := (ws.filter (fun w => w.1 > 0)).length
    let rep := min 255 (ws.map (·.2)).sum
    let st := if total = 2 * fitted then 4 else if total ≥ fitted then 5 else 6
    if st = 6 || (st = 5 && refusesDegraded s k) then failSite (setSite s k { x with lanesRepaired := rep }) k false
    else settle (setSite s k { x with state := st, unitsUp := up, lanesRepaired := rep })
  else
    let old := (List.range 32).filter (fun i => s.chOut.contains (32 * (k - 8) + i))
    let bad := (List.range 32).filter (fun i => chFailed.getLsbD i && !old.contains i)
    let out := fun (i : Nat) => chFailed.getLsbD i || old.contains i
    let up := ((List.range 32).filter (fun i => !out i)).length
    let s := { s with chOut := s.chOut ++ bad.map (fun i => 32 * (k - 8) + i) }
    if up = 0 || (up < 32 && refusesDegraded s k) then
      bad.foldl (fun s i => raise s (656 + 32 * (k - 8) + i) { unit := 32 * (k - 8) + i }) (failSite s k false)
    else
      let s := setSite s k { x with state := if up = 32 then 4 else 5, unitsUp := up }
      let s := { s with pins := { s.pins with selfRefresh := s.pins.selfRefresh &&& ~~~(1#8 <<< (k - 8)) },
                        hstacks := Tab.modify {} s.hstacks (k - 8) (fun (x : Stack) => { x with cal := (List.range 32).foldl (fun t i => Tab.set (0, 0) t i (s.time, x.temp)) [] }) }
      let s := (List.range 32).foldl (fun s i => setChan s (32 * (k - 8) + i) (if out i then 3 else 1)) s
      settle (bad.foldl (fun s i => raise s (656 + 32 * (k - 8) + i) { unit := 32 * (k - 8) + i }) s))

/-- SITE_RESET (R30, R31): an UP or DEGRADED site goes to HELD until its traffic is resolved; training stops; HELD and FAILED go to
POWERED. -/
def execSiteReset (site : Fin 16) (s : State) : Host.Outcome State Fault Refusal :=
  let k := site.val
  let x := s.site k
  .next (if !occupiedSite s k || s.quiet then s
  else match x.state with
    | 4 => stopping s k 1
    | 5 => stopping s k 1
    | 3 => settle (dropTo (endTraining s k) k 1 1)
    | 2 => if x.stopAt.isSome then s else dropTo s k 1 1
    | 6 => dropTo s k 1 1
    | _ => s)

/-- SITE_RESET_RESOLVED (R30, R31): the traffic is resolved, and the site stops at the state the cleared bit selected. -/
def execSiteResetResolved (site : Fin 16) (s : State) : Host.Outcome State Fault Refusal :=
  let k := site.val
  .next (match (s.site k).stopAt with
  | none => s
  | some st => if s.quiet then s else
    let s := resolveSite s k
    let s := setSite s k { s.site k with state := st, stopAt := none }
    if st = 0 then
      let s := { s with tel := { s.tel with pd := Tab.modify {} s.tel.pd (8 + k) (fun p => { p with state := 0 }) } }
      if k ≥ 8 then loseStack s (k - 8) else s
    else s)

/-- SITE_CTL_CLEAR (R31): PWR_REQ, CLK_FWD or RST_REL is cleared, with every bit above it. While an earlier stop is being resolved a write is
discarded, as one of SITE_RESET is (DESIGN CHOICE, log 139). -/
def execSiteCtlClear (site : Fin 16) (bit : Fin 3) (s : State) : Host.Outcome State Fault Refusal :=
  let k := site.val
  let b := bit.val
  let x := s.site k
  let set := if b = 0 then x.pwrReq else if b = 1 then x.clkFwd else x.rstRel
  .next (if !occupiedSite s k || !set || s.quiet then s
  else match x.state with
    | 4 => stopping s k b
    | 5 => stopping s k b
    | 3 => settle (dropTo (endTraining s k) k b (stopState b))
    | 7 => if b = 0 then dropTo s k 0 7 else s
    | 0 => s
    | _ => if x.stopAt.isSome then s else dropTo s k b (stopState b))

/-- SITE_LINK_LOST (R31, R229): the site fails. -/
def execSiteLinkLost (site : Fin 16) (s : State) : Host.Outcome State Fault Refusal :=
  let k := site.val
  .next (if (siteUp s k || (s.site k).state = 3) && !s.quiet then failSite s k true else s)

/-- The limit an IVR holds a domain at, in amperes: the Chart's, halved beneath a chiplet while a base sensor under it is HOT (R48, R463). -/
def ivrLimit (s : State) (d : Nat) : Nat :=
  let l := (s.cfg.ivr)[d]?.getD 0
  let k := d - 8
  let hot := 8 ≤ d && d ≤ 15 && (List.range 4).any (fun i => (Tab.get {} s.tel.therm (4 * k + i)).state ≥ 2)
  if hot then l / 2 else l

/-- IVR_LIMIT_REACHED (R28, R460): the domain is LIMITING, and a chiplet's domain sends LIMIT_ON with its limit (DEDUCED, log 63). -/
def execIvrLimitReached (pd : Fin 48) (s : State) : Host.Outcome State Fault Refusal :=
  let d := pd.val
  let p : Pd := Tab.get {} s.tel.pd d
  .next (if p.state ≠ 2 then s
  else
    let s := { s with tel := { s.tel with pd := Tab.set {} s.tel.pd d { p with state := 3 } } }
    if 8 ≤ d && d ≤ 15 && siteUp s (d - 8) then post s (d - 8) { cls := 5, opc := 2, addr := ivrLimit s d } else s)

/-- UNDERVOLT (R28, R440): the domain's voltage fell below its range. -/
def execUndervolt (pd : Fin 48) (s : State) : Host.Outcome State Fault Refusal :=
  let p : Pd := Tab.get {} s.tel.pd pd.val
  .next (if p.state = 3 then raise s (32 + pd.val) { unit := pd.val } else s)

end Sys2Proof.Machine
end

