-- ==== Sys2Proof/Machine/Errors.lean ====
section
/-!
DEFINITION. Errors of the arrays that a request finds (R148, R169–R171, R440, R454): correction, poison, quarantine and their
sources.
-/
namespace Sys2Proof.Machine

def State.mc (s : State) (i : Nat) : Mc := Tab.get {} s.mcs i
def setMc (s : State) (i : Nat) (m : Mc) : State := { s with mcs := Tab.set {} s.mcs i m }

/-- Quarantines the page of a SHARED_RO line (R454), unless it is quarantined already or all 256 entries are in use. -/
def quarantine (s : State) (r : Region) (pa : Nat) : State :=
  if !r.sharedRo || (s.quarOf (pa / 4096)).isSome then s
  else match (List.range 256).find? (fun e => (Tab.get none s.fcu.quar e).isNone) with
    | none => s
    | some e =>
      let q : Quar := { page := pa / 4096, owner := r.owner, left := BitVec.allOnes 32 }
      let s := { s with fcu := { s.fcu with quar := Tab.set none s.fcu.quar e (some q) } }
      raise s 1501 { slice := r.owner, unit := e, addr := pa / 4096 * 4096 }

/-- Counts an uncorrectable line on a channel and keeps the first one's address (R173). -/
def countUe (s : State) (ch pa : Nat) : State :=
  let m := s.mc (ch / 2)
  let a := if bit m.errAddr 63 then m.errAddr else BitVec.ofNat 64 (2 ^ 63 + flag (ch % 2 = 1) 50 + pa / 128 * 128)
  setMc s (ch / 2) { m with ue := satAdd 65535 m.ue 1, errAddr := a }

/-- Counts a corrected line (R173). -/
def countCe (s : State) (ch : Nat) : State :=
  let m := s.mc (ch / 2)
  setMc s (ch / 2) { m with ce := satAdd (2 ^ 32 - 1) m.ce 1 }

/-- An uncorrectable line in memory: poisoned, counted, raised, and quarantined where it is shared read-only. `sl` is the
requester's slice, or 0xFF for patrol. -/
def hbmUe (s : State) (r : Region) (ch pa sl : Nat) : State :=
  let s := countUe (poisonLine s pa) ch pa
  let s := raise s (400 + ch) { slice := sl, unit := ch, addr := pa / 128 * 128, info0 := (s.mc (ch / 2)).errAddr.toNat }
  quarantine s r pa

/-- An uncorrectable word in the array copy of a line (R169): a clean copy is dropped, a LOCKED one is read again, a dirty one is
poisoned. -/
def llaUe (s : State) (r : Region) (j st w pa sl : Nat) : State :=
  let l := s.way j st w
  if l.dirty then
    let s := setWay s j st w { l with poison := true }
    quarantine (raise s (928 + j) { slice := sl, unit := j, addr := pa / 128 * 128 }) r pa
  else if wayMode s j w = 1 then
    match s.cfg.locate pa with
    | .hbm _ ch ca => setWay s j st w { l with data := memLine s ch ca, poison := memPoisoned s ch ca }
    | _ => setWay s j st w {}
  else setWay s j st w {}

/-- Counts a corrected error of a home slice's array (R169); the counter has no register. -/
def countLlaCe (s : State) (j : Nat) : State := setHome s j { s.home j with ce := (s.home j).ce + 1 }

/-- What the silicon does to the line a request touches. -/
def inject (s : State) (pa : Nat) (e : SilErr) (sl : Nat) : State :=
  let loc := s.cfg.locate pa
  let (j, st) := loc.home
  let found := if llaOn s then lookup s j st (pa / 128) else none
  match e with
  | .none => s
  | .llaTag => if loc = .unmapped then s else raise s (960 + j) { unit := j }
  | .dirEntry => if loc = .unmapped then s else raise s (992 + j) { unit := j }
  | .corrected => match loc with
    | .hbm _ ch _ => if found.isSome then countLlaCe s j else if chanState s ch = 1 then countCe s ch else s
    | .remote _ _ _ => if found.isSome then countLlaCe s j else s
    | .scratch _ w _ => if wayMode s j w = 2 then countLlaCe s j else s
    | .unmapped => s
  | .hbm => match loc with
    | .hbm r ch _ => if found.isSome || chanState s ch ≠ 1 then s else hbmUe s r ch pa sl
    | _ => s
  | .llaData => match loc with
    | .scratch j w st =>
      if wayMode s j w = 2 then
        raise (setWay s j st w { s.way j st w with poison := true }) (928 + j) { slice := wayOwner s j w, unit := j, addr := pa / 128 * 128 }
      else s
    | _ => match loc.region, found with
      | some r, some w => llaUe s r j st w pa sl
      | _, _ => s

end Sys2Proof.Machine
end

