-- ==== Sys2Proof/Machine/Deckle.lean ====
section
/-!
DEFINITION. The Deckle ports (R203, R204, R206–R230): the headers and slots of messages, what arrives from the sites and is checked, what
the hub sends, credits, protocol errors, units of customer dies, and time.
-/
namespace Sys2Proof

/-! ## Headers and slots (R207, R209) -/

def DkIn.addr (m : DkIn) : BitVec 64 := m.hdr.extractLsb' 64 64
def DkIn.txn (m : DkIn) : BitVec 16 := m.hdr.extractLsb' 48 16
def DkIn.home (m : DkIn) : BitVec 5 := m.hdr.extractLsb' 43 5
def DkIn.unit (m : DkIn) : BitVec 5 := m.hdr.extractLsb' 38 5
def DkIn.grant (m : DkIn) : BitVec 2 := m.hdr.extractLsb' 36 2
def DkIn.attr (m : DkIn) : BitVec 4 := m.hdr.extractLsb' 32 4
def DkIn.status (m : DkIn) : BitVec 8 := m.hdr.extractLsb' 24 8
def DkIn.opc (m : DkIn) : BitVec 8 := m.hdr.extractLsb' 4 8
def DkIn.cls (m : DkIn) : BitVec 4 := m.hdr.extractLsb' 0 4

/-- Whether every bit of the header outside the fields its message uses is zero (R209). -/
def DkIn.plain (m : DkIn) (used : List (Nat × Nat)) : Bool := m.hdr.toNat &&& fieldMask used = m.hdr.toNat

/-- Bits of the header that each message of a site uses: CLASS and OPC, and those R210–R213, R225 and R226 name. -/
def reqFields : List (Nat × Nat) := [(127, 64), (63, 48), (42, 38), (35, 32), (11, 0)]
def answerFields : List (Nat × Nat) := [(63, 48), (47, 43), (11, 0)]
def wrDataFields : List (Nat × Nat) := [(63, 48), (47, 43), (32, 32), (11, 0)]
def snpDataFields : List (Nat × Nat) := [(63, 48), (47, 43), (37, 36), (33, 33), (11, 0)]
def creditInitFields : List (Nat × Nat) := [(127, 127), (124, 64), (11, 0)]
def unitStateFields : List (Nat × Nat) := [(127, 64), (42, 38), (31, 24), (11, 0)]
def timeEchoFields : List (Nat × Nat) := [(127, 64), (11, 0)]

end Sys2Proof

namespace Sys2Proof.Machine

/-- The header of a message of the hub (R209). -/
def DkMsg.header (m : DkMsg) : BitVec 128 :=
  BitVec.ofNat 128 (fld m.addr 127 64 + fld m.txn 63 48 + fld m.home 47 43 + fld m.unit 42 38 + fld m.grant 37 36 + fld m.attr 35 32
    + fld m.status 31 24 + fld m.opc 11 4 + fld m.cls 3 0)

/-- A line in eight slots, byte 0 first. -/
def lineSlots (l : Line) : List (BitVec 128) := (List.range 8).map (fun i => BitVec.ofNat 128 (l.toNat >>> (128 * i)))

/-- The slots of a message of the hub (R207): a line follows the header of RD_DATA and IMAGE, the arguments two to a slot that of UNIT_START (R225). -/
def DkMsg.slots (m : DkMsg) : List (BitVec 128) :=
  m.header :: (if m.cls = 4 || (m.cls = 5 && m.opc = 8) then lineSlots m.line
    else if m.cls = 5 && m.opc = 5 then
      (List.range 4).map (fun i => BitVec.ofNat 128 ((m.extra[2 * i]?).getD 0 % 2 ^ 64 + (m.extra[2 * i + 1]?).getD 0 % 2 ^ 64 * 2 ^ 64))
    else [])

def State.dk (s : State) (k : Nat) : Dk := (s.site k).dk

/-- Counts the flits since the last message (R207, R229): how slots fill flits, and the flits of NULL slots, are open (log 152). -/
def countFlits (s : State) (k : Nat) (tx : Bool) : State :=
  let d := s.dk k
  let n := Config.flits s.draws
  { setDk s k (if tx then { d with txFlits := (d.txFlits + n) % 2 ^ 64 } else { d with rxFlits := (d.rxFlits + n) % 2 ^ 64 }) with draws := s.draws + 1 }

/-- The hub sends a message. -/
def sendMsg (s : State) (k : Nat) (m : DkMsg) : State := emit (countFlits s k true) (.deckle k m m.slots)

/-- Port of Felt or customer die that is a caching agent (R4). -/
def cachingSite (s : State) (k : Nat) : Bool := siteCode s k = 2 || siteCode s k = 8

/-- Records a protocol error (R228, R229): the first since VALID was cleared, and the count. -/
def dkError (s : State) (k code cls opc : Nat) (fatal : Bool) : State :=
  let d := s.dk k
  let e := BitVec.ofNat 64 (2 ^ 63 + flag fatal 62 + fld code 31 24 + fld cls 23 20 + fld opc 19 12)
  setDk s k { d with err := if bit d.err 63 then d.err else e, errCount := satAdd (2 ^ 64 - 1) d.errCount 1 }

/-- A fatal error fails the site and raises its source (R228). -/
def dkFatal (s : State) (k code cls opc : Nat) : State :=
  let s := dkError s k code cls opc true
  let s := raise s (96 + k) { unit := k, info0 := (s.dk k).err.toNat }
  failSite s k false

/-- One credit of a class taken from a count, if it has one. -/
def Credits.take (c : Credits) (cls : Nat) : Option Credits :=
  match cls with
  | 1 => if c.req = 0 then none else some { c with req := c.req - 1 }
  | 2 => if c.snp = 0 then none else some { c with snp := c.snp - 1 }
  | 3 => if c.rsp = 0 then none else some { c with rsp := c.rsp - 1 }
  | 4 => if c.dat = 0 then none else some { c with dat := c.dat - 1 }
  | 5 => if c.mgt = 0 then none else some { c with mgt := c.mgt - 1 }
  | _ => if c.time = 0 then none else some { c with time := c.time - 1 }

def Credits.add (a b : Credits) : Credits :=
  { req := a.req + b.req, snp := a.snp + b.snp, rsp := a.rsp + b.rsp, dat := a.dat + b.dat, mgt := a.mgt + b.mgt, time := a.time + b.time }

def Credits.sub (a b : Credits) : Credits :=
  { req := a.req - b.req, snp := a.snp - b.snp, rsp := a.rsp - b.rsp, dat := a.dat - b.dat, mgt := a.mgt - b.mgt, time := a.time - b.time }

/-- Whether every count of `a` is at most that of `b`. -/
def Credits.le (a b : Credits) : Bool :=
  a.req ≤ b.req && a.snp ≤ b.snp && a.rsp ≤ b.rsp && a.dat ≤ b.dat && a.mgt ≤ b.mgt && a.time ≤ b.time

/-- One credit of a class. -/
def Credits.one (cls : Nat) : Credits :=
  match cls with
  | 1 => { req := 1 }
  | 2 => { snp := 1 }
  | 3 => { rsp := 1 }
  | 4 => { dat := 1 }
  | 5 => { mgt := 1 }
  | _ => { time := 1 }

/-- Credit returns of a flit header (R208). -/
def creditWord (w : BitVec 32) : Credits :=
  { req := bits w 5 0, snp := bits w 11 6, rsp := bits w 17 12, dat := bits w 23 18, mgt := bits w 26 24, time := bits w 29 27 }

/-- A message of a class arrives from a site: the state with its credit taken and owed, or the protocol error it is (R216, R228). None
where the link carries nothing (DEDUCED, log 90). -/
def arrive (s : State) (k cls opc : Nat) : Option (State × Bool) :=
  if !siteUp s k || s.quiet then none
  else
    let s := countFlits s k false
    let d := s.dk k
    if !d.siteInit && !(cls = 5 && opc = 1) then some (dkFatal s k 0x08 cls opc, false)
    else match d.site.take cls with
      | none => some (dkFatal s k 0x01 cls opc, false)
      | some c => some (setDk s k { d with site := c, owed := d.owed.add (Credits.one cls) }, true)

/-- Opcodes of a class that a site sends (R210, R212, R213, R225, R226); any other is reserved or barred to it. -/
def siteOpcode (cls opc : Nat) : Bool :=
  match cls with
  | 1 => (1 ≤ opc && opc ≤ 7) || (0x10 ≤ opc && opc ≤ 0x14)
  | 3 => 1 ≤ opc && opc ≤ 4
  | 4 => opc = 2 || opc = 3
  | 5 => opc = 1 || opc = 7
  | _ => opc = 3

/-- A message arrives as that of the row for `cls` and `opc` (R209, R216, R228): a message of another row is none of this one's; one that is not allowed
or not well formed is rejected, and the row acts on any other. -/
def receive (s : State) (m : DkIn) (cls opc : Nat) (used : List (Nat × Nat)) (reject : State → Nat → State) (act : State → State) : State :=
  let k := m.site.val
  let c := m.cls.toNat
  let o := m.opc.toNat
  if c = 0 || !siteUp s k || s.quiet then s
  else if c = 2 || c ≥ 7 then dkFatal s k 0x02 c o
  else if c ≠ cls || (siteOpcode c o && o ≠ opc) then s
  else match arrive s k c o with
    | none => s
    | some (s, false) => s
    | some (s, true) =>
      if !siteOpcode c o then reject s 0x03
      else if !m.plain used then reject s 0x04
      else act s

/-- A protocol error that is not fatal discards the message (R228). -/
def discard (m : DkIn) (s : State) (code : Nat) : State := dkError s m.site code m.cls.toNat m.opc.toNat false

/-! ## Requests -/

/-- Whether an agent has a request open to a line that bars another one of it (R227): a writeback bars any, one for a copy bars one for a copy. -/
def secondRequest (s : State) (k id opc line : Nat) : Bool :=
  let copy := fun (o : Nat) => o = 1 || o = 2 || o = 3 || o = 7
  cachingSite s k && s.txns.any (fun t => t.agent = some k && t.id ≠ id && !t.untranslated && t.line = line && t.stage ≠ .needAck
    && (t.opc = 7 || (copy t.opc && copy opc)))

/-- The accesses whose rights an opcode needs (R183, R223): 0 read, 1 write, 2 atomic. -/
def opcAccesses (opc : Nat) : List Nat :=
  if opc ≥ 0x10 then [2] else if opc = 1 || opc = 4 then [0] else if opc = 2 then [0, 1] else [1]

/-- An address translated for each of some accesses: the last translation, or the first that does not succeed. -/
def translateAll (key slice port addr : Nat) : List Nat → State → Tr → State × Tr
  | [], s, r => (s, r)
  | a :: as, s, _ =>
    match translate s key slice port a addr with
    | (s, .pa p na) => translateAll key slice port addr as s (.pa p na)
    | x => x

/-- Translates a request that waits for it, at its site's port (R179, R224). One whose site was reset goes on for the hub alone (R30). -/
def translateTxn (s : State) (id : Nat) : State :=
  match s.txns.find? (fun u => u.id = id) with
  | none => s
  | some t =>
    match t.untranslated, t.slice with
    | true, some sl =>
      let port := match t.src with | .agent k _ => k | .posted w => (w - 0x100000) / 65536 | _ => 0
      let (s, r) := translateAll t.src.tag sl port t.addr (opcAccesses t.opc) s (.pa 0 false)
      match r with
      | .hold => s
      | .fault reason _ => (match t.src with | .agent k txn => refuse (dropTxn s id) k txn 0 t.opc 3 reason | _ => dropTxn s id)
      | .pa a na =>
        if (match t.src with | .agent k _ => secondRequest s k id t.opc (a / 128) | _ => false) then dkFatal (dropTxn s id) port 0x05 1 t.opc
        else updTxn s { t with addr := a, noalloc := t.noalloc || na, untranslated := false }
    | _, _ => s

/-- Translates the requests that wait for it, then lets every waiting transaction go. -/
def settleAll (s : State) : State := fcuLate (settleRemote (s.txns.foldl (fun s t => translateTxn s t.id) s))

/-- The site access filter (R203): whether a request of H-site `h` passes. The owner of a scratch way is checked with it, so that its denials count as
the filter's (R204). -/
def safAllows (s : State) (h : Nat) (opc addr : Nat) : Bool :=
  let rd := opc = 1 || opc = 4 || opc ≥ 0x10
  let wr := opc = 2 || opc = 3 || opc = 5 || opc = 6 || opc ≥ 0x10
  let f : Saf := Tab.get {} s.gtu.saf h
  if opc = 7 then true
  else match s.cfg.locate addr with
    | .unmapped => false
    | .scratch j w _ => (!rd || bit f.ctl 0) && (!wr || bit f.ctl 1) && wayMode s j w = 2 && f.scratch.toNat.testBit (wayOwner s j w)
    | .hbm r _ _ => (!rd || r.hostAccess.testBit (2 * h)) && (!wr || r.hostAccess.testBit (2 * h + 1))
    | .remote r _ _ => (!rd || r.hostAccess.testBit (2 * h)) && (!wr || r.hostAccess.testBit (2 * h + 1))

/-- A denial of the filter (R204). -/
def safDeny (s : State) (k txn opc addr : Nat) : State :=
  let h := k - 6
  let f : Saf := Tab.get {} s.gtu.saf h
  let first := if bit f.first 63 then f.first else BitVec.ofNat 64 (2 ^ 63 + flag (!(opc = 1 || opc = 4)) 62 + addr % 2 ^ 50 / 128 * 128)
  let s := { s with gtu := { s.gtu with saf := Tab.set {} s.gtu.saf h { f with denied := satAdd (2 ^ 64 - 1) f.denied 1, first := first } } }
  refuse (raise s (104 + h) { unit := k, addr := addr / 128 * 128, info0 := first.toNat }) k txn 0 opc 1 0

/-- The filter decides again the accesses of Felt that a reload held (R59, R205). -/
def refilter (s : State) : State :=
  s.txns.foldl (fun s t => match t.src, t.hsite with
    | .agent k txn, some h => if t.stage = .queued && !t.snooped && !safAllows s h t.opc t.addr then safDeny (dropTxn s t.id) k txn t.opc t.addr else s
    | _, _ => s) s

/-- Whether a field of a request is bad (R210, R224, R228). An address outside the map is the filter's to deny (R203). -/
def reqBadField (s : State) (m : DkIn) (op1 : Nat) : Bool :=
  let k := m.site.val
  let opc := m.opc.toNat
  let atomic := opc ≥ 0x10
  let size := if m.attr.getLsbD 0 then 8 else 4
  let phys := m.attr.getLsbD 3
  decide (m.addr.toNat % (if atomic then size else 128) ≠ 0) || (!atomic && (m.attr.getLsbD 0 || m.attr.getLsbD 1))
    || (if k ≥ 6 then m.unit ≠ 0 else decide (m.unit.toNat ≥ (s.dk k).units))
    || (phys && (k ≥ 6 || !(opc = 3 || opc = 7))) || (opc ≠ 0x12 && op1 ≠ 0)

/-- Whether a request reuses a TXN, or is by its physical line a second one that R227 bars. A DVA is checked once translated. -/
def reqReuse (s : State) (m : DkIn) : Bool :=
  (s.dk m.site).outstanding.any (fun p => p.1 = m.txn.toNat)
    || ((m.site.val ≥ 6 || m.attr.getLsbD 3) && secondRequest s m.site s.nextTxn m.opc.toNat (m.addr.toNat / 128))

/-- A request not allowed or not well formed is answered UNSUPPORTED (R228). -/
def unsupported (m : DkIn) (s : State) (code : Nat) : State := refuse (discard m s code) m.site m.txn.toNat 0 m.opc.toNat 7 0

/-- A request is admitted to its line's queue (R203, R224): filtered from an H-site; from a C-site with its unit's slice, translated unless it has PHYS set.
A physical UPGRADE is checked against the slice's masks as any other (log 148). -/
def admitRequest (s : State) (m : DkIn) (op0 op1 : Nat) (err : SilErr) : State :=
  let k := m.site.val
  let opc := m.opc.toNat
  let txn := m.txn.toNat
  let d := s.dk k
  let s := setDk s k { d with outstanding := d.outstanding ++ [(txn, m.addr.toNat / 128)] }
  let base : Txn := { id := s.nextTxn, src := .agent k txn, opc := opc, addr := m.addr.toNat, noalloc := m.attr.getLsbD 2,
                      attr := m.attr.toNat % 4, op0 := op0, op1 := op1 }
  let add := fun (s : State) (t : Txn) => { s with nextTxn := s.nextTxn + 1, txns := s.txns ++ [t] }
  if k ≥ 6 then
    if safAllows s (k - 6) opc m.addr.toNat then
      let s := inject s m.addr.toNat err 0xFF
      settleAll (add s { base with hsite := some (k - 6), reg := 69, ini := 202 + (k - 6) })
    else safDeny s k txn opc m.addr.toNat
  else
    let c := k * 24 + m.unit.toNat
    match logicalOf s c, sliceOfCore s c with
    | none, _ => refuse s k txn 0 opc 4 0
    | some lg, none =>
      if m.attr.getLsbD 3 then (if opc = 7 then settleAll (add s { base with ini := lg }) else refuse s k txn 0 opc 1 0)
      else refuse s k txn 0 opc 3 0x08
    | some lg, some sl =>
      let t := { base with slice := some sl, reg := sl, ini := lg, unit := m.unit.toNat }
      if m.attr.getLsbD 3 then settleAll (add s t)
      else
        let s := translateTxn (add s { t with untranslated := true }) base.id
        let s := match s.txns.find? (fun t => t.id = base.id) with
          | some t => if t.untranslated then s else inject s t.addr err sl
          | none => s
        settleAll s

/-- A request arrives (R210, R214, R219, R224, R228): checked, and admitted. `opc` is the opcode of the command's row. -/
def request (s : State) (opc : Nat) (m : DkIn) (op0 op1 : Nat) (err : SilErr) : State :=
  receive s m 1 opc reqFields (unsupported m) (fun s =>
    if !cachingSite s m.site && (opc = 1 || opc = 2 || opc = 3 || opc = 7) then unsupported m s 0x03
    else if reqBadField s m op1 then unsupported m s 0x04
    else if reqReuse s m then dkFatal s m.site 0x05 1 opc
    else admitRequest s m op0 op1 err)

/-- RD_SHARE (R210, R219). -/
def execRdShare (m : DkIn) (err : SilErr) (s : State) : Host.Outcome State Fault Refusal := .next (request s 0x01 m 0 0 err)
/-- RD_OWN (R210, R219). -/
def execRdOwn (m : DkIn) (err : SilErr) (s : State) : Host.Outcome State Fault Refusal := .next (request s 0x02 m 0 0 err)
/-- UPGRADE (R210, R219). -/
def execUpgrade (m : DkIn) (s : State) : Host.Outcome State Fault Refusal := .next (request s 0x03 m 0 0 .none)
/-- RD_PEEK (R210, R219). -/
def execRdPeek (m : DkIn) (err : SilErr) (s : State) : Host.Outcome State Fault Refusal := .next (request s 0x04 m 0 0 err)
/-- WR_LINE (R210, R214, R219). -/
def execWrLine (m : DkIn) (s : State) : Host.Outcome State Fault Refusal := .next (request s 0x05 m 0 0 .none)
/-- WR_BYTES (R210, R214, R219). -/
def execWrBytes (m : DkIn) (s : State) : Host.Outcome State Fault Refusal := .next (request s 0x06 m 0 0 .none)
/-- WRBACK (R210, R214, R219). -/
def execWrback (m : DkIn) (s : State) : Host.Outcome State Fault Refusal := .next (request s 0x07 m 0 0 .none)
/-- AT_ADD (R210, R223). -/
def execAtAdd (m : DkIn) (op0 op1 : BitVec 64) (s : State) : Host.Outcome State Fault Refusal :=
  .next (request s 0x10 m op0.toNat op1.toNat .none)
/-- AT_SWAP (R210, R223). -/
def execAtSwap (m : DkIn) (op0 op1 : BitVec 64) (s : State) : Host.Outcome State Fault Refusal :=
  .next (request s 0x11 m op0.toNat op1.toNat .none)
/-- AT_CAS (R210, R223). -/
def execAtCas (m : DkIn) (op0 op1 : BitVec 64) (s : State) : Host.Outcome State Fault Refusal :=
  .next (request s 0x12 m op0.toNat op1.toNat .none)
/-- AT_MIN (R210, R223). -/
def execAtMin (m : DkIn) (op0 op1 : BitVec 64) (s : State) : Host.Outcome State Fault Refusal :=
  .next (request s 0x13 m op0.toNat op1.toNat .none)
/-- AT_MAX (R210, R223). -/
def execAtMax (m : DkIn) (op0 op1 : BitVec 64) (s : State) : Host.Outcome State Fault Refusal :=
  .next (request s 0x14 m op0.toNat op1.toNat .none)

/-! ## Messages of the agents -/

/-- SNP opcode a transaction sent its snoops with (R219, R222). -/
def snpOf (t : Txn) : Nat :=
  match t.src with
  | .recall _ => if t.opc = 4 then 3 else 2
  | _ => if t.opc = 1 then 1 else if t.opc = 4 then 3 else 2

/-- The state an answer keeps is one the snoop allows (R211): 0 I, 1 S, 2 E. -/
def keepsOk (snp keeps : Nat) : Bool :=
  match snp with
  | 1 => keeps ≤ 1
  | 2 => keeps = 0
  | _ => keeps ≤ 2

/-- A snoop answer is taken (R212, R213): it must match a snoop the site owes (R228) (DEDUCED, log 99). -/
def snoopReply (s : State) (m : DkIn) (keeps : Nat) (dirty : Option Line) : State :=
  let k := m.site.val
  match s.txns.find? (fun t => t.tracker = m.txn.toNat && t.stage = .snooping && t.wait.contains k && (dirHome s t.addr).1 = m.home.toNat) with
  | none => dkFatal s k 0x06 m.cls.toNat m.opc.toNat
  | some t => if keepsOk (snpOf t) keeps then settleAll (snoopAnswered s t.id k keeps dirty) else dkFatal s k 0x06 m.cls.toNat m.opc.toNat

/-- GONE (R212). -/
def execGone (m : DkIn) (s : State) : Host.Outcome State Fault Refusal :=
  .next (receive s m 3 1 answerFields (discard m) (fun s => snoopReply s m 0 none))
/-- KEPT_S (R212). -/
def execKeptS (m : DkIn) (s : State) : Host.Outcome State Fault Refusal :=
  .next (receive s m 3 2 answerFields (discard m) (fun s => snoopReply s m 1 none))
/-- KEPT_E (R212). -/
def execKeptE (m : DkIn) (s : State) : Host.Outcome State Fault Refusal :=
  .next (receive s m 3 3 answerFields (discard m) (fun s => snoopReply s m 2 none))

/-- SNP_DATA (R213, R219): the data count only where DIRTY is set; GRANT 3 is reserved. -/
def execSnpData (m : DkIn) (data : BitVec 1024) (s : State) : Host.Outcome State Fault Refusal :=
  .next (receive s m 4 3 snpDataFields (discard m) (fun s =>
    if m.grant = 3 then discard m s 0x04 else snoopReply s m m.grant.toNat (if m.attr.getLsbD 1 then some data else none)))

/-- GRANT_ACK (R214, R220): ends the transaction, and the next at the line goes. -/
def execGrantAck (m : DkIn) (s : State) : Host.Outcome State Fault Refusal :=
  .next (receive s m 3 4 answerFields (discard m) (fun s =>
    match s.txns.find? (fun t => t.src = .agent m.site.val m.txn.toNat && t.stage = .needAck && (dirHome s t.addr).1 = m.home.toNat) with
    | none => dkFatal s m.site 0x06 3 4
    | some t => settleAll (dropTxn s t.id)))

/-- WR_DATA (R213, R214): MASKED only for WR_BYTES. -/
def execWrData (m : DkIn) (mask : BitVec 128) (data : BitVec 1024) (s : State) : Host.Outcome State Fault Refusal :=
  let masked := m.attr.getLsbD 0
  .next (receive s m 4 2 wrDataFields (discard m) (fun s =>
    match s.txns.find? (fun t => t.src = .agent m.site.val m.txn.toNat && t.stage = .needData && (dirHome s t.addr).1 = m.home.toNat) with
    | none => dkFatal s m.site 0x06 4 2
    | some t =>
      if masked && t.opc ≠ 6 then discard m s 0x04
      else settleAll (dataArrived s t (if masked then mask else BitVec.allOnes 128) data)))

/-- SNOOP_TIMEOUT (R228, R229): a snoop the site did not answer within DK_SNOOP_TIMEOUT, at least 10 µs, fails it. `txn` is the transaction at the home,
whose snoops are timed from their sending there (log 8). -/
def execSnoopTimeout (site : Fin 8) (txn : Nat) (s : State) : Host.Outcome State Fault Refusal :=
  .next (match s.txns.find? (fun t => t.id = txn && t.stage = .snooping && t.wait.contains site.val) with
  | none => s
  | some t =>
    if !siteUp s site || s.quiet then s
    else dkFatal (advanceTo (t.snoopAt + max 10 (s.dk site).snoopTimeout * 1000) s) site 0x07 2 0)

/-! ## Messages of the hub -/

/-- Whether a message is a response that STRICT mode still holds for its pad (R273): data, a completion, or PULL_DONE, which completes a write. -/
def heldForPad (s : State) (k : Nat) (m : DkMsg) : Bool :=
  (m.cls = 4 || (m.cls = 3 && m.opc ≠ 0x21)) && padded s (Src.agent k m.txn).tag

/-- Sends the first waiting message of a class and opcode, if the hub holds a credit for it (R207, R216). A message of a class follows
the earlier ones of its class, but for those held for their pad. -/
def sendNext (s : State) (k cls opc : Nat) : State :=
  let d := s.dk k
  match d.outbox.findIdx? (fun m => m.cls = cls && !heldForPad s k m) with
  | none => s
  | some i =>
    match d.outbox[i]? with
    | none => s
    | some m =>
      if m.opc ≠ opc || !siteUp s k || !d.hubInit || s.quiet then s
      else match d.hub.take cls with
        | none => s
        | some c =>
          sendMsg (setDk s k { d with hub := c, outbox := dropIdx d.outbox i }) k m

/-- SNP_SHARE (R211). -/
def execSnpShare (site : Fin 8) (s : State) : Host.Outcome State Fault Refusal := .next (sendNext s site 2 1)
/-- SNP_DROP (R211). -/
def execSnpDrop (site : Fin 8) (s : State) : Host.Outcome State Fault Refusal := .next (sendNext s site 2 2)
/-- SNP_PEEK (R211). -/
def execSnpPeek (site : Fin 8) (s : State) : Host.Outcome State Fault Refusal := .next (sendNext s site 2 3)
/-- DONE (R212). -/
def execRspDone (site : Fin 8) (s : State) : Host.Outcome State Fault Refusal := .next (sendNext s site 3 0x20)
/-- PULL (R212). -/
def execPull (site : Fin 8) (s : State) : Host.Outcome State Fault Refusal := .next (sendNext s site 3 0x21)
/-- PULL_DONE (R212). -/
def execPullDone (site : Fin 8) (s : State) : Host.Outcome State Fault Refusal := .next (sendNext s site 3 0x22)
/-- AT_DONE (R212). -/
def execAtDone (site : Fin 8) (s : State) : Host.Outcome State Fault Refusal := .next (sendNext s site 3 0x23)
/-- RD_DATA (R213). -/
def execRdData (site : Fin 8) (s : State) : Host.Outcome State Fault Refusal := .next (sendNext s site 4 1)
/-- LIMIT_ON (R28, R225). -/
def execLimitOn (site : Fin 8) (s : State) : Host.Outcome State Fault Refusal :=
  let t := sendNext s site 5 2
  .next (if t.out.length > s.out.length then setDk t site { t.dk site with limitOn := true } else t)

/-- LIMIT_OFF (R225): the domain's current has stayed below 90 % of its limit. -/
def execLimitOff (site : Fin 8) (s : State) : Host.Outcome State Fault Refusal :=
  let k := site.val
  .next (if !(s.dk k).limitOn then s
  else
    let t := sendNext (post s k { cls := 5, opc := 3 }) k 5 3
    if t.out.length > s.out.length then
      let t := setDk t k { t.dk k with limitOn := false }
      { t with tel := { t.tel with pd := Tab.modify {} t.tel.pd (8 + k) (fun p => if p.state = 3 then { p with state := 2 } else p) } }
    else s)

/-- UNIT_RESET (R225). -/
def execUnitReset (site : Fin 8) (s : State) : Host.Outcome State Fault Refusal := .next (sendNext s site 5 4)
/-- UNIT_START (R87, R225). -/
def execUnitStart (site : Fin 8) (s : State) : Host.Outcome State Fault Refusal := .next (sendNext s site 5 5)
/-- UNIT_HALT_REQ (R225). -/
def execUnitHaltReq (site : Fin 8) (s : State) : Host.Outcome State Fault Refusal := .next (sendNext s site 5 6)
/-- IMAGE (R87, R225). -/
def execImage (site : Fin 8) (s : State) : Host.Outcome State Fault Refusal := .next (sendNext s site 5 8)

/-- State of a unit by its code (R84). -/
def unitSt (n : Nat) : CoreSt := match n with | 0 => .reset | 1 => .halted | 2 => .running | 3 => .waiting | _ => .retired

/-- UNIT_STATE (R84, R88, R225): the hub keeps a customer die's state, trap information and TRAP_PC; a Mould site's report says what the core's state
says already (DESIGN CHOICE, log 134). A unit retired in the epoch stays so. -/
def execUnitState (m : DkIn) (slot : BitVec 128) (s : State) : Host.Outcome State Fault Refusal :=
  let k := m.site.val
  .next (receive s m 5 7 unitStateFields (discard m) (fun s =>
    if m.unit.toNat ≥ (s.dk k).units || m.status.toNat > 4 then discard m s 0x04
    else
      let c := 24 * k + m.unit.toNat
      let x := s.core c
      if !customerDie s k || x.st = .retired then s
      else
        let st := unitSt m.status.toNat
        let cause := bits m.addr 63 56
        settleAll (setCore s c { x with st := st, trapCause := cause % 128, trapAsync := cause ≥ 128, trapVal := BitVec.ofNat 64 (bits m.addr 47 0),
                                        trapPc := slot.extractLsb' 0 18, trapValid := st = .halted && cause ≠ 0,
                                        launch := if st = .halted || st = .retired then none else x.launch })))

/-! ## Credits and time -/

/-- CREDIT_RETURN (R208, R216): from the site, credits for the hub, never beyond those granted; to the site, credits the hub owes. -/
def execCreditReturn (site : Fin 8) (toSite : Bool) (word : BitVec 32) (s : State) : Host.Outcome State Fault Refusal :=
  let k := site.val
  let d := s.dk k
  let w := creditWord word
  .next (if !siteUp s k || s.quiet then s
  else if toSite then
    if w.le d.owed then
      emit (countFlits (setDk s k { d with owed := d.owed.sub w, site := d.site.add w }) k true) (.credits k w)
    else s
  else
    let s := countFlits s k false
    if (d.hub.add w).le { d.granted with mgt := 8 } then setDk s k { s.dk k with hub := d.hub.add w }
    else dkFatal s k 0x01 0 0)

/-- Credits the hub grants a site (R216). -/
def hubGrant (k : Nat) : Credits := if k < 6 then { req := 256, rsp := 256, dat := 256, time := 4 } else { req := 128, rsp := 256, dat := 128, time := 4 }

/-- CREDIT_INIT of the hub (R225). -/
def hubInitMsg (k : Nat) : DkMsg :=
  let g := hubGrant k
  { cls := 5, opc := 1, addr := g.req + g.rsp * 2 ^ 16 + g.dat * 2 ^ 32 + g.time * 2 ^ 48 }

/-- Whether a site's CREDIT_INIT grants what R216 requires and agrees with its site code (R228). -/
def initOk (s : State) (k : Nat) (addr : BitVec 64) : Bool :=
  let snp := bits addr 15 0
  let units := bits addr 60 56
  !(s.dk k).siteInit && bit addr 63 = cachingSite s k && (if bit addr 63 then snp ≥ 64 else snp = 0) && bits addr 31 16 ≥ 128 && bits addr 47 32 ≥ 128
    && bits addr 55 48 ≥ 4 && (if k < 6 then 1 ≤ units && units ≤ 24 else units = 0)

/-- CREDIT_INIT (R216, R225, R228). Units of a die that it does not advertise are holes (R88, R431). -/
def execCreditInit (m : DkIn) (toSite : Bool) (s : State) : Host.Outcome State Fault Refusal :=
  let k := m.site.val
  let d := s.dk k
  .next (if toSite then
    if d.hubInit || !siteUp s k || s.quiet then s
    else match d.hub.take 5 with
      | none => s
      | some c => sendMsg (setDk s k { d with hubInit := true, hub := c, site := d.site.add (hubGrant k) }) k (hubInitMsg k)
  else receive s m 5 1 creditInitFields (discard m) (fun s =>
    let d := s.dk k
    if !initOk s k m.addr then dkFatal s k 0x08 5 1
    else
      let g : Credits := { snp := bits m.addr 15 0, rsp := bits m.addr 31 16, dat := bits m.addr 47 32, time := bits m.addr 55 48 }
      let units := bits m.addr 60 56
      let s := setDk s k { d with siteInit := true, granted := g, hub := d.hub.add g, units := units, caching := bit m.addr 63 }
      if customerDie s k && k < 6 then
        (numberedCores s k).foldl (fun s c => if c % 24 ≥ units then setCore s c { s.core c with st := .retired } else s) s
      else s))

/-- Sends a TIME message, if the hub holds a credit (R226). -/
def sendTime (s : State) (k opc addr : Nat) : Option State :=
  let d := s.dk k
  if !siteUp s k || !d.hubInit || s.quiet then none
  else (d.hub.take 6).map (fun c =>
    sendMsg (setDk s k { d with hub := c }) k { cls := 6, opc := opc, addr := addr })

/-- TIME_SYNC (R226): TIME as it will be when the message reaches the site. -/
def execTimeSync (site : Fin 8) (s : State) : Host.Outcome State Fault Refusal :=
  .next ((sendTime s site 1 ((s.time + (s.dk site).delay) % timeMod)).getD s)

/-- TIME_ECHO_REQ (R226). -/
def execTimeEchoReq (site : Fin 8) (tag : BitVec 64) (s : State) : Host.Outcome State Fault Refusal :=
  .next (match sendTime s site 2 tag.toNat with
  | none => s
  | some t => setDk t site { t.dk site with echoTag := some (tag.toNat, s.time) })

/-- TIME_ECHO (R226): the link delay is half the round trip. -/
def execTimeEcho (m : DkIn) (s : State) : Host.Outcome State Fault Refusal :=
  .next (receive s m 6 3 timeEchoFields (discard m) (fun s =>
    let d := s.dk m.site
    match d.echoTag with
    | some (t, at0) =>
      if t = m.addr.toNat then setDk s m.site { d with echoTag := none, delay := (s.time - at0) / 2 } else dkFatal s m.site 0x06 6 3
    | none => dkFatal s m.site 0x06 6 3))

end Sys2Proof.Machine
end

