-- ==== Sys2Proof/Machine/Memory.lean ====
section
/-!
DEFINITION. Maintenance of the last-level array (R161–R168), FABRIC releases and acquires (R236–R239), and the memory controllers:
patrol, sparing, channels, temperature, refresh and recalibration (R171–R178).
-/
namespace Sys2Proof.Machine

/-! ## From channel addresses to physical addresses -/

/-- Position of a channel in a set, if it is in it (R150). -/
def chanPos (interleave target ch : Nat) : Option Nat := (List.range (chanCount interleave)).find? (fun p => chanAt interleave target p = ch)

/-- The hash of a granule row (R151). -/
def rowHash (r : Region) (q : Nat) : Nat := if r.hash then (q ^^^ (q >>> 8) ^^^ (q >>> 16)) % chanCount r.interleave else 0

/-- The physical address of a channel address in a region, if it holds it. -/
def Region.paOf (r : Region) (ch ca : Nat) : Option Nat :=
  let c := chanCount r.interleave
  if r.interleave = 5 || ca < r.baseCh || ca ≥ r.baseCh + r.size / c then none
  else (chanPos r.interleave r.target ch).map (fun p' =>
    let q := (ca - r.baseCh) / r.granule
    r.base + (q * c + (p' ^^^ rowHash r q)) * r.granule + (ca - r.baseCh) % r.granule)

/-- Region and physical address of a channel address. -/
def regionAt (s : State) (ch ca : Nat) : Option (Region × Nat) := s.cfg.regions.findSome? (fun r => (r.paOf ch ca).map (fun pa => (r, pa)))

/-- The runs of channel addresses of one channel that a range of a region covers: edge granules singly, whole rows together. -/
def rangeSpans (r : Region) (base size ch : Nat) : List (Nat × Nat) :=
  match chanPos r.interleave r.target ch with
  | none => []
  | some p' =>
    let c := chanCount r.interleave
    let g := r.granule
    let o := base - r.base
    let e := o + size
    let row := c * g
    let part := fun q =>
      let lo := (q * c + (p' ^^^ rowHash r q)) * g
      let a := max lo o
      let b := min (lo + g) e
      if a < b then [(r.baseCh + q * g + (a - lo), b - a)] else []
    let q0 := o / row
    let q1 := (e - 1) / row
    if q0 = q1 then part q0
    else part q0 ++ (if q0 + 1 < q1 then [(r.baseCh + (q0 + 1) * g, (q1 - q0 - 1) * g)] else []) ++ part q1

/-! ## Maintenance operations -/

/-- The whole address range, for an operation on every line. -/
def wholeRange : MaintOp := { op := 1, base := 0, size := 2 ^ 50, ways := 0, reg := 127 }

/-- The region that wholly holds a range. -/
def rangeRegion (s : State) (base size : Nat) : Option Region := s.cfg.regions.find? (fun r => r.base ≤ base && base + size ≤ r.base + r.size)

/-- The ways an operation names: zero names every way that is not SCRATCH (R162). -/
def effWays (s : State) (j ways : Nat) : List Nat :=
  (List.range 16).filter (fun w => if ways = 0 then wayMode s j w ≠ 2 else ways.testBit w)

/-- What is found wrong when an operation starts (R159, R164): 0 if nothing. -/
def maintCheck (s : State) (j : Nat) (m : MaintOp) : Nat :=
  if m.size = 0 || m.base + m.size > 2 ^ 50 then 1
  else if m.op < 4 then 0
  else
    let scratch := m.op = 4 && scratchBase ≤ m.base && m.base + m.size ≤ remoteBase
    match rangeRegion s m.base m.size with
    | none => if scratch then 0 else 1
    | some r =>
      if r.interleave = 5 then 2
      else if m.op = 4 then 0
      else
        let ws := effWays s j m.ways
        if ws.any (fun w => wayMode s j w ≠ 1) then 3
        else if s.cfg.strict && ws.any (fun w => r.readMask ≠ 1#64 <<< (wayOwner s j w)) then 2
        else 0

/-- The lines of the array in a slice that a range and a set of ways hold, SCRATCH ways left out: key, set and way. -/
def heldLines (s : State) (j : Nat) (m : MaintOp) : List (Nat × Nat × LlaLine) :=
  s.lla.lines.filterMap (fun p =>
    let w := p.1 % 16
    let st := p.1 / 16 % 16384
    if p.1 / 262144 = j && wayMode s j w ≠ 2 && p.2.valid && (effWays s j m.ways).contains w
        && m.base ≤ p.2.tag * 128 && p.2.tag * 128 < m.base + m.size then some (st, w, p.2) else none)

/-- How far a walk of an operation has come, with the lines it processed and those it could not place. -/
structure Walk where
  s : State
  pos : MaintPos
  lines : Nat := 0
  no : Nat := 0
  deriving DecidableEq, Repr

/-- The place of a line in an operation's walk: ascending channel address on each channel (R164), lines of REMOTE regions after those of memory. -/
def lineOrder (s : State) (line : Nat) : Nat :=
  match s.cfg.locate (line * 128) with
  | .hbm _ ch ca => ca / 128 * 8 + ch % 8
  | _ => 2 ^ 41 + line

/-- Puts a line in its place in a walk. -/
def placeLine (p : Nat × Nat × Nat × LlaLine) : List (Nat × Nat × Nat × LlaLine) → List (Nat × Nat × Nat × LlaLine)
  | [] => [p]
  | q :: r => if p.1 ≤ q.1 then p :: q :: r else q :: placeLine p r

/-- The lines of an operation from a place on, in the order of its walk: place, set, way. -/
def walkLines (s : State) (j cur : Nat) (m : MaintOp) : List (Nat × Nat × Nat × LlaLine) :=
  (((heldLines s j m).map (fun p => (lineOrder s p.2.2.tag, p))).filter (fun p => cur ≤ p.1)).foldr placeLine []

/-- One line step of a clean, a drop, or both (R162): the state and whether the line was acted on; none while it cannot be written back, or its
regulator admits no line. A context of the hub waits for the owners of the lines it sends them (R238). -/
def sweepLine (s : State) (j slice : Nat) (m : MaintOp) (system clean drop : Bool) (st w : Nat) (l : LlaLine) : Option (State × Bool) :=
  if clean && l.dirty then
    if admitLines s m.reg 1 = 0 then none
    else (writeBackFor (chargeLines s m.reg 1) (if system then sysTag j else 0x60000) system j slice m.reg l).map (fun (s, fail) =>
      let s := if system && fail ≠ 0 then { s with lla := { s.lla with owedFail := (sysTag j, fail) :: s.lla.owedFail } } else s
      (setWay s j st w (if drop then {} else { l with dirty := false }), true))
  else some (if drop then setWay s j st w {} else s, drop)

/-- Line steps of a sweep over the lines given, in order, until one must wait. -/
def sweepLines (j slice : Nat) (m : MaintOp) (system clean drop : Bool) : List (Nat × Nat × Nat × LlaLine) → Walk → Walk
  | [], x => { x with pos := { x.pos with walked := true } }
  | (o, st, w, l) :: rest, x =>
    match sweepLine x.s j slice m system clean drop st w l with
    | none => x
    | some (s, acted) => sweepLines j slice m system clean drop rest { x with s := s, pos := { x.pos with cur := o + 1 }, lines := x.lines + (if acted then 1 else 0) }

/-- At most `limit` line steps of a sweep; a release acts on dirty lines alone. -/
def sweepWalk (x : Walk) (j slice limit : Nat) (m : MaintOp) (system clean drop : Bool) : Walk :=
  let ls := (walkLines x.s j x.pos.cur m).filter (fun p => m.op ≠ 7 || p.2.2.2.dirty)
  let y := sweepLines j slice m system clean drop (ls.take limit) x
  { y with pos := { y.pos with walked := y.pos.walked && ls.length ≤ limit } }

/-- A sweep of every line given, for the hub: whether each could go. -/
def sweepAll (s : State) (j reg : Nat) (drop : Bool) (keep : Nat × Nat × Nat × LlaLine → Bool) : State × Bool :=
  let x := sweepLines j 0xFF { wholeRange with reg := reg } false true drop ((walkLines s j 0 wholeRange).filter keep) { s := s, pos := {} }
  (x.s, x.pos.walked)

/-! ### Copies that agents hold -/

/-- The lines of a range homed at a slice that agents hold. -/
def agentLines (s : State) (j : Nat) (m : MaintOp) : List Nat :=
  (s.lla.dir.filter (fun p => p.1 / 65536 = j && p.2.st ≠ .none && m.base ≤ p.2.line * 128 && p.2.line * 128 < m.base + m.size)).map (fun p => p.2.line)

/-- Whether an agent holds a line in X. -/
def heldExclusive (s : State) (line : Nat) : Bool := match dirOf s (line * 128) with | .exclusive _ => true | _ => false

/-- A context calls for the copies of a line that agents hold, in the line's order (R220): opcode 4 asks the owner for its data, 0 drops every copy. -/
def recallLine (s : State) (j : Nat) (system : Bool) (opc line : Nat) : State :=
  let w := maintWaiter j system
  if s.txns.any (fun t => t.src = .recall w && t.line = line) then s
  else
    let t : Txn := { id := s.nextTxn, src := .recall w, opc := opc, addr := line * 128, charged := true }
    runTxn { s with nextTxn := s.nextTxn + 1, txns := s.txns ++ [t] } t.id

/-- Whether a context still waits for copies it called for. -/
def recalling (s : State) (j : Nat) (system : Bool) : Bool := s.txns.any (fun t => t.src = .recall (maintWaiter j system))

/-! ### Walks over every line of a range -/

/-- The parts of a range at a slice, and how many columns they lie in: for memory the eight channels with spans of channel addresses, for the scratch
window the sixteen ways with spans of offsets. Each is column, first byte and length. -/
def maintSpans (s : State) (j : Nat) (m : MaintOp) : Nat × List (Nat × Nat × Nat) :=
  match rangeRegion s m.base m.size with
  | some r => (8, (List.range 8).flatMap (fun i => (rangeSpans r m.base m.size (8 * j + i)).map (fun p => (i, p.1, p.2))))
  | none =>
    (16, ((List.range 16).filter (fun w => wayMode s j w = 2)).filterMap (fun w =>
      let lo := scratchBase + j * 0x2000000 + w * 0x200000
      let a := max m.base lo
      let b := min (m.base + m.size) (lo + 0x200000)
      if a < b then some (w, a - lo, b - a) else none))

/-- First line of a column at or after a place, of the walk that takes line `a` of column `i` of `n` at place `a * n + i`. -/
def lineAt (n i cur : Nat) : Nat := (cur + n - 1 - i) / n

/-- What is left of spans from a place on. -/
def spansFrom (n cur : Nat) (spans : List (Nat × Nat × Nat)) : List (Nat × Nat × Nat) :=
  spans.filterMap (fun p =>
    let lo := max p.2.1 (lineAt n p.1 cur * 128)
    if lo < p.2.1 + p.2.2 then some (p.1, lo, p.2.1 + p.2.2 - lo) else none)

/-- Lines in spans. -/
def spanLines (spans : List (Nat × Nat × Nat)) : Nat := (spans.map (fun p => p.2.2 / 128)).sum

/-- The place of the first line in spans, if there is one. -/
def firstPlace (n : Nat) (spans : List (Nat × Nat × Nat)) : Option Nat :=
  spans.foldl (fun acc p => let o := p.2.1 / 128 * n + p.1; match acc with | none => some o | some b => some (min o b)) none

/-- Whether a column of a range is out of service: a channel that is (R164). -/
def columnOut (s : State) (j n i : Nat) : Bool := n = 8 && chanState s (8 * j + i) = 3

/-- Zeroes a span of one channel: bytes, poison and undefined contents (R162). -/
def zeroSpan (s : State) (ch ca len : Nat) : State :=
  let lo := memKey ch ca
  { s with mem := s.mem.filter (fun c => !(lo ≤ c.1 && c.1 < lo + len)),
           poison := s.poison.filter (fun l => !(lo ≤ l * 128 && l * 128 < lo + len)), undef := punch lo len s.undef, recent := s.wrote lo len }

/-- The copy of a zeroed line that a way holds: a LOCKED one is zeroed and clean, a CACHE one dropped (R162). -/
def zeroWay (s : State) (j st w : Nat) (l : LlaLine) : State :=
  if wayMode s j w = 1 then setWay s j st w { l with data := 0, dirty := false, poison := false } else setWay s j st w {}

/-- A ZERO that has walked its range removes the pages of it from quarantine, line by line of its slice (R454). -/
def zeroQuar (s : State) (j : Nat) (m : MaintOp) : State :=
  let clear := fun (q : Quar) => (List.range 32).foldl (fun (v : BitVec 32) i =>
    let pa := q.page * 4096 + i * 128
    if m.base ≤ pa && pa < m.base + m.size && (s.cfg.locate pa).home.1 = j then v &&& ~~~((1 : BitVec 32) <<< i) else v) q.left
  let kept := s.fcu.quar.map (fun e => (e.1, e.2.bind (fun q => if clear q = 0 then none else some { q with left := clear q })))
  { s with fcu := { s.fcu with quar := kept.filter (fun e => e.2.isSome) } }

/-- Physical address of a line in a column. -/
def columnAddr (s : State) (j n i a : Nat) (m : MaintOp) : Nat :=
  if n = 16 then scratchBase + j * 0x2000000 + i * 0x200000 + a * 128
  else ((rangeRegion s m.base m.size).bind (fun r => r.paOf (8 * j + i) (a * 128))).getD 0

/-- One line step of a ZERO at a place, ordered at the home (R178): it waits for the line's transactions, for agents' copies, which it recalls, and for a
channel that is not UP. The state, and whether the line was zeroed. -/
def zeroLine (s : State) (j n place : Nat) (m : MaintOp) (system : Bool) : State × Bool :=
  let i := place % n
  let a := place / n
  let pa := columnAddr s j n i a m
  let line := pa / 128
  if s.txns.any (fun t => t.active && t.charged && t.line = line) then (s, false)
  else if dirOf s pa ≠ .none then (recallLine s j system 0 line, false)
  else if admitLines s m.reg 1 = 0 then (s, false)
  else if n = 16 then (setWay (chargeLines s m.reg 1) j a i {}, true)
  else if chanState s (8 * j + i) ≠ 1 then (s, false)
  else
    let s := maintOffer (zeroSpan (chargeLines s m.reg 1) (8 * j + i) (a * 128) 128) m.reg (8 * j + i) (a * 128)
    (match lookup s j (llaSet (8 * j + i) (a * 128)) line with
      | some w => zeroWay s j (llaSet (8 * j + i) (a * 128)) w (s.way j (llaSet (8 * j + i) (a * 128)) w)
      | none => s, true)

/-- All the lines of spans zeroed at once, where nothing holds any of them. -/
def zeroRest (s : State) (j n : Nat) (m : MaintOp) (live : List (Nat × Nat × Nat)) : State :=
  let s := chargeLines s m.reg (spanLines live)
  let inLive := fun (place : Nat) => live.any (fun p => p.1 = place % n && p.2.1 ≤ place / n * 128 && place / n * 128 < p.2.1 + p.2.2)
  if n = 16 then
    { s with lla := { s.lla with lines := s.lla.lines.filter (fun p => !(p.1 / 262144 = j && wayMode s j (p.1 % 16) = 2 && inLive (p.1 / 16 % 16384 * 16 + p.1 % 16))) } }
  else
    let s := live.foldl (fun s p =>
      let s := zeroSpan s (8 * j + p.1) p.2.1 p.2.2
      (List.range (min 64 (p.2.2 / 128))).foldl (fun s k => maintOffer s m.reg (8 * j + p.1) (p.2.1 + 128 * k)) s) s
    (heldLines s j { m with ways := 0 }).foldl (fun s p => if inLive (lineOrder s p.2.2.tag) then zeroWay s j p.1 p.2.1 p.2.2 else s) s

/-- Line steps of a ZERO, one by one, until one must wait. -/
def zeroLines (j n : Nat) (m : MaintOp) (system : Bool) : Nat → Walk → Walk
  | 0, x => x
  | fuel + 1, x =>
    match firstPlace n ((spansFrom n x.pos.cur (maintSpans x.s j m).2).filter (fun p => !columnOut x.s j n p.1)) with
    | none => x
    | some o =>
      match zeroLine x.s j n o m system with
      | (s, false) => { x with s := s }
      | (s, true) => zeroLines j n m system fuel { x with s := s, pos := { x.pos with cur := o + 1 }, lines := x.lines + 1 }

/-- Whether nothing holds a line of a ZERO's range: no transaction at its homes, and no channel of it held. -/
def zeroFree (s : State) (j n : Nat) (m : MaintOp) (live : List (Nat × Nat × Nat)) : Bool :=
  !s.txns.any (fun t => t.active && t.charged && m.base ≤ t.addr && t.addr < m.base + m.size && (s.cfg.locate t.addr).home.1 = j) &&
    (n = 16 || live.all (fun p => chanState s (8 * j + p.1) = 1))

/-- At most `limit` line steps of a ZERO (R162, R164). Where all that is left may go at once, it does. -/
def zeroWalk (x : Walk) (j limit : Nat) (m : MaintOp) (system : Bool) : Walk :=
  let n := (maintSpans x.s j m).1
  let rest := spansFrom n x.pos.cur (maintSpans x.s j m).2
  let live := rest.filter (fun p => !columnOut x.s j n p.1)
  let x := { x with pos := { x.pos with bad := x.pos.bad || live.length < rest.length } }
  let total := spanLines live
  let done := fun (y : Walk) => { y with s := zeroQuar y.s j m, pos := { y.pos with walked := true } }
  if live.isEmpty then done x
  else if total ≤ limit && total ≤ admitLines x.s m.reg total then
    if !(agentLines x.s j m).isEmpty then { x with s := (agentLines x.s j m).foldl (fun s l => recallLine s j system 0 l) x.s }
    else if zeroFree x.s j n m live then done { x with s := zeroRest x.s j n m live, lines := x.lines + total }
    else x
  else zeroLines j n m system (min limit (admitLines x.s m.reg total)) x

/-- One line step of a PRELOAD (R162): whether the line is placed in a LOCKED way of its set; none while it must wait. -/
def preloadLine (s : State) (j ch ca pa reg : Nat) (ws : List Nat) : Option (State × Bool) :=
  let st := llaSet ch ca
  let free := ws.find? (fun w => !(s.way j st w).valid)
  match lookup s j st (pa / 128), free with
  | some w, d =>
    if wayMode s j w = 1 then some (s, true)
    else match d with
      | some d => let l := s.way j st w
                  some (if l.poison then (s, false) else (setWay (setWay s j st w {}) j st d l, true))
      | none => some (s, false)
  | none, none => some (s, false)
  | none, some d =>
    if chanState s ch ≠ 1 || admitLines s reg 1 = 0 then none
    else
      let s := maintOffer (chargeLines s reg 1) reg ch ca
      some (if memPoisoned s ch ca then (s, false) else (setWay s j st d { valid := true, tag := pa / 128, data := memLine s ch ca }, true))

/-- Line steps of a PRELOAD until one must wait. -/
def preloadLines (j : Nat) (m : MaintOp) (r : Region) (ws : List Nat) : Nat → Walk → Walk
  | 0, x => x
  | fuel + 1, x =>
    match firstPlace 8 ((spansFrom 8 x.pos.cur (maintSpans x.s j m).2).filter (fun p => !columnOut x.s j 8 p.1)) with
    | none => x
    | some o =>
      let ch := 8 * j + o % 8
      match preloadLine x.s j ch (o / 8 * 128) ((r.paOf ch (o / 8 * 128)).getD 0) m.reg ws with
      | none => x
      | some (s, placed) =>
        preloadLines j m r ws fuel { s := s, pos := { x.pos with cur := o + 1 }, lines := x.lines + (if placed then 1 else 0), no := x.no + (if placed then 0 else 1) }

/-- At most `limit` line steps of a PRELOAD (R162, R164). -/
def preloadWalk (x : Walk) (j limit : Nat) (m : MaintOp) : Walk :=
  match rangeRegion x.s m.base m.size with
  | none => { x with pos := { x.pos with walked := true } }
  | some r =>
    let left := fun (y : Walk) => spansFrom 8 y.pos.cur (maintSpans y.s j m).2
    let live := fun (y : Walk) => (left y).filter (fun p => !columnOut y.s j 8 p.1)
    let x := { x with pos := { x.pos with bad := x.pos.bad || (live x).length < (left x).length } }
    let y := preloadLines j m r (effWays x.s j m.ways) (min limit (spanLines (live x))) x
    { y with pos := { y.pos with walked := (live y).isEmpty } }

/-! ### Operations -/

/-- A release or acquire first calls for what the agents hold of its range: the data of the lines held in X, or every copy; and it waits for the lines of
the range that are on their way to their owners (R238, R239). -/
def callAgents (x : Walk) (j : Nat) (m : MaintOp) : Walk :=
  let s := x.s
  let lines := (agentLines s j m).filter (fun l => m.op = 8 || heldExclusive s l)
  let going := (s.rops.filter (fun o => o.kind = 1 && o.done = none && m.base ≤ o.line * 128 && o.line * 128 < m.base + m.size
    && (s.cfg.locate (o.line * 128)).home.1 = j)).map (fun o => (sysTag j, o.line))
  { x with s := lines.foldl (fun s l => recallLine s j true (if m.op = 7 then 4 else 0) l) { s with lla := { s.lla with owed := going ++ s.lla.owed } }
           pos := { x.pos with recalled := true } }

/-- At most `limit` line steps of an operation (R161, R162). Operations 7 and 8 are the FABRIC release and acquire of the system context. -/
def maintWalk (x : Walk) (j slice limit : Nat) (m : MaintOp) (system : Bool) : Walk :=
  if x.pos.walked then x
  else match m.op with
    | 1 => sweepWalk x j slice limit m system true false
    | 2 => sweepWalk x j slice limit m system false true
    | 3 => sweepWalk x j slice limit m system true true
    | 4 => zeroWalk x j limit m system
    | 5 => preloadWalk x j limit m
    | op =>
      let x := if x.pos.recalled then x else callAgents x j m
      if recalling x.s j system then x else sweepWalk x j slice limit m system true (op = 8)

/-- The slice a system operation runs for. -/
def SysFor.slice (s : State) : SysFor → Nat
  | .wayScrub n => n
  | .regionScrub n _ => n
  | .release id => ((s.fabOps.find? (fun f => f.id = id)).map (·.slice)).getD 0xFF
  | .acquire id => ((s.fabOps.find? (fun f => f.id = id)).map (·.slice)).getD 0xFF
  | .reload => 0xFF

/-- Lines a release or acquire has written back. -/
def countFab (s : State) (who : SysFor) (n : Nat) : State :=
  match who with
  | .release id => { s with fabOps := s.fabOps.map (fun f => if f.id = id then { f with lines := f.lines + n } else f) }
  | .acquire id => { s with fabOps := s.fabOps.map (fun f => if f.id = id then { f with lines := f.lines + n } else f) }
  | _ => s

/-- At most `limit` line steps of the operation of a context. -/
def maintAdvance (s : State) (j : Nat) (system : Bool) (limit : Nat) : State :=
  let h := s.home j
  if system then
    match h.sys with
    | [] => s
    | (m, who) :: _ =>
      let x := maintWalk { s := s, pos := h.sysPos } j (who.slice s) limit m true
      let s := setHome x.s j { x.s.home j with sysPos := x.pos }
      countFab s who ((s.home j).writebacks - h.writebacks)
  else
    match h.running with
    | none => s
    | some m =>
      let x := maintWalk { s := s, pos := h.pos } j 0xFF limit m false
      setHome x.s j { x.s.home j with pos := x.pos, lines := h.lines + x.lines, notPlaced := min (h.notPlaced + x.no) (2 ^ 20 - 1) }

/-- The line steps of one idle cycle: each context of each slice takes one (R161). -/
def maintTick (s : State) : State :=
  (List.range 32).foldl (fun s j =>
    let s := if (s.home j).running.isSome then maintAdvance s j false 1 else s
    if (s.home j).sys.isEmpty then s else maintAdvance s j true 1) s

/-- A step with no command: TIME advances by one clock edge, and maintenance by its line steps (DESIGN CHOICE, log 7). -/
def idle (s : State) : State := let s := tick s; if s.quiet then s else maintTick s

/-- Queues operations on a slice's system context, which holds eight in order; more wait (R161). -/
def pushSys (s : State) (j : Nat) (ops : List (MaintOp × SysFor)) : State :=
  let h := s.home j
  let all := h.sysMore ++ ops
  setHome s j { h with sys := h.sys ++ all.take (8 - h.sys.length), sysMore := all.drop (8 - h.sys.length) }

/-- The first operation of a system context is over: the next one that waits takes its place. -/
def popSys (s : State) (j : Nat) : State :=
  let h := s.home j
  setHome s j { h with sys := h.sys.drop 1 ++ h.sysMore.take 1, sysMore := h.sysMore.drop 1, sysPos := {} }

/-- A write of LLA_MAINT_CTL at one slice (R163). -/
def maintCtl (s : State) (j op ways reg : Nat) : State :=
  let h := s.home j
  if s.quiet then s
  else if op = 0 then setHome s j { h with mWays := ways, mReg := reg }
  else if op ≤ 5 then
    if h.mState = 1 then s
    else
      let m : MaintOp := { op := op, base := h.mBase, size := h.mSize, ways := ways, reg := reg }
      let e := maintCheck s j m
      setHome s j { h with mWays := ways, mReg := reg, running := if e = 0 then some m else none, lines := 0, notPlaced := 0, mError := e,
                           mState := if e = 0 then 1 else 3, pos := {} }
  else if op = 6 then
    if h.mState = 1 then
      let s := maintAdvance { s with draws := s.draws + 1 } j false (Config.abortLines s.draws)
      setHome s j { s.home j with running := none, pos := {}, mError := 4, mState := 3 }
    else setHome s j { h with mWays := ways, mReg := reg }
  else s

/-- A write of LLA_MAINT_CTL on a slice's page, or on the broadcast page. -/
def maintWrite (slice : Option (Fin 32)) (op : Nat) (ways : BitVec 16) (reg : BitVec 7) (s : State) : State :=
  match slice with
  | some j => maintCtl s j op ways.toNat reg.toNat
  | none => (List.range 32).foldl (fun s j => maintCtl s j op ways.toNat reg.toNat) s

/-- LLA_MAINT_STORE (R163): OP 0 stores WAYS and REG. -/
def execLlaMaintStore (slice : Option (Fin 32)) (ways : BitVec 16) (reg : BitVec 7) (s : State) : Host.Outcome State Fault Refusal :=
  .next (maintWrite slice 0 ways reg s)
/-- CLEAN (R162). -/
def execClean (slice : Option (Fin 32)) (ways : BitVec 16) (reg : BitVec 7) (s : State) : Host.Outcome State Fault Refusal :=
  .next (maintWrite slice 1 ways reg s)
/-- INVALIDATE (R162). -/
def execInvalidate (slice : Option (Fin 32)) (ways : BitVec 16) (reg : BitVec 7) (s : State) : Host.Outcome State Fault Refusal :=
  .next (maintWrite slice 2 ways reg s)
/-- CLEAN_INVALIDATE (R162). -/
def execCleanInvalidate (slice : Option (Fin 32)) (ways : BitVec 16) (reg : BitVec 7) (s : State) : Host.Outcome State Fault Refusal :=
  .next (maintWrite slice 3 ways reg s)
/-- ZERO (R162). -/
def execLlaZero (slice : Option (Fin 32)) (ways : BitVec 16) (reg : BitVec 7) (s : State) : Host.Outcome State Fault Refusal :=
  .next (maintWrite slice 4 ways reg s)
/-- PRELOAD (R162). -/
def execPreload (slice : Option (Fin 32)) (ways : BitVec 16) (reg : BitVec 7) (s : State) : Host.Outcome State Fault Refusal :=
  .next (maintWrite slice 5 ways reg s)
/-- MAINT_ABORT (R162–R164). -/
def execMaintAbort (slice : Option (Fin 32)) (ways : BitVec 16) (reg : BitVec 7) (s : State) : Host.Outcome State Fault Refusal :=
  .next (maintWrite slice 6 ways reg s)

/-- An operation of a system context is over (R161): its slice's scrubs, or the release or acquire it belongs to, count it. A
scrub that a reload repeats passes over channels out of service (R389). -/
def systemDone (s : State) (j : Nat) (who : SysFor) (error : Nat) : State :=
  let scrub := fun (n : Nat) =>
    let sl := s.slice n
    setSlice s n { sl with scrubsLeft := sl.scrubsLeft - 1, scrubFailed := sl.scrubFailed || (error ≠ 0 && !(error = 5 && s.chart.state = 4)) }
  let fab := fun (id : Nat) =>
    let more := (s.home j).sys.any (fun p => p.2 = who) || (s.home j).sysMore.any (fun p => p.2 = who)
    { s with fabOps := s.fabOps.map (fun f =>
      if f.id = id then { f with contexts := if more then f.contexts else f.contexts &&& ~~~((1 : BitVec 32) <<< j), status := if f.status = 0 then error else f.status } else f) }
  match who with
  | .wayScrub n => scrub n
  | .regionScrub n _ => scrub n
  | .release id => fab id
  | .acquire id => fab id
  | .reload => s

/-- The first operation of a slice's system context, once it has walked the slice: its lines have reached their owners, and it is over. -/
def endSystem (s : State) (j : Nat) : State :=
  match (s.home j).sys with
  | [] => s
  | (_, who) :: _ =>
    if !(s.home j).sysPos.walked then s
    else
      let close := fun (s : State) (st : Nat) =>
        settleAll (systemDone (popSys (endWork s (sysTag j)) j) j who (if st = 0 && (s.home j).sysPos.bad then 5 else st))
      match finishWrites s (sysTag j) (who.slice s) with
      | (s, .wait) => settleAll s
      | (s, .done) => close s 0
      | (s, .fail st) => close s st

/-- MAINT_DONE (R161–R165): the operation of the register context, or the first of the system context, walks the rest of its slice, and is over where
nothing it does must wait. -/
def execMaintDone (slice : Fin 32) (system : Bool) (s : State) : Host.Outcome State Fault Refusal :=
  let j := slice.val
  .next (if s.quiet then s
  else
    let s := maintAdvance s j system (2 ^ 64)
    if system then endSystem s j
    else
      let h := s.home j
      settleAll (if h.running.isSome && h.pos.walked then
        setHome s j { h with running := none, pos := {}, mError := if h.pos.bad then 5 else 0, mState := if h.pos.bad then 3 else 2 }
      else s))

/-! ## Enabling, disabling, initialising -/

/-- LLA_ENABLE (R163, R167, R178): ENABLE written 1. -/
def execLlaEnable (s : State) : Host.Outcome State Fault Refusal :=
  .next (if s.quiet || s.lla.state = 3 then s
  else { s with lla := { s.lla with enable := true, state := if s.lla.state = 0 || s.lla.state = 2 then 1 else s.lla.state } })

/-- LLA_DISABLE (R163, R167): ENABLE written 0. -/
def execLlaDisable (s : State) : Host.Outcome State Fault Refusal :=
  .next (if s.quiet || s.lla.state = 3 then s
  else { s with lla := { s.lla with enable := false, state := if s.lla.state = 1 then 2 else s.lla.state } })

/-- LLA_DISABLE_DONE (R167): every dirty line of CACHE and LOCKED ways is clean. -/
def execLlaDisableDone (s : State) : Host.Outcome State Fault Refusal :=
  .next (if s.quiet || s.lla.state ≠ 2 then s
  else
    let (s, ok) := (List.range 32).foldl (fun (acc : State × Bool) j => let r := sweepAll acc.1 j 127 false (fun _ => true); (r.1, acc.2 && r.2)) (s, true)
    settleAll (if ok then { s with lla := { s.lla with state := 0 } } else s))

/-- LLA_INIT_DONE (R158, R163, R168, R426): every way zero and invalid, LFSRs seeded, counters and directory clear. -/
def execLlaInitDone (s : State) : Host.Outcome State Fault Refusal :=
  .next (if s.quiet || !s.glb.initRun then s
  else
    let slices := (List.range 32).foldl (fun t j => Tab.modify {} t j (fun h =>
      { h with lfsr := 0xACE1, dirLfsr := 0xACE1, hits := 0, misses := 0, writebacks := 0 })) s.lla.slices
    settleAll { s with
      lla := { s.lla with enable := true, initDone := true, state := 1, lines := [], dir := [], slices := slices }
      glb := { s.glb with lla := true, dir := true, initRun := false, doneMask := s.glb.doneMask ||| 8,
                          stepState := if s.glb.step = 4 then 2 else s.glb.stepState } })

/-! ## Controllers -/

/-- A controller works: its channel is in service, and neither a reload nor the safe state suspends it (R177). -/
def chanBusy (s : State) (ch : Nat) : Bool := chanState s ch = 1 && !s.quiet && s.chart.state ≠ 4

/-- PATROL_SCRUB (R171): a corrected line is rewritten, an uncorrectable one poisoned unless its home slice holds it dirty. -/
def execPatrolScrub (ch : Fin 256) (caLine : BitVec 25) (err : SilErr) (s : State) : Host.Outcome State Fault Refusal :=
  let c := ch.val
  let ca := caLine.toNat * 128
  .next (if !chanBusy s c || !s.glb.open_ then s
  else match err with
    | .corrected => countCe s c
    | .hbm =>
      match regionAt s c ca with
      | none =>
        let key := memKey c ca / 128
        let s := { countUe s c 0 with poison := if s.poison.contains key then s.poison else key :: s.poison }
        raise s (400 + c) { unit := c, info0 := (s.mc (c / 2)).errAddr.toNat }
      | some (r, pa) =>
        let dirty := match (if llaOn s then lookup s (c / 8) (llaSet c ca) (pa / 128) else none) with
          | some w => (s.way (c / 8) (llaSet c ca) w).dirty
          | none => false
        if dirty then s
        else
          let key := memKey c ca / 128
          let s := { countUe s c pa with poison := if s.poison.contains key then s.poison else key :: s.poison }
          quarantine (raise s (400 + c) { unit := c, addr := pa, info0 := (s.mc (c / 2)).errAddr.toNat }) r pa
    | _ => s)

/-- ROW_SPARE (R172): the row is repaired and its repair fused, or the stack is repair-exhausted. -/
def execRowSpare (ch : Fin 256) (spareLeft : Bool) (s : State) : Host.Outcome State Fault Refusal :=
  let k := ch.val / 32
  let used := Tab.get 0 s.fuses.ppr k
  .next (if chanState s ch ≠ 1 || s.quiet then s
  else if spareLeft && used < 256 then
    let m := s.mc (ch / 2)
    setMc { s with fuses := { s.fuses with ppr := Tab.set 0 s.fuses.ppr k (used + 1) } } (ch / 2) { m with pprDone := (m.pprDone + 1) % 65536 }
  else raise s (912 + k) { unit := k })

/-- CHANNEL_RETIRE (R173, R433): the channel is out of service for the epoch; the stack is DEGRADED, or RETIRED with its last one. -/
def execChannelRetire (ch : Fin 256) (s : State) : Host.Outcome State Fault Refusal :=
  let c := ch.val
  let k := 8 + c / 32
  let st := chanState s c
  .next (if (st ≠ 1 && st ≠ 2) || s.quiet then s
  else
    let s := setChan { s with chOut := s.chOut ++ [c], noc := { s.noc with mcq := s.noc.mcq.filter (fun q => q.ch ≠ c) } } c 3
    let x := s.site k
    let s := setSite s k { x with unitsUp := x.unitsUp - 1, state := if x.unitsUp ≤ 1 then 7 else 5 }
    let sk : Stack := Tab.get {} s.hstacks (c / 32)
    let s := { s with hstacks := Tab.set {} s.hstacks (c / 32) (if sk.recalCh = some c then { sk with recalCh := none } else sk) }
    settleAll (raise s (656 + c) { unit := c }))

/-- Thermal state of a stack or sensor: the thresholds from the highest down, entered when reached and left 3 °C below (R174, R463). -/
def thermState (old temp : Nat) (ts : List Nat) : Nat :=
  let enter := (ts.filter (fun t => temp ≥ t)).length
  let stay := (ts.filter (fun t => temp + 3 > t)).length
  if enter ≥ old then enter else min old stay

/-- A thermal trip (R464): THERMTRIP_N latched; PD8–PD42 but PD32, and PD44–PD47, are TRIPPED, with what they power. -/
def thermTrip (s : State) (sensor : Nat) : State :=
  if s.pins.thermTrip then s
  else
    let ds := (List.range 48).filter (fun d => 8 ≤ d && d ≠ 32 && d ≠ 43)
    let s := ds.foldl (fun s d => { s with tel := { s.tel with pd := Tab.modify {} s.tel.pd d (fun p => { p with state := 4 }) } }) s
    let s := (List.range 8).foldl loseStack s
    let s := (List.range 256).foldl (fun s c => setChan s c 0) s
    let s := (List.range 16).foldl (fun s k => if (s.site k).state = 7 then s else setSite s k { s.site k with state := 0, pwrReq := false, clkFwd := false, rstRel := false, train := false, unitsUp := 0, stopAt := none }) s
    let s := (List.range 128).foldl (fun s p => if (s.port p).state = 0 then s else setPort s p { s.port p with state := 0 }) s
    { s with pins := { s.pins with thermTrip := true }, tel := { s.tel with tripSensor := some sensor },
             cores := (s.cores.filter (fun p => p.2.st = .retired)).map (fun p => (p.1, { st := .retired })),
             runs := [], nx := { s.nx with colls := [] }, lla := { s.lla with lines := [] }, txns := s.txns.filter (fun t => t.agent.isNone) }

/-- STACK_TEMP_READ (R174, R464): the reading every 1 ms; time spent HOT or CRITICAL is counted. -/
def execStackTempRead (stack : Fin 8) (temp : BitVec 8) (s : State) : Host.Outcome State Fault Refusal :=
  let k := stack.val
  let t := temp.toNat
  let x : Stack := Tab.get {} s.hstacks k
  .next (if !siteUp s (8 + k) then s
  else
    let th := thermState x.therm t [85, 95, 105]
    let x' := { x with therm := th, temp := t, lastRead := s.time,
                       throttleNs := if x.therm ≥ 2 then (x.throttleNs + (s.time + timeMod - x.lastRead) % timeMod) % 2 ^ 64 else x.throttleNs }
    let s := { s with hstacks := Tab.set {} s.hstacks k x' }
    let s := if th = 3 && x.therm ≠ 3 then raise s (920 + k) { unit := k } else s
    if t ≥ 110 then thermTrip s (0x80 + k) else s)

/-- REFRESH (R176): keeps the contents, and changes nothing the model holds. -/
def execRefresh (_ch : Fin 256) (s : State) : Host.Outcome State Fault Refusal := .next s

/-- When a channel falls due for recalibration (R176): 250 ms after its last one, or at once where its stack's temperature has moved 5 °C since. -/
def recalDue (s : State) (ch : Nat) : Nat :=
  let x : Stack := Tab.get {} s.hstacks (ch / 32)
  let c := Tab.get (0, 0) x.cal (ch % 32)
  if x.temp ≥ c.2 + 5 || c.2 ≥ x.temp + 5 then min x.lastRead (c.1 + 250000000) else c.1 + 250000000

/-- When a channel that is due recalibrates (R176): once it has had no queued request for 200 ns, and within 50 ms in any case. -/
def recalAt (s : State) (ch : Nat) : Nat :=
  let due := recalDue s ch
  if s.noc.mcq.any (fun q => q.ch = ch) then due + 50000000 else min (max due (Tab.get 0 s.noc.lastReq ch + 200)) (due + 50000000)

/-- RECALIBRATION (R176, R177): one channel of a stack at a time; its requests are held. TIME is brought to when it may begin (log 8). -/
def execRecalibration (ch : Fin 256) (s : State) : Host.Outcome State Fault Refusal :=
  let k := ch.val / 32
  let x : Stack := Tab.get {} s.hstacks k
  .next (if chanBusy s ch && x.recalCh.isNone then
    let s := advanceTo (recalAt s ch) s
    setChan { s with hstacks := Tab.set {} s.hstacks k { x with recalCh := some ch.val } } ch 2
  else s)

/-- RECAL_DONE (R173, R176, R177): the channel is UP again and serves what it held; the time and temperature are those of its last calibration. -/
def execRecalDone (ch : Fin 256) (s : State) : Host.Outcome State Fault Refusal :=
  let k := ch.val / 32
  let x : Stack := Tab.get {} s.hstacks k
  .next (if chanState s ch = 2 && !s.quiet then
    let s := setChan { s with hstacks := Tab.set {} s.hstacks k { x with recalCh := none, cal := Tab.set (0, 0) x.cal (ch % 32) (s.time, x.temp) } } ch 1
    let m := s.mc (ch / 2)
    settleAll (setMc s (ch / 2) { m with recals := (m.recals + 1) % 65536 })
  else s)

/-! ## FABRIC releases and acquires -/

/-- Starts a FABRIC release or acquire of a slice on REMOTE_CACHEABLE regions (R237–R239): one operation per region on each home
slice's system context. The state and the operation's number. A line that is being fetched when an acquire starts may predate it, and is not kept. -/
def startFab (s : State) (slice : Nat) (regions : BitVec 16) (acquire keep : Bool) : State × Nat :=
  let rs := s.cfg.regions.filter (fun r => regions.getLsbD r.num && r.remoteCacheable && r.interleave = 5)
  let id := s.nextTxn
  let f : FabOp := { id := id, slice := slice, regions := regions, acquire := acquire, contexts := if rs.isEmpty then 0 else BitVec.allOnes 32, keep := keep }
  let ops := rs.map (fun r => (({ op := if acquire then 8 else 7, base := r.base, size := r.size, ways := 0, reg := slice } : MaintOp),
    if acquire then SysFor.acquire id else SysFor.release id))
  let fetching := fun (t : Txn) => acquire && t.stage = .remote && rs.any (fun r => r.base ≤ t.addr && t.addr < r.base + r.size)
  let s := { s with nextTxn := s.nextTxn + 1, fabOps := s.fabOps ++ [f], txns := s.txns.map (fun t => if fetching t then { t with noalloc := true } else t) }
  ((List.range 32).foldl (fun s j => if ops.isEmpty then s else pushSys s j ops) s, id)

/-- The REMOTE_CACHEABLE regions of a slice's REGION_MASK, as a mask (R236, R237). -/
def cacheableMask (s : State) (slice : Nat) : BitVec 16 :=
  match sliceRec s slice with
  | none => 0
  | some rec' => s.cfg.regions.foldl (fun m r => if r.remoteCacheable && r.interleave = 5 && rec'.regionMask.getLsbD r.num then m ||| (1#16 <<< r.num) else m) 0

/-- Ends a release or acquire whose every context has walked its slice. One that nobody waits for any more, a command or a core's
FENCE, is forgotten. -/
def endFab (s : State) (id : Nat) (acquire : Bool) : State :=
  let awaited := fun (f : FabOp) => f.keep || s.cores.any (fun p => p.2.fenceRel = some f.id && p.2.hold ≠ .none)
  if s.fabOps.any (fun f => f.id = id && f.acquire = acquire && f.contexts = 0 && f.regions ≠ 0) then
    let left := s.fabOps.filter (fun f => f.id ≠ id || awaited f)
    settleAll { s with fabOps := left.map (fun f => if f.id = id then { f with acquire := false, regions := 0 } else f) }
  else s

/-- A release or acquire that has ended and awaits whoever asked: its status, none while it runs. -/
def fabEnded (s : State) (id : Nat) : Option Nat := (s.fabOps.find? (fun f => f.id = id && f.regions = 0)).map (·.status)

def dropFab (s : State) (id : Nat) : State := { s with fabOps := s.fabOps.filter (fun f => f.id ≠ id) }

/-- FABRIC_RELEASE_DONE (R238): every dirty line of the regions is acknowledged by its owner. -/
def execFabricReleaseDone (id : Nat) (s : State) : Host.Outcome State Fault Refusal := .next (if s.quiet then s else endFab s id false)

/-- FABRIC_ACQUIRE_DONE (R239): every line of the regions is out of the module; reads of the slice bypass no more. -/
def execFabricAcquireDone (id : Nat) (s : State) : Host.Outcome State Fault Refusal := .next (if s.quiet then s else endFab s id true)

end Sys2Proof.Machine
end

