-- ==== Sys2Proof/Machine/Network.lean ====
section
/-!
DEFINITION. The rows of the on-die network (R264–R280): regulator periods, deadlines, urgent promotion, the floor, STRICT pads, and the
tenant view.
-/
namespace Sys2Proof.Machine

/-- NOC_REG_RATE as last written: the rate accepted for the next period, else that in force. A write of one half of the register leaves the other half of
it (R10, R276). -/
def rateWritten (s : State) (n : Nat) : Word :=
  let r := s.regulator n
  let (w, g) := r.next.getD (r.weight, r.guar)
  BitVec.ofNat 64 (fld w 63 48 + fld g 31 0)

/-- A write of NOC_REG_RATE (R276): discarded whole outside the limits, else in effect from the next period. -/
def writeRegRate (s : State) (n : Nat) (v : Word) : State :=
  let r := s.regulator n
  let (wMax, gMax) := regMax s n
  let w := bits v 63 48
  let g := bits v 31 0
  if n ≥ 69 || s.chart.state = 4 then s
  else if g > gMax || w < 1 || w > wMax then setRegulator s n { r with rejected := true }
  else setRegulator s n { r with next := some (w, g) }

/-- NOC_REG_RATE_WRITE (R276). -/
def execNocRegRateWrite (reg : Fin 70) (v : BitVec 64) (s : State) : Host.Outcome State Fault Refusal :=
  .next (if s.quiet then s else writeRegRate s reg v)

/-- NOC_CNT_CLEAR (R275): every per-initiator counter set is cleared. -/
def execNocCntClear (s : State) : Host.Outcome State Fault Refusal :=
  .next (if s.quiet then s else { s with noc := { s.noc with ini := [] } })

/-- REGULATOR_PERIOD (R264–R267, R272): one period of 64 CLK_NOC cycles. Waiting requests then find the new tokens. -/
def execRegulatorPeriod (s : State) : Host.Outcome State Fault Refusal :=
  .next (if s.quiet || !s.clk.rootLock then s else settleAll (periodStep s))

/-- DEADLINE_LATE (R269): the deadline requests of the channel with negative slack are marked late. -/
def execDeadlineLate (ch : Fin 256) (s : State) : Host.Outcome State Fault Refusal :=
  .next (if s.quiet then s
  else { s with noc := { s.noc with mcq := s.noc.mcq.map (fun q =>
    if q.ch = ch.val && q.svc = 2 && decide (slack s q < 0) then { q with late := true } else q) } })

/-- Age of a request, modulo 2²⁰ (R270). -/
def ageOf (s : State) (arrival : Nat) : Nat := (s.time + 2 ^ 20 - arrival) % 2 ^ 20

/-- TIME brought to where a request's age exceeds AGE_LIMIT. -/
def advanceToAge (s : State) (arrival : Nat) : State :=
  if ageOf s arrival > s.cfg.ageLimitNs then s else advanceTo (s.time + (s.cfg.ageLimitNs + 1 - ageOf s arrival)) s

/-- The first entry a test finds, changed. -/
def updFirst {α : Type} (p : α → Bool) (f : α → α) : List α → List α
  | [] => []
  | a :: r => if p a then f a :: r else a :: updFirst p f r

/-- Promotion in a controller queue (R270): SVC 2 with a deadline, or SVC 3 for an exhausted regulator; the allocator takes one line of
guaranteed tokens, down to minus one period's worth. -/
def promoteQueued (s : State) (reg ch : Nat) : State :=
  let mine : McReq → Bool := fun q => q.ch = ch && q.reg = reg && q.svc ≤ 1
  match s.noc.mcq.find? mine with
  | none => s
  | some q =>
    let s := advanceToAge s q.arrival
    let ex := s.noc.exhausted.getLsbD reg
    let up := fun (q : McReq) => if ex then { q with svc := 3 } else { q with svc := 2, deadline := (s.time + 2000) % 2 ^ 20 }
    let r := s.regulator reg
    let tokens : Int := if ex then r.tokens else max (r.tokens - 4) (min r.tokens (-(r.guar : Int)))
    let s := setRegulator s reg { r with urgent := r.urgent + 1, tokens := tokens }
    { s with noc := { s.noc with mcq := updFirst mine up s.noc.mcq } }

/-- Promotion at a meter (R270): the request leaves at once. -/
def promoteMeter (s : State) (reg : Nat) : State :=
  let mine : MeterReq → Bool := fun m => m.reg = reg && !m.released
  match s.noc.meters.find? mine with
  | none => s
  | some m =>
    let s := advanceToAge s m.arrival
    let r := s.regulator reg
    let s := setRegulator s reg { r with urgent := r.urgent + 1 }
    settleAll { s with noc := { s.noc with meters := updFirst mine (fun m => { m with released := true }) s.noc.meters } }

/-- URGENT_PROMOTION (R270): the oldest request of the regulator without a deadline, at its meter or in a channel's queue. -/
def execUrgentPromotion (reg : Fin 70) (ch : Option (Fin 256)) (s : State) : Host.Outcome State Fault Refusal :=
  .next (if s.quiet then s
  else match ch with
    | none => if [64, 65, 67].contains reg.val then s else promoteMeter s reg
    | some c => promoteQueued s reg c)

/-- FLOOR_SERVICE (R271): the controller serves one SVC 3 request, rotating among the regulators that have one queued. -/
def execFloorService (mc : Fin 128) (s : State) : Host.Outcome State Fault Refusal :=
  let i := mc.val
  let mine : McReq → Bool := fun q => q.ch / 2 = i && q.svc = 3 && chanState s q.ch = 1
  let last := Tab.get 0 s.noc.floorTurn i
  let turn := ((List.range 70).map (fun k => (last + 1 + k) % 70)).find? (fun n => s.noc.mcq.any (fun q => mine q && q.reg = n))
  .next (if s.quiet then s
  else match turn with
    | none => s
    | some n =>
      let s := match s.noc.mcq.find? (fun q => mine q && q.reg = n) with
        | some q => { s with noc := { s.noc with mcq := s.noc.mcq.erase q, floorTurn := Tab.set 0 s.noc.floorTurn i n,
                                                 lastReq := Tab.set 0 s.noc.lastReq q.ch s.time } }
        | none => s
      setRegulator s n { s.regulator n with floor := (s.regulator n).floor + 1 })

/-- STRICT_PAD_RELEASE (R273, R277): the slice's oldest padded response is delivered at its time, or, when it was ready later, at once, counted
and reported. Its latency, the pad included, is counted then. -/
def execStrictPadRelease (slice : Fin 64) (late : Bool) (s : State) : Host.Outcome State Fault Refusal :=
  .next (if s.quiet then s
  else match s.noc.pads.find? (fun p => p.slice = slice.val) with
    | none => s
    | some p =>
      let s := advanceTo p.due s
      let s := countLatency { s with noc := { s.noc with pads := s.noc.pads.erase p } } p.ini p.view (s.time - p.arrival)
      settleAll (if late then
        raise { s with noc := { s.noc with strictLate := satAdd (2 ^ 64 - 1) s.noc.strictLate 1 } } (1228 + slice) { slice := slice, unit := slice }
      else s))

/-- TIME with its low ten bits clear (R65). -/
def timeCoarse (s : State) : Nat := s.time / 1024 * 1024

/-- A slice's view refreshed (R278): bytes in units of 64 KiB, requests in units of 16. -/
def Tv.refresh (stamp : Nat) (v : Tv) : Tv :=
  { v with viewTm := v.tm / 65536, viewQ := v.q / 65536, viewHist := (v.hist.map (fun p => (p.1, p.2 / 16))).filter (fun p => p.2 ≠ 0), stamp := stamp }

/-- TENANT_VIEW_REFRESH (R278): TIME reaches a multiple of 1,024 ns, and every slice's view is refreshed. -/
def execTenantViewRefresh (s : State) : Host.Outcome State Fault Refusal :=
  .next (if s.quiet then s
  else
    let s := advanceTo ((s.time + 1023) / 1024 * 1024) s
    { s with noc := { s.noc with tv := (List.range 64).foldl (fun t n => Tab.modify {} t n (Tv.refresh (timeCoarse s))) s.noc.tv } })

end Sys2Proof.Machine
end

