-- ==== Sys2Proof/Machine/Gtu.lean ====
section
/-!
DEFINITION. The rows of the GTU (R186–R198): walks, context registers and invalidations.
-/
namespace Sys2Proof.Machine

/-- For whom DEMAND_WALK walks: an access of a slice at a port. -/
def missKey (slice port : Nat) : Nat := 2 ^ 48 + slice * 16 + port

/-- DEMAND_WALK (R179–R188, R197): an access of a slice at a port is translated; a translation not held is walked and installed, and a
fault is recorded in the context. The access itself is its initiator's own command. -/
def execDemandWalk (slice : Fin 64) (port : Fin 12) (dva : BitVec 64) (access : Fin 3) (s : State) : Host.Outcome State Fault Refusal :=
  .next (if s.quiet then s else settleAll (translate s (missKey slice port) slice port access dva.toNat).1)

/-- A write of GTU_CTX_ROOT (R187): discarded while the slice is occupied. -/
def writeCtxRoot (s : State) (n : Nat) (v : Word) : State :=
  if occupied s n then s else setCtx s n { s.ctx n with root := keepFields v [(49, 12), (0, 0)] }

/-- GTU_CTX_ROOT_WRITE (R187). -/
def execGtuCtxRootWrite (slice : Fin 64) (v : BitVec 64) (s : State) : Host.Outcome State Fault Refusal :=
  .next (if s.quiet then s else writeCtxRoot s slice v)

/-- A write of GTU_INV_CTL (R194): OP 0 stores SLICE and SEQ, a request captures them, and one that is discarded changes nothing else. -/
def writeInvCtl (s : State) (op slice seq : Nat) : State :=
  let g := { s.gtu with invCtlSlice := slice, invCtlSeq := seq }
  { s with gtu :=
      if op = 0 then g
      else if op > 3 || g.invq.length ≥ 16 then { s.gtu with discarded := true }
      else { g with invq := g.invq ++ [{ op := op, slice := slice, seq := seq, addr := g.invAddr.toNat, size := g.invSize.toNat }] } }

/-- INV_STORE (R194): OP 0 stores SLICE and SEQ. -/
def execInvStore (slice : BitVec 6) (seq : BitVec 16) (s : State) : Host.Outcome State Fault Refusal :=
  .next (if s.quiet then s else writeInvCtl s 0 slice.toNat seq.toNat)
/-- INV_MODULE (R194). -/
def execInvModule (slice : BitVec 6) (seq : BitVec 16) (s : State) : Host.Outcome State Fault Refusal :=
  .next (if s.quiet then s else writeInvCtl s 1 slice.toNat seq.toNat)
/-- INV_CONTEXT (R194). -/
def execInvContext (slice : BitVec 6) (seq : BitVec 16) (s : State) : Host.Outcome State Fault Refusal :=
  .next (if s.quiet then s else writeInvCtl s 2 slice.toNat seq.toNat)
/-- INV_RANGE (R194). -/
def execInvRange (slice : BitVec 6) (seq : BitVec 16) (s : State) : Host.Outcome State Fault Refusal :=
  .next (if s.quiet then s else writeInvCtl s 3 slice.toNat seq.toNat)

/-- Whether a span of DVAs of a slice is covered by an invalidation. -/
def InvReq.overlaps (r : InvReq) (slice va size : Nat) : Bool :=
  match r.op with
  | 1 => true
  | 2 => slice = r.slice
  | _ => slice = r.slice && r.size ≠ 0 && va < r.addr + r.size && r.addr < va + size

/-- Whether a held translation is covered by an invalidation (R194). -/
def InvReq.covers (r : InvReq) (e : TlbEntry) : Bool := r.overlaps e.slice e.va e.size

/-- Whether a walk may find an entry that an invalidation covers: no leaf translates more than the GiB its page lies in (R180). -/
def InvReq.stops (r : InvReq) (w : GtuWalk) : Bool := r.overlaps w.slice (w.page / 262144 * 0x40000000) 0x40000000

/-- Whether an access translated through an entry has not yet reached its home slice or ended (R195): a transaction, a remote
operation of a line, or a copy in progress of the page under a write hold. -/
def entryInFlight (s : State) (e : TlbEntry) : Bool :=
  s.txns.any (fun t => t.active && !t.untranslated && t.slice = some e.slice && e.pa ≤ t.addr && t.addr < e.pa + e.size)
    || s.rops.any (fun o => o.done = none && e.pa ≤ o.addr && o.addr < e.pa + e.size)

/-- Everything that holds a translation: the shared TLB and the micro-TLBs (R188). -/
def heldEntries (s : State) : List TlbEntry := s.gtu.tlb ++ s.gtu.micro.map (·.2)

/-- Drops the entries an invalidation covers, pinned ones too, from every level, and has the walks that could find one begin anew (R195, R205). -/
def dropCovered (s : State) (r : InvReq) : State :=
  let s := (s.gtu.walks.filter r.stops).foldl (fun s w => dropWalk s w.key) s
  { s with gtu := { s.gtu with
    tlb := s.gtu.tlb.filter (fun e => !r.covers e)
    micro := s.gtu.micro.filter (fun p => !r.covers p.2)
    wcache := s.gtu.wcache.filter (fun c => !r.overlaps c.slice c.va (tableSpan c.level)) } }

/-- An invalidation (R195): none while an access through an entry it covers is in flight. -/
def invalidateNow (s : State) (r : InvReq) : Option State :=
  if (heldEntries s).any (fun e => r.covers e && entryInFlight s e) then none else some (dropCovered s r)

/-- The CONTEXT invalidation of a slice (R196). -/
def invalidateCtx (s : State) (n : Nat) : Option State := invalidateNow s { op := 2, slice := n, seq := 0, addr := 0, size := 0 }

/-- INV_COMPLETE (R195): the oldest request completes, and DONE_SEQ takes its SEQ. -/
def execInvComplete (s : State) : Host.Outcome State Fault Refusal :=
  .next (if s.quiet then s
  else match s.gtu.invq with
    | [] => s
    | r :: rest =>
      match invalidateNow s r with
      | none => s
      | some s => { s with gtu := { s.gtu with invq := rest, doneSeq := r.seq } })

end Sys2Proof.Machine
end

