-- ==== Sys2Proof/Machine/Bundle.lean ====
section
/-!
DEFINITION. Bundles (R92–R98, R103, R108, R117, R120): the fields of the six slots, the words that encode an operation, and the rules
that depend on the bits of a bundle alone.
-/
namespace Sys2Proof.Machine

/-- Bits `lo … lo + n − 1` of a number. -/
def fieldAt (w lo n : Nat) : Nat := (w >>> lo) % 2 ^ n

/-- The six slots of a bundle by number (R92, R95). -/
def slotOf (b k : Nat) : Nat :=
  match k with
  | 0 => fieldAt b 32 64
  | 1 => fieldAt b 96 64
  | 2 => fieldAt b 160 96
  | 3 => fieldAt b 256 96
  | 4 => fieldAt b 352 96
  | _ => fieldAt b 448 64

/-- Whether slot `k` holds an operation (R93). -/
def slotValid (b k : Nat) : Bool := b.testBit k

/-- A header that keeps R93. -/
def headerOk (b : Nat) : Bool := fieldAt b 28 4 = 1 && fieldAt b 6 22 = 0

/-! ## Scalar slots (R98) -/

/-- Fields of a scalar slot. -/
structure ScF where
  opc : Nat
  rd : Nat
  rs1 : Nat
  rs2 : Nat
  lc : Nat
  rsvd : Nat
  imm : Nat
  deriving DecidableEq, Repr

def scF (w : Nat) : ScF :=
  { opc := fieldAt w 0 8, rd := fieldAt w 8 5, rs1 := fieldAt w 13 5, rs2 := fieldAt w 18 5, lc := fieldAt w 23 1, rsvd := fieldAt w 24 8,
    imm := fieldAt w 32 32 }

/-- The word of a scalar operation. -/
def scWord (opc : Nat) (rd rs1 rs2 : BitVec 5) (lc : Nat) (imm : Nat) : Nat :=
  opc + rd.toNat <<< 8 + rs1.toNat <<< 13 + rs2.toNat <<< 18 + lc <<< 23 + imm <<< 32

/-- The rules of a scalar slot (R97–R99, R101, R120): an opcode of the slot, unused fields and reserved bits zero. A LOOP's end index
must exceed the index of its own bundle. -/
def scOk (slot idx w : Nat) : Bool :=
  let f := scF w
  let o := f.opc
  let s0 := decide (slot = 0)
  f.rsvd = 0 && (o = 0x4C || f.lc = 0) &&
  (if (1 ≤ o && o ≤ 0x0F) || (0x20 ≤ o && o ≤ 0x22) then f.imm = 0
   else if 0x28 ≤ o && o ≤ 0x2B then !s0 && f.imm = 0
   else if o = 0x11 || o = 0x13 || o = 0x14 || o = 0x15 || (0x19 ≤ o && o ≤ 0x1B) then f.rs2 = 0
   else if 0x16 ≤ o && o ≤ 0x18 then f.rs2 = 0 && f.imm < 64
   else if o = 0x1C then f.rs1 = 0 && f.rs2 = 0
   else if o = 0x1D then f.rs2 = 0
   else if o = 0x30 then s0 && f.rs1 = 0 && f.rs2 = 0 && f.imm < 4096
   else if o = 0x31 then s0 && f.rd = 0 && f.rs2 = 0 && f.imm < 4096
   else if 0x40 ≤ o && o ≤ 0x45 then s0 && f.rd = 0 && f.imm < 65536
   else if o = 0x48 then s0 && f.rd = 0 && f.rs1 = 0 && f.rs2 = 0 && f.imm < 65536
   else if o = 0x49 then s0 && f.rs1 = 0 && f.rs2 = 0 && f.imm < 65536
   else if o = 0x4A then s0 && f.rd = 0 && f.rs2 = 0 && f.imm = 0
   else if o = 0x4C then s0 && f.rd = 0 && f.rs2 = 0 && f.imm < 65536 && idx < f.imm
   else if o = 0x4D then s0 && f.rd = 0 && f.rs1 = 0 && f.rs2 = 0
   else if o = 0x4E then s0 && f.rd = 0 && f.rs1 = 0 && f.rs2 = 0 && f.imm = 0
   else false)

/-- The X register a scalar operation writes (R99); a reserved opcode names none. -/
def scDest (w : Nat) : Option Nat :=
  let o := (scF w).opc
  if (1 ≤ o && o ≤ 0x0F) || o = 0x11 || (0x13 ≤ o && o ≤ 0x1D) || (0x20 ≤ o && o ≤ 0x22) || (0x28 ≤ o && o ≤ 0x2B) || o = 0x30 || o = 0x49 then
    some (scF w).rd
  else none

/-! ## Slot M (R103) -/

/-- Fields of the memory slot. -/
structure MF where
  opc : Nat
  t : Nat
  ra : Nat
  rb : Nat
  rc : Nat
  ps : Nat
  sk : Nat
  sz : Nat
  u : Nat
  rsvd : Nat
  imm : Nat
  deriving DecidableEq, Repr

def mF (w : Nat) : MF :=
  { opc := fieldAt w 0 8, t := fieldAt w 8 6, ra := fieldAt w 14 5, rb := fieldAt w 19 5, rc := fieldAt w 24 5, ps := fieldAt w 29 3,
    sk := fieldAt w 32 4, sz := fieldAt w 36 1, u := fieldAt w 37 1, rsvd := fieldAt w 38 26, imm := fieldAt w 64 32 }

/-- The word of a memory operation. -/
def mWord (f : MF) : Nat :=
  f.opc + f.t <<< 8 + f.ra <<< 14 + f.rb <<< 19 + f.rc <<< 24 + f.ps <<< 29 + f.sk <<< 32 + f.sz <<< 36 + f.u <<< 37 + f.imm <<< 64

/-- The rules of the memory slot (R97, R105, R106, R120). -/
def mOk (w : Nat) : Bool :=
  let f := mF w
  let o := f.opc
  let noAmo := f.sz = 0 && f.u = 0
  f.rsvd = 0 &&
  (if (1 ≤ o && o ≤ 7) || (9 ≤ o && o ≤ 0x0C) then f.t < 32 && f.rb = 0 && f.rc = 0 && f.ps = 0 && f.sk = 0 && noAmo
   else if 0x10 ≤ o && o ≤ 0x12 then f.rb = 0 && f.rc = 0 && f.sk = 0 && noAmo
   else if o = 0x1A then f.t < 32 && f.ps = 0 && f.sk = 0
   else if 0x18 ≤ o && o ≤ 0x1C then f.t < 32 && f.rc = 0 && f.ps = 0 && f.sk = 0
   else if o = 0x20 || o = 0x22 then f.t = 0 && f.ra = 0 && f.rc = 0 && f.ps = 0 && noAmo && f.imm = 0
   else if o = 0x21 then f.t = 0 && f.rc = 0 && f.ps = 0 && noAmo && f.imm = 0
   else if o = 0x28 then f.t = 0 && f.rb = 0 && f.rc = 0 && f.ps = 0 && noAmo && f.sk < 4 && f.imm = 0
   else if o = 0x29 || o = 0x30 then f.t = 0 && f.ra = 0 && f.rb = 0 && f.rc = 0 && f.ps = 0 && noAmo && f.sk < 4 && f.imm = 0
   else false)

/-! ## Vector slots (R108) -/

/-- Fields of a vector slot. -/
structure VF where
  opc : Nat
  ty : Nat
  dty : Nat
  vd : Nat
  va : Nat
  vb : Nat
  vc : Nat
  pg : Nat
  bx : Nat
  rm : Nat
  part : Nat
  rsvd : Nat
  imm : Nat
  deriving DecidableEq, Repr

def vF (w : Nat) : VF :=
  { opc := fieldAt w 0 8, ty := fieldAt w 8 5, dty := fieldAt w 13 5, vd := fieldAt w 18 6, va := fieldAt w 24 6, vb := fieldAt w 30 6,
    vc := fieldAt w 36 6, pg := fieldAt w 42 3, bx := fieldAt w 45 1, rm := fieldAt w 46 3, part := fieldAt w 49 2, rsvd := fieldAt w 51 13,
    imm := fieldAt w 64 32 }

/-- The word of a vector operation. -/
def vWord (opc : Nat) (f : VFields) : Nat :=
  opc + f.ty.toNat <<< 8 + f.dtype.toNat <<< 13 + f.vd.toNat <<< 18 + f.va.toNat <<< 24 + f.vb.toNat <<< 30 + f.vc.toNat <<< 36 +
  f.pg.toNat <<< 42 + (if f.bx then 1 else 0) <<< 45 + f.rm.toNat <<< 46 + f.part.toNat <<< 49 + f.imm.toNat <<< 64

/-- Type classes of R112. -/
def isFP (ty : Nat) : Bool := ty < 3
def isINT (ty : Nat) : Bool := 5 ≤ ty && ty ≤ 10
def isW32 (ty : Nat) : Bool := ty = 0 || ty = 5 || ty = 8
def isMX (ty : Nat) : Bool := 0x10 ≤ ty && ty ≤ 0x15

/-- Width in bits of a type of codes 0x00–0x0A (R96). -/
def tyBits (ty : Nat) : Nat := if isW32 ty then 32 else if ty = 1 || ty = 2 || ty = 6 || ty = 9 then 16 else 8

/-- A zero in each operand field an operation does not use (R97): VB with BX, VC, DTYPE, PART, IMM. -/
def noB (f : VF) : Bool := f.vb = 0 && f.bx = 0
def bOk (f : VF) : Bool := f.bx = 0 || f.vb < 32

/-- The PART rule of a VCVT (R113). -/
def cvtPartOk (f : VF) : Bool :=
  let a := tyBits f.ty
  let b := tyBits f.dty
  f.part < (if a > b then a / b else b / a)

/-- The rules of a vector slot (R97, R109, R112–R116, R120). -/
def vOk (slot w : Nat) : Bool :=
  let f := vF w
  let o := f.opc
  let v1 := decide (slot = 4)
  let rmValue := f.rm ≤ 2 || f.rm = 7
  let rmUser := ((1 ≤ o && o ≤ 3) && isFP f.ty) || (4 ≤ o && o ≤ 6) || o = 0x28 || o = 0x29
  let d0 := f.dty = 0
  let p0 := f.part = 0
  let i0 := f.imm = 0
  f.rsvd = 0 && rmValue && (rmUser || f.rm = 0) &&
  (if (1 ≤ o && o ≤ 3) || o = 7 || o = 8 then (isFP f.ty || isINT f.ty) && bOk f && f.vc = 0 && d0 && p0 && i0
   else if 4 ≤ o && o ≤ 6 then isFP f.ty && bOk f && d0 && p0 && i0
   else if o = 9 || o = 0x0A then (isFP f.ty || isINT f.ty) && noB f && f.vc = 0 && d0 && p0 && i0
   else if o = 0x0B then f.ty ≤ 0x0A && (if f.bx = 1 then f.vb < 32 && f.va = 0 else f.vb = 0) && f.vc = 0 && d0 && p0 && i0
   else if o = 0x0C then isW32 f.ty && bOk f && f.vc < 8 && d0 && p0 && i0
   else if 0x10 ≤ o && o ≤ 0x15 then isINT f.ty && bOk f && f.vc = 0 && d0 && p0 && i0
   else if 0x18 ≤ o && o ≤ 0x1D then isW32 f.ty && f.vd < 8 && bOk f && f.vc = 0 && d0 && p0 && i0
   else if 0x20 ≤ o && o ≤ 0x23 then f.ty = 0 && f.vd < 8 && f.va < 8 && f.vb < 8 && f.bx = 0 && f.vc = 0 && f.pg = 0 && d0 && p0 && i0
   else if o = 0x24 then f.ty = 0 && f.vd < 8 && f.va < 8 && noB f && f.vc = 0 && f.pg = 0 && d0 && p0 && i0
   else if o = 0x25 then f.ty = 0 && f.vd < 8 && f.va < 32 && noB f && f.vc = 0 && f.pg = 0 && d0 && p0 && i0
   else if o = 0x28 then f.ty ≤ 0x0A && f.dty ≤ 0x0A && noB f && f.vc = 0 && i0 && cvtPartOk f
   else if o = 0x29 then v1 && f.ty = 0 && isMX f.dty && f.vc < 32 && noB f && f.pg = 0 && i0
   else if o = 0x2A then isMX f.ty && f.bx = 1 && f.vb < 32 && f.vc = 0 && d0 && i0
   else if 0x30 ≤ o && o ≤ 0x32 then v1 && isW32 f.ty && noB f && f.vc = 0 && d0 && p0 && i0
   else if o = 0x34 then v1 && isW32 f.ty && bOk f && f.vc = 0 && d0 && p0 && i0
   else if o = 0x35 || o = 0x36 then v1 && isW32 f.ty && noB f && f.vc = 0 && d0 && p0
   else if o = 0x37 then v1 && isW32 f.ty && f.vd < 32 && noB f && f.vc = 0 && f.pg = 0 && d0 && p0
   else if 0x38 ≤ o && o ≤ 0x3B then v1 && f.ty = 0 && noB f && f.vc = 0 && d0 && p0 && i0
   else false)

/-! ## Slot X (R117) -/

/-- Fields of the matrix slot. -/
structure XF where
  opc : Nat
  ad : Nat
  wn : Nat
  z : Nat
  sp : Nat
  fmt : Nat
  ra : Nat
  rs : Nat
  rb : Nat
  row0 : Nat
  rows : Nat
  vd : Nat
  rsvd : Nat
  deriving DecidableEq, Repr

def xF (w : Nat) : XF :=
  { opc := fieldAt w 0 8, ad := fieldAt w 8 2, wn := fieldAt w 10 1, z := fieldAt w 11 1, sp := fieldAt w 12 1, fmt := fieldAt w 13 5,
    ra := fieldAt w 18 5, rs := fieldAt w 23 5, rb := fieldAt w 28 5, row0 := fieldAt w 33 7, rows := fieldAt w 40 8, vd := fieldAt w 48 6,
    rsvd := fieldAt w 54 10 }

/-- The word of a matrix operation. -/
def xWord (f : XF) : Nat :=
  f.opc + f.ad <<< 8 + f.wn <<< 10 + f.z <<< 11 + f.sp <<< 12 + f.fmt <<< 13 + f.ra <<< 18 + f.rs <<< 23 + f.rb <<< 28 + f.row0 <<< 33 +
  f.rows <<< 40 + f.vd <<< 48

/-- The formats an MMA accepts (R71, R119). -/
def mmaFmt (t : Nat) : Bool := (1 ≤ t && t ≤ 4) || isMX t

/-- The rules of the matrix slot (R97, R118, R120). -/
def xOk (w : Nat) : Bool :=
  let f := xF w
  let o := f.opc
  f.rsvd = 0 &&
  (if o = 1 then mmaFmt f.fmt && f.ad = 0 && f.z = 0 && f.rs = 0 && f.rb = 0 && f.row0 = 0 && f.rows = 0 && f.vd = 0
   else if o = 2 then mmaFmt f.fmt && (isMX f.fmt || f.rb = 0) && 1 ≤ f.rows && f.row0 + f.rows ≤ 128 && f.vd = 0
   else if o = 3 then f.row0 % 2 = 0 && f.wn = 0 && f.z = 0 && f.sp = 0 && f.fmt = 0 && f.ra = 0 && f.rs = 0 && f.rb = 0 && f.rows = 0
   else if o = 4 then f.fmt ≤ 4 && f.wn = 0 && f.z = 0 && f.sp = 0 && f.rb = 0 && f.row0 = 0 && f.rows = 0 && f.vd = 0
   else if o = 5 then f.wn = 0 && f.z = 0 && f.sp = 0 && f.fmt = 0 && f.ra = 0 && f.rs = 0 && f.rb = 0 && f.row0 = 0 && f.rows = 0 && f.vd = 0
   else if o = 6 then f.ad = 0 && f.wn = 0 && f.z = 0 && f.sp = 0 && f.fmt = 0 && f.ra = 0 && f.rs = 0 && f.rb = 0 && f.row0 = 0 && f.rows = 0 && f.vd = 0
   else false)

/-! ## Whole bundles -/

/-- A register of a core, as R120 counts them for two writers. -/
inductive RegName where
  | x (n : Nat)
  | v (n : Nat)
  | p (n : Nat)
  deriving DecidableEq

/-- Vector operations that write a V register (R112). -/
def vWritesV (o : Nat) : Bool :=
  (1 ≤ o && o ≤ 0x0C) || (0x10 ≤ o && o ≤ 0x15) || (0x28 ≤ o && o ≤ 0x2A) || (0x30 ≤ o && o ≤ 0x32) || (0x34 ≤ o && o ≤ 0x36) || (0x38 ≤ o && o ≤ 0x3B)
/-- Vector operations that write a P register. -/
def vWritesP (o : Nat) : Bool := (0x18 ≤ o && o ≤ 0x1D) || (0x20 ≤ o && o ≤ 0x25)
/-- Vector operations that read VA as a V register; VMOV in its xb form reads none. -/
def vReadsA (f : VF) : Bool := (vWritesV f.opc && !(f.opc = 0x0B && f.bx = 1)) || (0x18 ≤ f.opc && f.opc ≤ 0x1D) || f.opc = 0x37
/-- Vector operations that take operand B (R109) from a V register. -/
def vReadsB (f : VF) : Bool :=
  let o := f.opc
  f.bx = 0 && ((1 ≤ o && o ≤ 8) || o = 0x0C || (0x10 ≤ o && o ≤ 0x15) || (0x18 ≤ o && o ≤ 0x1D) || o = 0x34)

/-- Registers a slot's operation writes; X0 and P0 do not count, nor does a reserved opcode write any. A tiles, weight buffers and loop counters have one
possible writer. -/
def slotDests (b k : Nat) : List RegName :=
  if !slotValid b k then []
  else
    let w := slotOf b k
    let xr := fun n => if n = 0 then [] else [RegName.x n]
    match k with
    | 2 =>
      let f := mF w
      if (1 ≤ f.opc && f.opc ≤ 7) || (0x18 ≤ f.opc && f.opc ≤ 0x1C) then xr f.t
      else if f.opc = 0x10 || f.opc = 0x12 then [.v f.t] else []
    | 5 => if (xF w).opc = 3 then [.v (xF w).vd] else []
    | k =>
      if k < 2 then (match scDest w with | some n => xr n | none => [])
      else
        let f := vF w
        if vWritesP f.opc then (if f.vd = 0 then [] else [.p f.vd])
        else if f.opc = 0x37 then xr f.vd
        else if f.opc = 0x29 then .v f.vd :: xr f.vc
        else if vWritesV f.opc then [.v f.vd]
        else []

/-- V registers a slot's operation reads or writes, for the interlock with a queued ACCMV (R67). A later ACCMV follows it in the queue. -/
def slotVregs (b k : Nat) : List Nat :=
  if !slotValid b k then []
  else
    let w := slotOf b k
    if k = 2 then (let f := mF w; if 0x10 ≤ f.opc && f.opc ≤ 0x12 then [f.t] else [])
    else if k = 5 || k < 2 then []
    else
      let f := vF w
      (if vWritesV f.opc then [f.vd] else []) ++ (if vReadsA f then [f.va] else []) ++ (if vReadsB f then [f.vb] else []) ++
        (if 4 ≤ f.opc && f.opc ≤ 6 then [f.vc] else [])

/-- Whether a slot alone breaks a rule of R120 that depends on the bundle's bits and index: conditions 1 to 3, 7 and 8, and the
end-index part of 6. -/
def slotBad (b idx k : Nat) : Bool :=
  let w := slotOf b k
  if !slotValid b k then w ≠ 0
  else match k with
    | 2 => !mOk w
    | 5 => !xOk w
    | k => if k < 2 then !scOk k idx w else !vOk k w

/-- Whether a slot writes a register another slot writes too (condition 4). -/
def slotClash (b k : Nat) : Bool :=
  (slotDests b k).any (fun r => (List.range 6).any (fun j => j ≠ k && (slotDests b j).contains r))

/-- The lowest slot that takes part in a broken static rule, or 6 for the header (R95). -/
def staticBad (b idx : Nat) : Option Nat :=
  if !headerOk b then some 6 else (List.range 6).find? (fun k => slotBad b idx k || slotClash b k)

end Sys2Proof.Machine
end

