-- ==== Sys2Proof/Machine/Float.lean ====
section
/-!
DEFINITION. The number formats, exact values, the three rounding modes, the conversion outcomes and the FFLAGS bits of
05_arithmetic (R122–R135), over exact dyadic numbers: every operation computes its exact result and rounds it once.
-/
namespace Sys2Proof

/-- FFLAGS bits (R65, R135). -/
def fNX : Nat := 1
def fUF : Nat := 2
def fOF : Nat := 4
def fDZ : Nat := 8
def fNV : Nat := 16
def fSAT : Nat := 32

/-- An exact value: NaN, an infinity, or (−1)^neg × m × 2^e. -/
inductive FVal where
  | nan
  | inf (neg : Bool)
  | fin (neg : Bool) (m : Nat) (e : Int)
  deriving DecidableEq, Repr

/-- How a format treats its top exponent and overflow (R122, R134). -/
inductive FmtClass where
  | wide   -- FP32, BF16, FP16: infinities and NaNs
  | e4m3   -- one NaN pattern, no infinity
  | e5m2   -- infinities and NaNs, saturates on finite overflow
  | elem   -- FP6 and FP4 elements: finite only
  deriving DecidableEq, Repr

/-- A floating-point format (R122). -/
structure Fmt where
  ebits : Nat
  mbits : Nat
  bias  : Nat
  cls   : FmtClass
  deriving DecidableEq, Repr

def fp32 : Fmt := ⟨8, 23, 127, .wide⟩
def bf16 : Fmt := ⟨8, 7, 127, .wide⟩
def fp16 : Fmt := ⟨5, 10, 15, .wide⟩
def e4m3 : Fmt := ⟨4, 3, 7, .e4m3⟩
def e5m2 : Fmt := ⟨5, 2, 15, .e5m2⟩
def e3m2 : Fmt := ⟨3, 2, 3, .elem⟩
def e2m3 : Fmt := ⟨2, 3, 1, .elem⟩
def e2m1 : Fmt := ⟨2, 1, 1, .elem⟩

/-- The width of a format in bits. -/
def Fmt.width (f : Fmt) : Nat := 1 + f.ebits + f.mbits

/-- The all-ones exponent field. -/
def Fmt.emaxField (f : Fmt) : Nat := 2 ^ f.ebits - 1

/-- The pattern of the largest finite magnitude (R122). -/
def Fmt.maxPattern (f : Fmt) : Nat :=
  match f.cls with
  | .wide | .e5m2 => f.emaxField * 2 ^ f.mbits - 1
  | .e4m3 => f.emaxField * 2 ^ f.mbits + (2 ^ f.mbits - 2)
  | .elem => f.emaxField * 2 ^ f.mbits + (2 ^ f.mbits - 1)

/-- The pattern of +∞ for the formats that have one. -/
def Fmt.infPattern (f : Fmt) : Nat := f.emaxField * 2 ^ f.mbits

/-- The canonical NaN, sign 0 (R122, R123). Element formats have none; their NaN is a block scale (R129). -/
def Fmt.nanPattern (f : Fmt) : Nat :=
  match f.cls with
  | .wide | .e5m2 => f.emaxField * 2 ^ f.mbits + 2 ^ (f.mbits - 1)
  | .e4m3 => f.emaxField * 2 ^ f.mbits + (2 ^ f.mbits - 1)
  | .elem => 0

/-- A magnitude pattern with a sign. -/
def Fmt.signed (f : Fmt) (neg : Bool) (mag : Nat) : Nat := if neg then 2 ^ (f.ebits + f.mbits) + mag else mag

/-- The value of a finite magnitude pattern (R122). -/
def Fmt.finVal (f : Fmt) (neg : Bool) (mag : Nat) : FVal :=
  let ef := mag / 2 ^ f.mbits
  let mf := mag % 2 ^ f.mbits
  if ef = 0 then .fin neg mf (1 - (f.bias : Int) - f.mbits)
  else .fin neg (2 ^ f.mbits + mf) ((ef : Int) - f.bias - f.mbits)

/-- The value of a bit pattern (R122). -/
def Fmt.decode (f : Fmt) (b : Nat) : FVal :=
  let neg := b.testBit (f.ebits + f.mbits)
  let mag := b % 2 ^ (f.ebits + f.mbits)
  let ef := mag / 2 ^ f.mbits
  let mf := mag % 2 ^ f.mbits
  match f.cls with
  | .wide | .e5m2 => if ef = f.emaxField then (if mf = 0 then .inf neg else .nan) else f.finVal neg mag
  | .e4m3 => if ef = f.emaxField ∧ mf = 2 ^ f.mbits - 1 then .nan else f.finVal neg mag
  | .elem => f.finVal neg mag

/-- The three rounding modes (R130); a stochastic rounding carries its 16-bit random word (R131). -/
inductive Rm where
  | rne
  | rtz
  | sr (r : Nat)
  deriving DecidableEq, Repr

/-- The generator's mixing function (R132). -/
def srMix (z : Word) : Word :=
  let z := (z ^^^ (z >>> 30)) * 0xBF58476D1CE4E5B9#64
  let z := (z ^^^ (z >>> 27)) * 0x94D049BB133111EB#64
  z ^^^ (z >>> 31)

/-- The 16-bit random word of a global element index (R132). -/
def srWord (seed step index : Word) : Nat :=
  let k := srMix (seed ^^^ srMix (step + 0x9E3779B97F4A7C15#64))
  (srMix (k ^^^ index)).toNat >>> 48

/-- m × 2^e in whole units of 2^q: the truncated quotient and whether anything was dropped. -/
def unitsAt (m : Nat) (e q : Int) : Nat × Nat × Nat :=
  if e ≥ q then (m <<< (e - q).toNat, 0, 1)
  else
    let k := (q - e).toNat
    (m >>> k, m % 2 ^ k, 2 ^ k)

/-- One rounding of m × 2^e to whole units of 2^q (R130, R131): the unit count and whether it is inexact. -/
def roundUnits (rm : Rm) (m : Nat) (e q : Int) : Nat × Bool :=
  let (lo, rest, den) := unitsAt m e q
  if rest = 0 then (lo, false)
  else
    let up := match rm with
      | .rne => decide (2 * rest > den) || (decide (2 * rest = den) && decide (lo % 2 = 1))
      | .rtz => false
      | .sr r => decide (rest * 2 ^ 16 / den + r ≥ 2 ^ 16)
    (if up then lo + 1 else lo, true)

/-- floor(log₂) of m × 2^e for m > 0. -/
def topExp (m : Nat) (e : Int) : Int := e + (Nat.log2 m : Int)

/-- Whether a × 2^ea > b × 2^eb. -/
def dyGt (a : Nat) (ea : Int) (b : Nat) (eb : Int) : Bool :=
  if ea ≥ eb then decide (a <<< (ea - eb).toNat > b) else decide (a > b <<< (eb - ea).toNat)

/-- The final rounding of a finite value to a format, with its flags: the rows of R134 from Overflow down, tininess
detected after rounding with the same random word (R124). -/
def Fmt.roundFin (f : Fmt) (rm : Rm) (neg : Bool) (m : Nat) (e : Int) : Nat × Nat :=
  if m = 0 then (f.signed neg 0, 0)
  else
    let E := topExp m e
    let emin : Int := 1 - (f.bias : Int)
    let qU := E - f.mbits
    let (kU, _) := roundUnits rm m e qU
    let tooBig := match f.finVal false f.maxPattern with
      | .fin _ mm me => dyGt kU qU mm me
      | _ => false
    if tooBig then
      match f.cls with
      | .wide => (f.signed neg (if rm = .rtz then f.maxPattern else f.infPattern), fOF ||| fNX)
      | _ => (f.signed neg f.maxPattern, fSAT ||| fNX)
    else
      let tiny := dyGt 1 emin kU qU
      let qD := if qU ≥ emin - f.mbits then qU else emin - f.mbits
      let (kD, inexact) := roundUnits rm m e qD
      let mag :=
        if kD < 2 ^ f.mbits then kD
        else if kD < 2 ^ (f.mbits + 1) then ((qD + f.mbits + f.bias).toNat) * 2 ^ f.mbits + (kD - 2 ^ f.mbits)
        else ((qD + f.mbits + f.bias + 1).toNat) * 2 ^ f.mbits
      (f.signed neg mag, if inexact then (if tiny then fUF ||| fNX else fNX) else 0)

/-- The outcome of delivering a value in a format (R134, whole). -/
def Fmt.round (f : Fmt) (rm : Rm) : FVal → Nat × Nat
  | .nan => (f.nanPattern, 0)
  | .inf neg =>
    match f.cls with
    | .wide | .e5m2 => (f.signed neg f.infPattern, 0)
    | _ => (f.signed neg f.maxPattern, fSAT ||| fNX)
  | .fin neg m e => f.roundFin rm neg m e

/-- Negation of an exact value. -/
def FVal.neg : FVal → FVal
  | .nan => .nan
  | .inf n => .inf (!n)
  | .fin n m e => .fin (!n) m e

/-- The signed integer m of a finite value in units of 2^q, for q at most its exponent. -/
def dyInt (neg : Bool) (m : Nat) (e q : Int) : Int :=
  let v : Int := ((m <<< (e - q).toNat : Nat) : Int)
  if neg then -v else v

/-- The exact sum of finite values; a zero sum of zeros of one sign keeps it, every other zero sum is +0 (R125). -/
def addFin (n1 : Bool) (m1 : Nat) (e1 : Int) (n2 : Bool) (m2 : Nat) (e2 : Int) : FVal :=
  let q := if e1 ≤ e2 then e1 else e2
  let s := dyInt n1 m1 e1 q + dyInt n2 m2 e2 q
  if s = 0 then .fin (n1 && n2 && decide (m1 = 0) && decide (m2 = 0)) 0 q
  else .fin (decide (s < 0)) s.natAbs q

/-- The exact sum with its invalid cases (R123): infinities of opposite sign. -/
def FVal.add : FVal → FVal → FVal × Nat
  | .nan, _ => (.nan, 0)
  | _, .nan => (.nan, 0)
  | .inf a, .inf b => if a = b then (.inf a, 0) else (.nan, fNV)
  | .inf a, .fin _ _ _ => (.inf a, 0)
  | .fin _ _ _, .inf b => (.inf b, 0)
  | .fin n1 m1 e1, .fin n2 m2 e2 => (addFin n1 m1 e1 n2 m2 e2, 0)

/-- The exact product with its invalid case 0 × ∞ (R123). -/
def FVal.mul : FVal → FVal → FVal × Nat
  | .nan, _ => (.nan, 0)
  | _, .nan => (.nan, 0)
  | .inf a, .inf b => (.inf (a != b), 0)
  | .inf a, .fin b m _ => if m = 0 then (.nan, fNV) else (.inf (a != b), 0)
  | .fin a m _, .inf b => if m = 0 then (.nan, fNV) else (.inf (a != b), 0)
  | .fin n1 m1 e1, .fin n2 m2 e2 => (.fin (n1 != n2) (m1 * m2) (e1 + e2), 0)

/-- Adds flags to a rounded result. -/
def orFlags (fl : Nat) (r : Nat × Nat) : Nat × Nat := (r.1, r.2 ||| fl)

/-- Addition, rounded once (R125). -/
def Fmt.fadd (f : Fmt) (rm : Rm) (a b : Nat) : Nat × Nat :=
  let (v, fl) := (f.decode a).add (f.decode b)
  orFlags fl (f.round rm v)

/-- Subtraction, rounded once. -/
def Fmt.fsub (f : Fmt) (rm : Rm) (a b : Nat) : Nat × Nat :=
  let (v, fl) := (f.decode a).add (f.decode b).neg
  orFlags fl (f.round rm v)

/-- Multiplication, rounded once. -/
def Fmt.fmul (f : Fmt) (rm : Rm) (a b : Nat) : Nat × Nat :=
  let (v, fl) := (f.decode a).mul (f.decode b)
  orFlags fl (f.round rm v)

/-- (±a) × b + (±c), one rounding (R112): `np` negates the product, `nc` the addend. -/
def Fmt.ffma (f : Fmt) (rm : Rm) (np nc : Bool) (a b c : Nat) : Nat × Nat :=
  let (p, fl1) := (f.decode a).mul (f.decode b)
  let p := if np then p.neg else p
  let cv := f.decode c
  let cv := if nc then cv.neg else cv
  let (v, fl2) := p.add cv
  orFlags (fl1 ||| fl2) (f.round rm v)

/-- Order on non-NaN values with −0 below +0 (R112): whether `a` is below `b`. -/
def FVal.below : FVal → FVal → Bool
  | .inf true, .inf true => false
  | .inf true, _ => true
  | _, .inf true => false
  | .inf false, _ => false
  | _, .inf false => true
  | .fin n1 m1 e1, .fin n2 m2 e2 =>
    let q := if e1 ≤ e2 then e1 else e2
    let x := dyInt n1 m1 e1 q
    let y := dyInt n2 m2 e2 q
    if x = 0 ∧ y = 0 then n1 && !n2 else decide (x < y)
  | _, _ => false

/-- Numeric order: −0 equals +0. `none` if either is NaN. -/
def FVal.cmp : FVal → FVal → Option Ordering
  | .nan, _ => none
  | _, .nan => none
  | .fin n1 m1 e1, .fin n2 m2 e2 =>
    let q := if e1 ≤ e2 then e1 else e2
    some (compare (dyInt n1 m1 e1 q) (dyInt n2 m2 e2 q))
  | a, b => some (if a = b then .eq else if a.below b then .lt else .gt)

/-- FP minimum (R112): −0 below +0, a NaN yields the other operand, two NaNs the canonical NaN. -/
def Fmt.fmin (f : Fmt) (a b : Nat) : Nat :=
  match f.decode a, f.decode b with
  | .nan, .nan => f.nanPattern
  | .nan, _ => b
  | _, .nan => a
  | x, y => if y.below x then b else a

/-- FP maximum, under the same rules. -/
def Fmt.fmax (f : Fmt) (a b : Nat) : Nat :=
  match f.decode a, f.decode b with
  | .nan, .nan => f.nanPattern
  | .nan, _ => b
  | _, .nan => a
  | x, y => if x.below y then b else a

/-- FP absolute value: clears the sign, a NaN gives the canonical NaN (R112, R123). -/
def Fmt.fabs (f : Fmt) (a : Nat) : Nat :=
  if f.decode a = .nan then f.nanPattern else a % 2 ^ (f.ebits + f.mbits)

/-- FP negation: inverts the sign, a NaN gives the canonical NaN (R112, R123). -/
def Fmt.fneg (f : Fmt) (a : Nat) : Nat :=
  if f.decode a = .nan then f.nanPattern else f.signed (!a.testBit (f.ebits + f.mbits)) (a % 2 ^ (f.ebits + f.mbits))

/-- Sign function of the Calender engines (R320). -/
def fsign (a : Nat) : Nat :=
  match fp32.decode a with
  | .nan => fp32.nanPattern
  | .inf n => if n then 0xBF800000 else 0x3F800000
  | .fin n m _ => if m = 0 then 0 else if n then 0xBF800000 else 0x3F800000

/-- Quotient of finite nonzero magnitudes with 64 guard bits and a sticky bit below them. -/
def divSticky (m1 : Nat) (e1 : Int) (m2 : Nat) (e2 : Int) : Nat × Int :=
  let k := 64 + Nat.log2 m2
  let n := m1 <<< k
  let q := n / m2
  (2 * q + (if n % m2 = 0 then 0 else 1), e1 - e2 - k - 1)

/-- Correctly rounded FP32 division (R320, R123). -/
def fdiv (a b : Nat) : Nat × Nat :=
  match fp32.decode a, fp32.decode b with
  | .nan, _ => (fp32.nanPattern, 0)
  | _, .nan => (fp32.nanPattern, 0)
  | .inf _, .inf _ => (fp32.nanPattern, fNV)
  | .inf n, .fin k _ _ => (fp32.signed (n != k) fp32.infPattern, 0)
  | .fin n _ _, .inf k => (fp32.signed (n != k) 0, 0)
  | .fin n m e, .fin k m2 e2 =>
    if m2 = 0 then (if m = 0 then (fp32.nanPattern, fNV) else (fp32.signed (n != k) fp32.infPattern, fDZ))
    else if m = 0 then (fp32.signed (n != k) 0, 0)
    else
      let (q, qe) := divSticky m e m2 e2
      fp32.roundFin .rne (n != k) q qe

/-- Integer square root by `fuel` halvings of the step. -/
def isqrtGo : Nat → Nat → Nat → Nat
  | 0, _, r => r
  | k + 1, n, r => let t := r + 2 ^ k; isqrtGo k n (if t * t ≤ n then t else r)

/-- floor(√n). -/
def isqrt (n : Nat) : Nat := isqrtGo (Nat.log2 n / 2 + 1) n 0

/-- √(m × 2^e) with guard bits and a sticky bit. -/
def sqrtSticky (m : Nat) (e : Int) : Nat × Int :=
  let k : Nat := if e % 2 = 0 then 128 else 129
  let n := m <<< k
  let r := isqrt n
  (2 * r + (if r * r = n then 0 else 1), (e - k) / 2 - 1)

/-- Correctly rounded FP32 square root (R320). -/
def fsqrt (a : Nat) : Nat × Nat :=
  match fp32.decode a with
  | .nan => (fp32.nanPattern, 0)
  | .inf n => if n then (fp32.nanPattern, fNV) else (fp32.infPattern, 0)
  | .fin n m e =>
    if m = 0 then (fp32.signed n 0, 0)
    else if n then (fp32.nanPattern, fNV)
    else
      let (r, re) := sqrtSticky m e
      fp32.roundFin .rne false r re

/-- Float to integer: rounds, then saturates; a NaN gives 0 with NV (R113, R135). The range is `lo … hi`. -/
def floatToInt (rm : Rm) (lo hi : Int) : FVal → Int × Nat
  | .nan => (0, fNV)
  | .inf n => (if n then lo else hi, fSAT ||| fNX)
  | .fin n m e =>
    let (k, inexact) := roundUnits rm m e 0
    let v : Int := if n then -(k : Int) else k
    if v > hi then (hi, fSAT ||| fNX) else if v < lo then (lo, fSAT ||| fNX) else (v, if inexact then fNX else 0)

/-- Integer to float, rounded (R113). -/
def Fmt.ofInt (f : Fmt) (rm : Rm) (v : Int) : Nat × Nat := f.roundFin rm (decide (v < 0)) v.natAbs 0

/-! ## MX blocks (R127–R129) -/

/-- The element kinds of the MX formats (R127). -/
inductive MxElem where
  | flt (f : Fmt)
  | int8
  deriving DecidableEq, Repr

/-- Element width in bits. -/
def MxElem.width : MxElem → Nat
  | .flt f => f.width
  | .int8 => 8

/-- The exponent of the element type's largest power of two (R127). -/
def MxElem.emax : MxElem → Int
  | .flt f => (match f.cls with | .e5m2 => 15 | .e4m3 => 8 | _ => (f.emaxField : Int) - f.bias)
  | .int8 => 0

/-- The value of an element pattern, before its scale. -/
def MxElem.decode : MxElem → Nat → FVal
  | .flt f, b => f.decode b
  | .int8, b => let v := toSigned 8 b; .fin (decide (v < 0)) v.natAbs (-6)

/-- Element times scale, exactly (R127): scale 0xFF makes every element NaN. -/
def MxElem.value (k : MxElem) (scale b : Nat) : FVal :=
  if scale = 255 then .nan
  else match k.decode b with
    | .fin n m e => .fin n m (e + scale - 127)
    | v => v

/-- Rounding of a finite value to an element (R134, last column). -/
def MxElem.roundFin (k : MxElem) (rm : Rm) (neg : Bool) (m : Nat) (e : Int) : Nat × Nat :=
  match k with
  | .flt f => f.roundFin rm neg m e
  | .int8 =>
    let (u, inexact) := roundUnits rm m e (-6)
    let lim := if neg then 128 else 127
    if u > lim then (wrapInt 8 (if neg then -128 else 127), fSAT ||| fNX)
    else (wrapInt 8 (if neg then -(u : Int) else u),
      if inexact then (if u = 0 then fUF ||| fNX else fNX) else 0)

/-- The E8M0 scale of a block and its shared exponent (R129 rules 2 and 3): `none` where rule 1 applies. -/
def mxScale (k : MxElem) (vs : List FVal) : Option (Nat × Int) :=
  let special := vs.any (fun v => match v with | .nan => true | .inf _ => true | _ => false)
  if special then none
  else
    let tops := vs.filterMap (fun v => match v with | .fin _ m e => if m = 0 then none else some (topExp m e) | _ => none)
    match tops with
    | [] => some (0, -127)
    | t :: ts =>
      let x := ts.foldl (fun a b => if a ≥ b then a else b) t - k.emax
      let x := if x < -127 then -127 else x
      some ((x + 127).toNat, x)

/-- One block of 32 inputs to its scale, its element patterns and flags (R129, R146); `rm i` rounds element `i`. -/
def mxBlock (k : MxElem) (rm : Nat → Rm) (vs : List FVal) : Nat × List Nat × Nat :=
  match mxScale k vs with
  | none =>
    (255, vs.map (fun _ => 0), if vs.any (fun v => match v with | .inf _ => true | _ => false) then fOF else 0)
  | some (sc, x) =>
    let zero := vs.all (fun v => match v with | .fin _ m _ => decide (m = 0) | _ => false)
    let rs := vs.zipIdx.map (fun (v, i) => match v with
      | .fin n m e => if zero then (0, 0) else k.roundFin (rm i) n m (e - x)
      | _ => (0, 0))
    (sc, rs.map (·.1), rs.foldl (fun a r => a ||| r.2) 0)

/-! ## The exact accumulator (R323, R356) -/

/-- A sum of FP32-range addends: an exact value in units of 2⁻¹⁴⁹ and the three flags of R356. -/
structure Acc where
  sum  : Int := 0
  nan  : Bool := false
  pinf : Bool := false
  ninf : Bool := false
  deriving DecidableEq, Repr

/-- Adds one addend. -/
def Acc.add (a : Acc) : FVal → Acc
  | .nan => { a with nan := true }
  | .inf n => if n then { a with ninf := true } else { a with pinf := true }
  | .fin n m e => { a with sum := a.sum + dyInt n m e (-149) }

/-- Two accumulators combined exactly (R323). -/
def Acc.join (a b : Acc) : Acc := ⟨a.sum + b.sum, a.nan || b.nan, a.pinf || b.pinf, a.ninf || b.ninf⟩

/-- The value held: a NaN or both infinities give NaN (R356). -/
def Acc.value (a : Acc) : FVal :=
  if a.nan || (a.pinf && a.ninf) then .nan
  else if a.pinf then .inf false
  else if a.ninf then .inf true
  else .fin (decide (a.sum < 0)) a.sum.natAbs (-149)

/-- The flag of a sum that holds infinities of opposite sign: their addition is invalid (R123), whatever else was added (DEDUCED, log 158). -/
def Acc.flags (a : Acc) : Nat := if a.pinf && a.ninf then fNV else 0

end Sys2Proof
end

