-- ==== Sys2Proof/Machine/Operands.lean ====
section
/-!
DEFINITION. Operands of the Mould cores: scalar, vector and predicate registers (R62, R63), lane views (R109), the active lanes of a
predicate, and the addresses of slot M (R104).
-/
namespace Sys2Proof.Machine

/-- An X register; X0 reads zero (R63). -/
def Core.xr (c : Core) (n : Nat) : Word := if n = 0 then 0 else Tab.get 0 c.x n
/-- Writes an X register; a write of X0 is discarded (R63). -/
def Core.setX (c : Core) (n : Nat) (v : Word) : Core := if n = 0 then c else { c with x := Tab.set 0 c.x n v }
def Core.vr (c : Core) (n : Nat) : VWord := Tab.get 0 c.v n
def Core.setV (c : Core) (n : Nat) (v : VWord) : Core := { c with v := Tab.set 0 c.v n v }
/-- A P register; P0 reads all ones (R63). -/
def Core.pr (c : Core) (n : Nat) : BitVec 256 := if n = 0 then BitVec.allOnes 256 else Tab.get 0 c.p n
/-- Writes a P register; a write of P0 is discarded (R63). -/
def Core.setP (c : Core) (n : Nat) (v : BitVec 256) : Core := if n = 0 then c else { c with p := Tab.set 0 c.p n v }
def Core.sems (c : Core) (k : Nat) : Nat := (Tab.get 0 c.sem k).toNat
def Core.setSem (c : Core) (k v : Nat) : Core := { c with sem := Tab.set 0 c.sem k (BitVec.ofNat 32 v) }
/-- Adds to a semaphore, saturating (R80). -/
def Core.postSem (c : Core) (k n : Nat) : Core := c.setSem k (satAdd 0xFFFFFFFF (c.sems k) n)
def Core.lcv (c : Core) (n : Nat) : Nat := (Tab.get 0 c.lc n).toNat
def Core.setLc (c : Core) (n v : Nat) : Core := { c with lc := Tab.set 0 c.lc n (BitVec.ofNat 32 v) }
def Core.tqr (c : Core) (n : Nat) : Tq := Tab.get {} c.tq n
def Core.setTq (c : Core) (n : Nat) (q : Tq) : Core := { c with tq := Tab.set {} c.tq n q }

/-- A 32-bit immediate sign-extended (R97). -/
def immS (imm : Nat) : Word := BitVec.ofInt 64 (toSigned 32 imm)

/-! ## Lanes -/

/-- The lanes of a register in the view of `w` bits, lane 0 first (R109). -/
def lanesOf (w : Nat) (v : VWord) : List Nat := (List.range (8192 / w)).map (fun i => fieldAt v.toNat (i * w) w)

/-- A register from its lanes. -/
def packLanes (w : Nat) (ls : List Nat) : VWord := BitVec.ofNat 8192 (ls.foldr (fun x a => x % 2 ^ w + a * 2 ^ w) 0)

/-- Whether the predicate activates lane `i` of the view of `w` bits (R63). -/
def activeLane (p : BitVec 256) (w i : Nat) : Bool := p.getLsbD (i * w / 32)

/-- New values in the active lanes, old ones elsewhere. -/
def mergeLanes (p : BitVec 256) (w : Nat) : Nat → List Nat → List Nat → List Nat
  | i, n :: ns, o :: os => (if activeLane p w i then n else o) :: mergeLanes p w (i + 1) ns os
  | _, _, os => os

/-- Flags of the active lanes (R111). -/
def activeFlags (p : BitVec 256) (w : Nat) (rs : List (Nat × Nat)) : Nat :=
  (rs.zipIdx.filter (fun r => activeLane p w r.2)).foldl (fun a r => a ||| r.1.2) 0

/-- Operand B of a vector operation: VB's lanes, or the X register in every lane (R109). -/
def operandB (c : Core) (f : VF) (w : Nat) : List Nat :=
  if f.bx = 1 then List.replicate (8192 / w) ((c.xr (f.vb % 32)).toNat % 2 ^ w) else lanesOf w (c.vr f.vb)

/-- The floating-point format of a type code (R96), where it has one. -/
def fmtOf (ty : Nat) : Option Fmt :=
  match ty with
  | 0 => some fp32
  | 1 => some bf16
  | 2 => some fp16
  | 3 => some e4m3
  | 4 => some e5m2
  | _ => none

/-- The element of an MX type code (R127). -/
def mxElem (ty : Nat) : MxElem :=
  match ty with
  | 0x10 => .flt e4m3
  | 0x11 => .flt e5m2
  | 0x12 => .flt e3m2
  | 0x13 => .flt e2m3
  | 0x14 => .flt e2m1
  | _ => .int8

/-- Whether an integer type is signed (R126). -/
def tySigned (ty : Nat) : Bool := ty = 5 || ty = 6 || ty = 7

/-- The integer a lane of an integer type holds. -/
def laneInt (ty v : Nat) : Int := if tySigned ty then toSigned (tyBits ty) v else (v % 2 ^ tyBits ty : Nat)

/-- Bounds of an integer type. -/
def tyRange (ty : Nat) : Int × Int :=
  let n := tyBits ty
  if tySigned ty then (-((2 ^ (n - 1) : Nat) : Int), ((2 ^ (n - 1) : Nat) : Int) - 1) else (0, ((2 ^ n : Nat) : Int) - 1)

/-! ## Addresses of slot M -/

/-- The local address of an access: the 64-bit sum of RA and IMM (R104). -/
def effAddr (c : Core) (f : MF) : Nat := (c.xr f.ra + immS f.imm).toNat

end Sys2Proof.Machine
end

