-- ==== Sys2Proof/Machine/Flags.lean ====
section
/-!
DEFINITION. FFLAGS, rounding modes and the stochastic indexes of the Mould cores (R65, R110, R111, R133, R135).
-/
namespace Sys2Proof.Machine

/-- Raises sticky flags (R91). -/
def Core.flag (c : Core) (fl : Nat) : Core := { c with fflags := c.fflags ||| BitVec.ofNat 6 fl }

/-- The mode a rounding field selects, 0 nearest-even, 1 toward zero, 2 stochastic, through FRM for 7 (R108). -/
def modeOf (c : Core) (rm : Nat) : Nat := if rm = 7 then c.frm.toNat else rm

/-- The rounding of result `j` of an operation whose first index is `base` (R110, R131–R133). -/
def rmAt (c : Core) (mode : Nat) (base : Word) (j : Nat) : Rm :=
  match mode with
  | 0 => .rne
  | 1 => .rtz
  | _ => .sr (srWord c.srSeed c.srStep (base + BitVec.ofNat 64 j))

/-- How many results a vector operation produces (R110, R113, R133). -/
def vResults (f : VF) : Nat :=
  if f.opc = 0x28 then (let a := tyBits f.ty; let b := tyBits f.dty; 8192 / (if a > b then a else b))
  else if f.opc = 0x29 then 256
  else 8192 / tyBits f.ty

/-- Operations that round (R109). -/
def vRounds (f : VF) : Bool := ((1 ≤ f.opc && f.opc ≤ 3) && isFP f.ty) || (4 ≤ f.opc && f.opc ≤ 6) || f.opc = 0x28 || f.opc = 0x29

/-- Indexes a vector operation takes, if it rounds stochastically (R110). -/
def vIndexes (c : Core) (f : VF) : Nat := if vRounds f && modeOf c f.rm = 2 then vResults f else 0

/-- Indexes a slot of a bundle takes (R110, R141). -/
def slotIndexes (c : Core) (b k : Nat) : Nat :=
  if !slotValid b k then 0
  else if k = 3 || k = 4 then vIndexes c (vF (slotOf b k))
  else if k = 5 && (xF (slotOf b 5)).opc = 4 && c.frm = 2 then 16384
  else 0

end Sys2Proof.Machine
end

