-- ==== Sys2Proof/Machine/Scalar.lean ====
section
/-!
DEFINITION. The scalar slots (R98–R102): what each operation computes, the control registers (R65), branches and loops (R69, R70).
-/
namespace Sys2Proof.Machine

/-! ## Arithmetic (R99, R100) -/

def scAdd (a b : Word) : Word := a + b
def scSub (a b : Word) : Word := a - b
def scAnd (a b : Word) : Word := a &&& b
def scOr (a b : Word) : Word := a ||| b
def scXor (a b : Word) : Word := a ^^^ b
/-- Shifts take the low six bits of their amount. -/
def scSll (a b : Word) : Word := a <<< (b.toNat % 64)
def scSrl (a b : Word) : Word := a >>> (b.toNat % 64)
def scSra (a b : Word) : Word := a.sshiftRight (b.toNat % 64)
def scSlt (a b : Word) : Word := if a.slt b then 1 else 0
def scSltu (a b : Word) : Word := if a < b then 1 else 0
def scSeq (a b : Word) : Word := if a = b then 1 else 0
def scMin (a b : Word) : Word := if a.slt b then a else b
def scMax (a b : Word) : Word := if a.slt b then b else a
def scMinu (a b : Word) : Word := if a < b then a else b
def scMaxu (a b : Word) : Word := if a < b then b else a
def scMul (a b : Word) : Word := a * b
/-- High halves of the exact products. -/
def scMulh (a b : Word) : Word := BitVec.ofInt 64 ((a.toInt * b.toInt) / 18446744073709551616)
def scMulhu (a b : Word) : Word := BitVec.ofNat 64 ((a.toNat * b.toNat) / 18446744073709551616)
/-- Division by zero gives all ones; the one overflowing quotient wraps (R100). -/
def scDiv (a b : Word) : Word := if b = 0 then BitVec.allOnes 64 else BitVec.ofInt 64 (Int.tdiv a.toInt b.toInt)
def scDivu (a b : Word) : Word := if b = 0 then BitVec.allOnes 64 else BitVec.ofNat 64 (a.toNat / b.toNat)
/-- Remainder by zero gives the dividend; the sign is the dividend's (R100). -/
def scRem (a b : Word) : Word := if b = 0 then a else BitVec.ofInt 64 (Int.tmod a.toInt b.toInt)
def scRemu (a b : Word) : Word := if b = 0 then a else BitVec.ofNat 64 (a.toNat % b.toNat)
/-- MOVI and MOVH. -/
def scMovi (imm : Nat) : Word := immS imm
def scMovh (a : Word) (imm : Nat) : Word := BitVec.ofNat 64 (imm % 2 ^ 32 * 2 ^ 32 + a.toNat % 2 ^ 32)

/-! ## Control registers (R65) -/

/-- CORE_ID. -/
def coreId (s : State) (c : Nat) : Word :=
  BitVec.ofNat 64 (fld ((sliceOfCore s c).getD 0) 29 24 + fld (c / 24) 18 16 + fld (c % 24) 12 8 + fld ((logicalOf s c).getD 0xFF) 7 0)

/-- CSRR: a control register; an undefined number reads zero (R65, R99). -/
def readCsr (s : State) (c : Nat) (x : Core) (n : Nat) : Word :=
  if n = 0x000 then coreId s c
  else if n = 0x001 then x.fflags.setWidth 64
  else if n = 0x002 then x.frm.setWidth 64
  else if n = 0x003 then x.srSeed
  else if n = 0x004 then x.srStep
  else if n = 0x005 then x.srIndex
  else if n = 0x008 then BitVec.ofNat 64 x.cycle
  else if n = 0x009 then BitVec.ofNat 64 (s.time / 1024 * 1024)
  else if n = 0x00A || n = 0x00B then BitVec.ofNat 64 (x.lcv (n - 0x00A))
  else if n = 0x010 then BitVec.ofNat 64 (x.trapCause + flag x.trapAsync 8)
  else if n = 0x011 then x.trapPc.setWidth 64
  else if n = 0x012 then x.trapVal
  else if 0x014 ≤ n && n ≤ 0x017 then BitVec.ofNat 64 (x.tqr (n - 0x014)).done
  else if 0x018 ≤ n && n ≤ 0x01B then (x.tqr (n - 0x018)).err
  else if 0x020 ≤ n && n ≤ 0x02F then BitVec.ofNat 64 (x.sems (n - 0x020))
  else if 0x030 ≤ n && n ≤ 0x033 then (x.tqr (n - 0x030)).bdone
  else if 0x034 ≤ n && n ≤ 0x037 then (x.tqr (n - 0x034)).frun
  else 0

/-- CSRW: defined fields of an RW register; a MODE of 3 and writes elsewhere are discarded (R65). -/
def writeCsr (x : Core) (n : Nat) (v : Word) : Core :=
  if n = 0x001 then { x with fflags := v.setWidth 6 }
  else if n = 0x002 then (if v.toNat % 4 = 3 then x else { x with frm := v.setWidth 2 })
  else if n = 0x003 then { x with srSeed := v }
  else if n = 0x004 then { x with srStep := v }
  else if n = 0x005 then { x with srIndex := v }
  else if n = 0x00A || n = 0x00B then x.setLc (n - 0x00A) (v.toNat % 2 ^ 32)
  else x

/-! ## Results of the scalar slots -/

/-- The value a scalar operation writes to RD, none for the operations that write no X register. -/
def scalarValue (s : State) (c : Nat) (x : Core) (f : ScF) : Option Word :=
  let a := x.xr f.rs1
  let b := x.xr f.rs2
  let i := immS f.imm
  match f.opc with
  | 0x01 => some (scAdd a b)
  | 0x02 => some (scSub a b)
  | 0x03 => some (scAnd a b)
  | 0x04 => some (scOr a b)
  | 0x05 => some (scXor a b)
  | 0x06 => some (scSll a b)
  | 0x07 => some (scSrl a b)
  | 0x08 => some (scSra a b)
  | 0x09 => some (scSlt a b)
  | 0x0A => some (scSltu a b)
  | 0x0B => some (scSeq a b)
  | 0x0C => some (scMin a b)
  | 0x0D => some (scMax a b)
  | 0x0E => some (scMinu a b)
  | 0x0F => some (scMaxu a b)
  | 0x11 => some (scAdd a i)
  | 0x13 => some (scAnd a i)
  | 0x14 => some (scOr a i)
  | 0x15 => some (scXor a i)
  | 0x16 => some (scSll a i)
  | 0x17 => some (scSrl a i)
  | 0x18 => some (scSra a i)
  | 0x19 => some (scSlt a i)
  | 0x1A => some (scSltu a i)
  | 0x1B => some (scSeq a i)
  | 0x1C => some (scMovi f.imm)
  | 0x1D => some (scMovh a f.imm)
  | 0x20 => some (scMul a b)
  | 0x21 => some (scMulh a b)
  | 0x22 => some (scMulhu a b)
  | 0x28 => some (scDiv a b)
  | 0x29 => some (scDivu a b)
  | 0x2A => some (scRem a b)
  | 0x2B => some (scRemu a b)
  | 0x30 => some (readCsr s c x f.imm)
  | 0x49 => some (BitVec.ofNat 64 (x.pc.toNat + 64))
  | _ => none

/-! ## Branches and loops (R69, R70, R101, R102) -/

/-- Whether a conditional branch is taken. -/
def brTaken (opc : Nat) (a b : Word) : Bool :=
  match opc with
  | 0x40 => a == b
  | 0x41 => a != b
  | 0x42 => a.slt b
  | 0x43 => !a.slt b
  | 0x44 => decide (a < b)
  | 0x45 => !decide (a < b)
  | 0x48 => true
  | 0x49 => true
  | _ => false

/-- Where S0 sends the core: the index of a taken branch's bundle. -/
def brTarget (x : Core) (f : ScF) : Option Nat :=
  if brTaken f.opc (x.xr f.rs1) (x.xr f.rs2) then some f.imm
  else if f.opc = 0x4A then some ((x.xr f.rs1).toNat / 64)
  else none

/-- Precise traps of slot S0: cause and TRAP_VAL (R90, R99, R101). -/
def scalarTrap (x : Core) (f : ScF) : Option (Nat × Word) :=
  if f.opc = 0x4D then some (0x08, BitVec.ofNat 64 f.imm)
  else if f.opc = 0x4C && f.imm ≥ 4096 then some (0x02, BitVec.ofNat 64 (f.imm * 64))
  else match brTarget x f with
    | some t => if t ≥ 4096 then some (0x02, BitVec.ofNat 64 (t * 64)) else none
    | none => none

/-- The end of an iteration at bundle `idx` (R70, R102): the inner loop first, the outer one only when the inner has ended. The core, and
the bundle it returns to, if any. -/
def loopEnd (x : Core) (idx : Nat) : List HwLoop → Core × Option Nat
  | [] => (x, none)
  | l :: r =>
    if l.stop ≠ idx then
      let (x', back) := loopEnd x idx r
      ({ x' with loops := l :: x'.loops }, back)
    else
      let v := x.lcv l.lc
      let x := x.setLc l.lc (v - 1)
      if v ≤ 1 then loopEnd x idx r else ({ x with loops := l :: r }, some l.start)

/-- The loops a taken branch leaves end, with their counters zero (R70). -/
def leaveLoops (x : Core) (t : Nat) : Core :=
  let out := x.loops.filter (fun l => !(l.start ≤ t && t ≤ l.stop))
  { out.foldl (fun x l => x.setLc l.lc 0) x with loops := x.loops.filter (fun l => l.start ≤ t && t ≤ l.stop) }

/-- The loop tests of `loopEnd` on a core whose list they rebuild. -/
def endOfBundle (x : Core) (idx : Nat) : Core × Nat :=
  let (x', back) := loopEnd { x with loops := [] } idx x.loops
  (x', back.getD (idx + 1))

/-- Control flow of a bundle that issues: the core with its loops and counters, and the index of the next bundle. -/
def flow (x old : Core) (f : Option ScF) (idx : Nat) : Core × Nat :=
  match f with
  | none => endOfBundle x idx
  | some f =>
    if f.opc = 0x4C then
      let n := (old.xr f.rs1).toNat % 2 ^ 32
      let x := x.setLc f.lc n
      if n = 0 then endOfBundle x f.imm
      else ({ x with loops := { lc := f.lc, start := idx + 1, stop := f.imm } :: x.loops }, idx + 1)
    else match brTarget old f with
      | some t => (leaveLoops x t, t)
      | none => endOfBundle x idx

/-- The dynamic rules of S0 in R120: a LOOP of an active counter (6), a branch or LOOP in the end bundle of an active loop (9). -/
def scalarDynBad (x : Core) (f : ScF) (idx : Nat) : Bool :=
  (f.opc = 0x4C && x.loops.any (fun l => l.lc = f.lc)) || ((0x40 ≤ f.opc && f.opc ≤ 0x4C) && x.loops.any (fun l => l.stop = idx))

end Sys2Proof.Machine
end

