-- ==== Sys2Proof/Machine/Local.lean ====
section
/-!
DEFINITION. Chiplet-local space (R74–R80): the checks of a local address, tile memory with its uncorrectable words, and slot M
(R103–R107) but for the tile mover.
-/
namespace Sys2Proof.Machine

/-- 3 MiB of tile memory, and the 4 MiB window of a core (R77). -/
def tileSize : Nat := 0x300000
def tileWindow : Nat := 0x400000

/-- A local address resolved to a core and an offset in its tile memory, or a precise trap. -/
inductive Local where
  | at (core off : Nat)
  | trap (cause : Nat) (val : Word)
  deriving DecidableEq

/-- Whether a core of a site may be reached at all (R78): its number if it is retired, denied, or reached. Retirement is checked first. -/
def reachable (s : State) (c n : Nat) : Local :=
  let t := c / 24 * 24 + n
  if t = c then .at t 0
  else if (s.core t).st = .retired || (logicalOf s t).isNone then .trap 0x05 (BitVec.ofNat 64 n)
  else if sliceOfCore s t ≠ sliceOfCore s c then .trap 0x06 (BitVec.ofNat 64 n)
  else .at t 0

/-- The checks of a span of local space for a core (R74, R77, R78, R104): range, then alignment, before retirement and slice, an order the spec gives for
the last two alone (DESIGN CHOICE, log 154). -/
def resolveLocal (s : State) (c addr n align : Nat) : Local :=
  let w := addr / tileWindow
  let o := addr % tileWindow
  if w ≥ 24 || o + n > tileSize then .trap 0x03 (BitVec.ofNat 64 addr)
  else if addr % align ≠ 0 then .trap 0x04 (BitVec.ofNat 64 addr)
  else match reachable s c w with
    | .at t _ => .at t o
    | x => x

/-! ## Tile memory -/

/-- One byte of tile memory; a byte of an uncorrectable word is a free value (log 2). -/
def Core.tileByte (x : Core) (gen o : Nat) : Byte := if x.ue.contains (o / 8) then Config.freeByte gen o else Tab.get 0 x.tmem o

/-- `n` bytes of tile memory. -/
def tileBytes (s : State) (t o n : Nat) : List Byte := (List.range n).map (fun i => (s.core t).tileByte s.draws (o + i))

/-- The first uncorrectable word a span touches (DEDUCED, log 103). -/
def badWord (s : State) (t o n : Nat) : Option Nat :=
  ((List.range ((o + n + 7) / 8 - o / 8)).map (· + o / 8)).find? (fun w => (s.core t).ue.contains w)

/-- An uncorrectable word of a core's tile memory is found (R76): its source is raised and the core stops with POISON. -/
def tileError (s : State) (t val : Nat) : State :=
  let s := raise s (112 + t) { slice := (sliceOfCore s t).getD 0xFF, unit := (logicalOf s t).getD 0xFF }
  stopCore { s with draws := s.draws + 1 } t 0x11 (BitVec.ofNat 64 val)

/-- Local address of the 64-byte line that holds an offset of a core's tile memory. -/
def lineAddr (t o : Nat) : Nat := t % 24 * tileWindow + o / 64 * 64

/-- Reads tile memory for slot M or the matrix unit; a bad word stops its owner (R76). -/
def readTile (s : State) (t o n : Nat) : State × List Byte :=
  let bs := tileBytes s t o n
  match badWord s t o n with
  | none => (s, bs)
  | some w => (tileError s t (lineAddr t (w * 8)), bs)

/-- Stores masked bytes in a table of tile memory. -/
def storeMasked (m : Tab Byte) (o : Nat) (mask : Nat → Bool) : Nat → List Byte → Tab Byte
  | _, [] => m
  | i, b :: r => storeMasked (if mask i then Tab.set 0 m (o + i) b else m) o mask (i + 1) r

/-- Words of a span that a masked store covers wholly, and those it covers in part (R76). -/
def wordCover (o n : Nat) (mask : Nat → Bool) (w : Nat) : Nat :=
  ((List.range 8).filter (fun k => let a := w * 8 + k; o ≤ a && a < o + n && mask (a - o))).length

/-- A masked store to tile memory (R76, R107): whole words become good, a merge into a bad word finds its error. -/
def writeTile (s : State) (t o : Nat) (bs : List Byte) (mask : Nat → Bool) : State :=
  let n := bs.length
  let x := s.core t
  let s' := setCore s t { x with tmem := storeMasked x.tmem o mask 0 bs, ue := x.ue.filter (fun w => wordCover o n mask w < 8) }
  match x.ue.find? (fun w => let k := wordCover o n mask w; 0 < k && k < 8) with
  | none => s'
  | some w => tileError s' t (lineAddr t (w * 8))

/-- A store of a core to a resolved address; one to a core in RESET is held (R78). -/
def storeLocal (s : State) (c t o : Nat) (bs : List Byte) (mask : Nat → Bool) : State :=
  if t ≠ c && (s.core t).st = .reset then
    let x := s.core t
    let runs := (List.range bs.length).filter mask
    setCore s t { x with heldAcc := x.heldAcc ++ runs.map (fun i => .store c (o + i) (sub bs i 1)) }
  else writeTile s t o bs mask

/-- Adds to a semaphore of a core; held while that core is in RESET (R80). -/
def postTo (s : State) (c t k n : Nat) : State :=
  let x := s.core t
  if t ≠ c && x.st = .reset then setCore s t { x with heldAcc := x.heldAcc ++ [.post c k n] } else setCore s t (x.postSem k n)

/-! ## Slot M -/

/-- Bytes of a load or store, and the alignment it needs (R74, R105). -/
def accSize (f : MF) : Nat :=
  match f.opc with
  | 0x01 => 1 | 0x02 => 1 | 0x09 => 1
  | 0x03 => 2 | 0x04 => 2 | 0x0A => 2
  | 0x05 => 4 | 0x06 => 4 | 0x0B => 4 | 0x12 => 4
  | 0x07 => 8 | 0x0C => 8
  | 0x10 => 1024 | 0x11 => 1024
  | _ => if f.sz = 1 then 8 else 4
def accAlign (n : Nat) : Nat := if n = 1024 then 64 else n

/-- Whether an opcode of slot M is a load, store or atomic. -/
def isAcc (o : Nat) : Bool := o ≤ 0x1C
def isStore (o : Nat) : Bool := (0x09 ≤ o && o ≤ 0x0C) || o = 0x11
def isAmo (o : Nat) : Bool := 0x18 ≤ o && o ≤ 0x1C

/-- Where an access of slot M goes. -/
def accLocal (s : State) (c : Nat) (x : Core) (f : MF) : Local :=
  let a := effAddr x f
  if a ≥ 2 ^ 32 then .trap 0x03 (BitVec.ofNat 64 a) else resolveLocal s c a (accSize f) (accAlign (accSize f))

/-- Target of a SEMPOST (R80, R105). -/
def postLocal (s : State) (c : Nat) (x : Core) (f : MF) : Local :=
  let a := (x.xr f.ra).toNat
  if a ≥ 24 then .trap 0x03 (x.xr f.ra) else reachable s c a

/-- The value a load gives its X register (R105). -/
def loadValue (o : Nat) (v : Nat) : Word :=
  match o with
  | 0x01 => BitVec.ofInt 64 (toSigned 8 v)
  | 0x03 => BitVec.ofInt 64 (toSigned 16 v)
  | 0x05 => BitVec.ofInt 64 (toSigned 32 v)
  | _ => BitVec.ofNat 64 v

/-- A scalar load. -/
def doLoad (s : State) (c t o : Nat) (f : MF) : State :=
  let (s, bs) := readTile s t o (accSize f)
  setCore s c ((s.core c).setX f.t (loadValue f.opc (leNat bs)))

/-- A scalar store. -/
def doStore (s : State) (c t o : Nat) (x : Core) (f : MF) : State :=
  storeLocal s c t o (leBytes (accSize f) (x.xr f.t).toNat) (fun _ => true)

/-- VLD: the lanes PS names (R107). -/
def doVld (s : State) (c t o : Nat) (x : Core) (f : MF) : State :=
  let (s, bs) := readTile s t o 1024
  let new := lanesOf 32 (BitVec.ofNat 8192 (leNat bs))
  setCore s c ((s.core c).setV f.t (packLanes 32 (mergeLanes (x.pr f.ps) 32 0 new (lanesOf 32 (x.vr f.t)))))

/-- VLDBC: one word in every lane PS names. -/
def doVldbc (s : State) (c t o : Nat) (x : Core) (f : MF) : State :=
  let (s, bs) := readTile s t o 4
  setCore s c ((s.core c).setV f.t (packLanes 32 (mergeLanes (x.pr f.ps) 32 0 (List.replicate 256 (leNat bs)) (lanesOf 32 (x.vr f.t)))))

/-- VST: the bytes of the lanes PS names (R107). -/
def doVst (s : State) (c t o : Nat) (x : Core) (f : MF) : State :=
  storeLocal s c t o (leBytes 1024 (x.vr f.t).toNat) (fun i => (x.pr f.ps).getLsbD (i / 4))

/-- Atomic opcode as R210 numbers it, for the shared atomic arithmetic. -/
def amoOpc (o : Nat) : Nat := o - 0x18 + 0x10

/-- An atomic at a bank (R78, R106). A word found uncorrectable stops its owner and is not written. -/
def doAmo (s : State) (c t o : Nat) (x : Core) (f : MF) : State :=
  let n := accSize f
  let bits' := 8 * n
  let bad := (badWord s t o n).isSome
  let (s, bs) := readTile s t o n
  let old := leNat bs
  let new := atomicNew (amoOpc f.opc) bits' (f.u = 1) old (x.xr f.rb).toNat (x.xr f.rc).toNat
  let s := if bad then s else writeTile s t o (leBytes n new) (fun _ => true)
  setCore s c ((s.core c).setX f.t (BitVec.ofNat 64 (atomicOld bits' (f.u = 1) old)))

end Sys2Proof.Machine
end

