-- ==== Sys2Proof/Machine/Vector.lean ====
section
/-!
DEFINITION. The vector slots (R108–R116): what each operation computes on lanes, with its flags. Each per-operation definition maps
operands to results with their flags, lane 0 first.
-/
namespace Sys2Proof.Machine

/-! ## Lane-wise arithmetic (R112, R125, R126) -/

/-- A floating-point or wrapping integer operation on two lanes. -/
def lane2 (ty : Nat) (fp : Fmt → Nat → Nat → Nat × Nat) (int : Int → Int → Int) (a b : Nat) : Nat × Nat :=
  match (if isFP ty then fmtOf ty else none) with
  | some f => fp f a b
  | none => (wrapInt (tyBits ty) (int (laneInt ty a) (laneInt ty b)), 0)

def vAdd (ty : Nat) (rm : Rm) (a b : Nat) : Nat × Nat := lane2 ty (fun f => f.fadd rm) (· + ·) a b
def vSub (ty : Nat) (rm : Rm) (a b : Nat) : Nat × Nat := lane2 ty (fun f => f.fsub rm) (· - ·) a b
def vMul (ty : Nat) (rm : Rm) (a b : Nat) : Nat × Nat := lane2 ty (fun f => f.fmul rm) (· * ·) a b

/-- The fused family: `np` negates the product and `nc` the addend. -/
def vFused (ty : Nat) (rm : Rm) (np nc : Bool) (a b c : Nat) : Nat × Nat :=
  match fmtOf ty with
  | some f => f.ffma rm np nc a b c
  | none => (0, 0)
def vFma (ty : Nat) (rm : Rm) (a b c : Nat) : Nat × Nat := vFused ty rm false false a b c
def vFms (ty : Nat) (rm : Rm) (a b c : Nat) : Nat × Nat := vFused ty rm false true a b c
def vFnma (ty : Nat) (rm : Rm) (a b c : Nat) : Nat × Nat := vFused ty rm true false a b c

def vMin (ty a b : Nat) : Nat × Nat := lane2 ty (fun f a b => (f.fmin a b, 0)) (fun x y => if x ≤ y then x else y) a b
def vMax (ty a b : Nat) : Nat × Nat := lane2 ty (fun f a b => (f.fmax a b, 0)) (fun x y => if x ≤ y then y else x) a b
def vAbs (ty a : Nat) : Nat × Nat := lane2 ty (fun f a _ => (f.fabs a, 0)) (fun x _ => if x < 0 then -x else x) a 0
def vNeg (ty a : Nat) : Nat × Nat := lane2 ty (fun f a _ => (f.fneg a, 0)) (fun x _ => -x) a 0

/-- Bitwise operations and shifts on lanes. -/
def vAnd (a b : Nat) : Nat × Nat := (a &&& b, 0)
def vOr (a b : Nat) : Nat × Nat := (a ||| b, 0)
def vXor (a b : Nat) : Nat × Nat := (a ^^^ b, 0)
/-- A shift takes the low 5, 4 or 3 bits of its lane. -/
def vSll (ty a b : Nat) : Nat × Nat := ((a <<< (b % tyBits ty)) % 2 ^ tyBits ty, 0)
def vSrl (ty a b : Nat) : Nat × Nat := (a >>> (b % tyBits ty), 0)
def vSra (ty a b : Nat) : Nat × Nat := (wrapInt (tyBits ty) (toSigned (tyBits ty) a / ((2 ^ (b % tyBits ty) : Nat) : Int)), 0)

/-! ## Compares (R112) -/

/-- The order of two lanes; none if either is NaN. -/
def laneCmp (ty a b : Nat) : Option Ordering := if ty = 0 then (fp32.decode a).cmp (fp32.decode b) else some (compare (laneInt ty a) (laneInt ty b))

def vCmpeq (ty a b : Nat) : Nat × Nat := (if laneCmp ty a b = some .eq then 1 else 0, 0)
def vCmpne (ty a b : Nat) : Nat × Nat := (if laneCmp ty a b = some .eq then 0 else 1, 0)
/-- An ordered compare is false on a NaN and invalid. -/
def ordered (o : Option Ordering) (p : Ordering → Bool) : Nat × Nat :=
  match o with
  | none => (0, fNV)
  | some o => (if p o then 1 else 0, 0)
def vCmplt (ty a b : Nat) : Nat × Nat := ordered (laneCmp ty a b) (· == .lt)
def vCmple (ty a b : Nat) : Nat × Nat := ordered (laneCmp ty a b) (· != .gt)
def vCmpgt (ty a b : Nat) : Nat × Nat := ordered (laneCmp ty a b) (· == .gt)
def vCmpge (ty a b : Nat) : Nat × Nat := ordered (laneCmp ty a b) (· != .lt)

/-! ## Conversions (R113, R114) -/

/-- One element from a type to a type (R113, R134, R135). -/
def convert (ty dty : Nat) (rm : Rm) (a : Nat) : Nat × Nat :=
  match fmtOf ty, fmtOf dty with
  | some f, some g => g.round rm (f.decode a)
  | some f, none =>
    let (lo, hi) := tyRange dty
    let (v, fl) := floatToInt rm lo hi (f.decode a)
    (wrapInt (tyBits dty) v, fl)
  | none, some g => g.ofInt rm (laneInt ty a)
  | none, none =>
    let v := laneInt ty a
    let (lo, hi) := tyRange dty
    if tyBits dty < tyBits ty then
      (if v > hi then (wrapInt (tyBits dty) hi, fSAT ||| fNX) else if v < lo then (wrapInt (tyBits dty) lo, fSAT ||| fNX)
       else (wrapInt (tyBits dty) v, 0))
    else (wrapInt (tyBits dty) v, 0)

/-- The source elements of a VCVT: all of them, or the part PART names of a narrower type. -/
def cvtSource (f : VF) (a : VWord) : List Nat :=
  let n := vResults f
  let all := lanesOf (tyBits f.ty) a
  if tyBits f.ty < tyBits f.dty then (all.drop (n * f.part)).take n else all

/-- VCVT: the register it leaves and the flags of its active results. Result i is governed by PG bit floor(i × 256 / n). -/
def vCvt (f : VF) (pg : BitVec 256) (rm : Nat → Rm) (a old : VWord) : VWord × Nat :=
  let n := vResults f
  let rs := (cvtSource f a).zipIdx.map (fun (v, i) => convert f.ty f.dty (rm i) v)
  let act := fun i => pg.getLsbD (i * 256 / n)
  let fl := (rs.zipIdx.filter (fun r => act r.2)).foldl (fun m r => m ||| r.1.2) 0
  let w := tyBits f.dty
  let olds := lanesOf w old
  let base := if w < tyBits f.ty then n * f.part else 0
  let new := olds.zipIdx.map (fun (o, k) => if base ≤ k && k < base + n && act (k - base) then (rs[k - base]?.getD (0, 0)).1 else o)
  (packLanes w new, fl)

/-- The eight blocks of 32 FP32 lanes. -/
def blocks32 (ls : List Nat) : List (List Nat) := (List.range 8).map (fun j => (ls.drop (32 * j)).take 32)

/-- VCVTMX: eight scales, the packed elements of a 256-byte quarter, and flags (R114, R129). -/
def vCvtmx (f : VF) (rm : Nat → Rm) (a old : VWord) : VWord × Word × Nat :=
  let k := mxElem f.dty
  let bs := (blocks32 (lanesOf 32 a)).zipIdx.map (fun (b, j) => mxBlock k (fun i => rm (32 * j + i)) (b.map fp32.decode))
  let scales := bs.foldr (fun b acc => b.1 + acc * 256) 0
  let elems := (bs.flatMap (·.2.1)).foldr (fun e acc => e % 2 ^ k.width + acc * 2 ^ k.width) 0
  let quarters := (lanesOf 2048 old).zipIdx.map (fun (q, i) => if i = f.part then elems else q)
  (packLanes 2048 quarters, BitVec.ofNat 64 scales, bs.foldl (fun m b => m ||| b.2.2) 0)

/-- VCVTFMX: the FP32 lanes of a quarter times their scales, exact but for overflow (R114). -/
def vCvtfmx (f : VF) (a : VWord) (scales : Word) : List (Nat × Nat) :=
  let k := mxElem f.ty
  let q := fieldAt a.toNat (2048 * f.part) 2048
  (List.range 256).map (fun i => fp32.round .rne (k.value (fieldAt scales.toNat (8 * (i / 32)) 8) (fieldAt q (i * k.width) k.width)))

/-! ## Reductions and permutations (R112, R115) -/

/-- One level of the tree: neighbours combined, lowest first. -/
def pairUp (op : Nat → Nat → Nat × Nat) : List Nat → List Nat × Nat
  | a :: b :: r =>
    let (v, fl) := op a b
    let (vs, fl') := pairUp op r
    (v :: vs, fl ||| fl')
  | l => (l, 0)

/-- The fixed tree of R115 over `levels` levels. -/
def reduceTree (op : Nat → Nat → Nat × Nat) : Nat → List Nat → Nat × Nat
  | 0, l => (l.headD 0, 0)
  | n + 1, l =>
    let (l, fl) := pairUp op l
    let (v, fl') := reduceTree op n l
    (v, fl ||| fl')

/-- The lanes of a reduction, with its identity in the inactive ones. -/
def reduceLanes (pg : BitVec 256) (id : Nat) (a : VWord) : List Nat :=
  (lanesOf 32 a).zipIdx.map (fun (v, i) => if pg.getLsbD i then v else id)

/-- VREDSUM: no underflow is possible in a sum, and NX, OF and NV are its flags. -/
def vRedsum (ty : Nat) (pg : BitVec 256) (a : VWord) : Nat × Nat :=
  reduceTree (vAdd ty .rne) 8 (reduceLanes pg (if ty = 0 then 0x80000000 else 0) a)
def vRedmax (ty : Nat) (pg : BitVec 256) (a : VWord) : Nat × Nat :=
  reduceTree (vMax ty) 8 (reduceLanes pg (if ty = 0 then 0xFF800000 else if ty = 5 then 0x80000000 else 0) a)
def vRedmin (ty : Nat) (pg : BitVec 256) (a : VWord) : Nat × Nat :=
  reduceTree (vMin ty) 8 (reduceLanes pg (if ty = 0 then 0x7F800000 else if ty = 5 then 0x7FFFFFFF else 0xFFFFFFFF) a)

def vPerm (a b : List Nat) : List Nat := b.map (fun i => a[i % 256]?.getD 0)
def vRot (a : List Nat) (imm : Nat) : List Nat := (List.range 256).map (fun i => a[(i + imm) % 256]?.getD 0)
def vBcast (a : List Nat) (imm : Nat) : List Nat := List.replicate 256 (a[imm % 256]?.getD 0)
def vMvxv (a : List Nat) (imm : Nat) : Word := BitVec.ofNat 64 (a[imm % 256]?.getD 0)

/-! ## Predicates (R112) -/

def pAnd (a b : BitVec 256) : BitVec 256 := a &&& b
def pOr (a b : BitVec 256) : BitVec 256 := a ||| b
def pXor (a b : BitVec 256) : BitVec 256 := a ^^^ b
def pAndn (a b : BitVec 256) : BitVec 256 := a &&& ~~~b
def pNot (a : BitVec 256) : BitVec 256 := ~~~a
def pSetn (n : Word) : BitVec 256 := BitVec.ofNat 256 (2 ^ (min n.toNat 256) - 1)

/-! ## Approximate functions (R116) -/

/-- Magnitude patterns of FP32 within `n` units in the last place of a positive exact value m × 2^e, where a unit is that of the value's binade. -/
def withinUlps (n m : Nat) (e : Int) : List Nat :=
  let p := (fp32.roundFin .rtz false m e).1
  let u := max (topExp m e - 23) (-149)
  let z := min e (-149)
  ((List.range (3 * n + 1)).filter (fun i => i ≤ p + n)).filterMap (fun i =>
    let c := p + n - i
    match fp32.decode c with
    | .fin _ mc ec =>
      let x := m <<< (e - z).toNat
      let y := mc <<< (ec - z).toNat
      if max x y - min x y ≤ n <<< (u - z).toNat then some c else none
    | _ => none)

/-- A value within `n` units of an exact one, free among them (log 2). -/
def nearby (n k m : Nat) (e : Int) : Nat :=
  let l := withinUlps n m e
  (l[k % l.length]?).getD 0

/-- VRCP: within 1 unit of the exact reciprocal, which the spec does not fix further (log 2). For a reciprocal beyond the finite range
the spec states no result: ∞ or the largest finite value (log 2). -/
def vRcp (a : Nat) : Nat × Nat :=
  match fp32.decode a with
  | .nan => (fp32.nanPattern, 0)
  | .inf n => (fp32.signed n 0, 0)
  | .fin n m e =>
    if m = 0 then (fp32.signed n fp32.infPattern, fDZ)
    else
      let free := Config.approx 0 (BitVec.ofNat 32 a)
      let (q, qe) := divSticky 1 0 m e
      let r := if topExp q qe ≥ 128 then (if free % 2 = 0 then fp32.infPattern else fp32.maxPattern) else nearby 1 free q qe
      (fp32.signed n r, 0)

/-- VRSQRT: within 1 unit (log 2). -/
def vRsqrt (a : Nat) : Nat × Nat :=
  match fp32.decode a with
  | .nan => (fp32.nanPattern, 0)
  | .inf n => if n then (fp32.nanPattern, fNV) else (0, 0)
  | .fin n m e =>
    if m = 0 then (fp32.signed n fp32.infPattern, fDZ)
    else if n then (fp32.nanPattern, fNV)
    else
      let (q, qe) := divSticky 1 0 m e
      let (r, re) := sqrtSticky q qe
      (nearby 1 (Config.approx 1 (BitVec.ofNat 32 a)) r re, 0)

/-- floor of a finite value, and what is left above it: a numerator and its denominator. -/
def floorFin (neg : Bool) (m : Nat) (e : Int) : Int × Nat × Nat :=
  let (k, rest, den) := unitsAt m e 0
  if !neg then (k, rest, den) else if rest = 0 then (-(k : Int), 0, den) else (-(k : Int) - 1, den - rest, den)

/-- 2^(f / 2^64) in units of 2^−96, below, by the bits of f from the highest: `root` is 2 to the value of the bit above. -/
def exp2Bits (f : Nat) : Nat → Nat → Nat → Nat
  | 0, _, acc => acc
  | i + 1, root, acc =>
    let r := rootFrom 2 12 (root <<< 96) (2 ^ 97)
    exp2Bits f i r (if f.testBit i then (acc * r) >>> 96 else acc)

/-- VEXP2: within 2 units of the exact result, which the spec does not fix further (log 2). Above the finite range +∞ with OF; below −126 it sets
UF. -/
def vExp2 (a : Nat) : Nat × Nat :=
  match fp32.decode a with
  | .nan => (fp32.nanPattern, 0)
  | .inf n => (if n then 0 else fp32.infPattern, 0)
  | .fin n m e =>
    let (k, rest, den) := floorFin n m e
    let free := Config.approx 2 (BitVec.ofNat 32 a)
    let k' := max k (-200)
    if m = 0 then (0x3F800000, 0)
    else if k ≥ 128 then (fp32.infPattern, fOF)
    else
      let r := if rest = 0 then nearby 2 free 1 k' else nearby 2 free (2 * exp2Bits ((rest <<< 64) / den) 64 (2 ^ 97) (2 ^ 96) + 1) (k' - 97)
      (r, if k ≥ -126 then 0 else fUF)

/-- The first `fuel` bits of the logarithm of y / 2^192, where that is from 1 to 2, by squaring. -/
def log2Bits : Nat → Nat → Nat → Nat
  | 0, _, acc => acc
  | fuel + 1, y, acc =>
    let q := (y * y) >>> 192
    if q ≥ 2 ^ 193 then log2Bits fuel (q / 2) (2 * acc + 1) else log2Bits fuel q (2 * acc)

/-- VLOG2: within 2 units of the exact result, which the spec does not fix further (log 2). -/
def vLog2 (a : Nat) : Nat × Nat :=
  match fp32.decode a with
  | .nan => (fp32.nanPattern, 0)
  | .inf n => if n then (fp32.nanPattern, fNV) else (fp32.infPattern, 0)
  | .fin n m e =>
    if m = 0 then (fp32.signed true fp32.infPattern, fDZ)
    else if n then (fp32.nanPattern, fNV)
    else
      let k := topExp m e
      let free := Config.approx 3 (BitVec.ofNat 32 a)
      if m = 2 ^ Nat.log2 m then (if k = 0 then 0 else fp32.signed (decide (k < 0)) (nearby 2 free k.natAbs 0), 0)
      else
        let frac := 2 * log2Bits 96 (m <<< (192 - Nat.log2 m)) 0 + 1
        let v : Int := k * 2 ^ 97 + frac
        (fp32.signed (decide (k < 0)) (nearby 2 free v.natAbs (-97)), 0)

/-! ## One vector operation -/

/-- What a vector operation writes: a V register, a P register, an X register, and flags. -/
structure VEff where
  v : Option VWord := none
  p : Option (BitVec 256) := none
  x : Option (Nat × Word) := none
  fl : Nat := 0
  deriving DecidableEq, Repr

/-- Lanes of results under PG, with the flags of the active ones (R63, R111). -/
def putLanes (c : Core) (f : VF) (w : Nat) (rs : List (Nat × Nat)) : VEff :=
  let pg := c.pr f.pg
  { v := some (packLanes w (mergeLanes pg w 0 (rs.map (·.1)) (lanesOf w (c.vr f.vd)))), fl := activeFlags pg w rs }

/-- Bits of a compare under PG: an inactive lane keeps its bit. -/
def putPred (c : Core) (f : VF) (rs : List (Nat × Nat)) : VEff :=
  let pg := c.pr f.pg
  let bitsNew := rs.foldr (fun r a => r.1 % 2 + a * 2) 0
  { p := some ((BitVec.ofNat 256 bitsNew &&& pg) ||| (c.pr f.vd &&& ~~~pg)), fl := activeFlags pg 32 rs }

/-- Lane 0 of a reduction, the other lanes zero (R115). -/
def putLane0 (r : Nat × Nat) : VEff := { v := some (BitVec.ofNat 8192 r.1), fl := r.2 }

/-- One vector operation on the registers of a core, its stochastic indexes from `base` (R108–R116). -/
def vExec (c : Core) (f : VF) (base : Word) : VEff :=
  let w := tyBits f.ty
  let a := lanesOf w (c.vr f.va)
  let b := operandB c f w
  let cc := lanesOf w (c.vr f.vc)
  let mode := modeOf c f.rm
  let rm := rmAt c mode base
  let map1 := fun (g : Nat → Nat × Nat) => putLanes c f w (a.map g)
  let map2 := fun (g : Nat → Nat → Nat × Nat) => putLanes c f w ((a.zip b).map (fun p => g p.1 p.2))
  let map2r := fun (g : Rm → Nat → Nat → Nat × Nat) => putLanes c f w ((a.zip b).zipIdx.map (fun (p, i) => g (rm i) p.1 p.2))
  let map3r := fun (g : Rm → Nat → Nat → Nat → Nat × Nat) =>
    putLanes c f w (((a.zip b).zip cc).zipIdx.map (fun (p, i) => g (rm i) p.1.1 p.1.2 p.2))
  let cmp := fun (g : Nat → Nat → Nat × Nat) => putPred c f ((a.zip b).map (fun p => g p.1 p.2))
  let quiet := fun (l : List Nat) => putLanes c f 32 (l.map (fun v => (v, 0)))
  match f.opc with
  | 0x01 => map2r (vAdd f.ty)
  | 0x02 => map2r (vSub f.ty)
  | 0x03 => map2r (vMul f.ty)
  | 0x04 => map3r (vFma f.ty)
  | 0x05 => map3r (vFms f.ty)
  | 0x06 => map3r (vFnma f.ty)
  | 0x07 => map2 (vMin f.ty)
  | 0x08 => map2 (vMax f.ty)
  | 0x09 => map1 (vAbs f.ty)
  | 0x0A => map1 (vNeg f.ty)
  | 0x0B => putLanes c f w ((if f.bx = 1 then b else a).map (fun v => (v, 0)))
  | 0x0C => putLanes c f w ((a.zip b).zipIdx.map (fun (p, i) => (if (c.pr (f.vc % 8)).getLsbD i then p.1 else p.2, 0)))
  | 0x10 => map2 vAnd
  | 0x11 => map2 vOr
  | 0x12 => map2 vXor
  | 0x13 => map2 (vSll f.ty)
  | 0x14 => map2 (vSrl f.ty)
  | 0x15 => map2 (vSra f.ty)
  | 0x18 => cmp (vCmpeq f.ty)
  | 0x19 => cmp (vCmpne f.ty)
  | 0x1A => cmp (vCmplt f.ty)
  | 0x1B => cmp (vCmple f.ty)
  | 0x1C => cmp (vCmpgt f.ty)
  | 0x1D => cmp (vCmpge f.ty)
  | 0x20 => { p := some (pAnd (c.pr f.va) (c.pr f.vb)) }
  | 0x21 => { p := some (pOr (c.pr f.va) (c.pr f.vb)) }
  | 0x22 => { p := some (pXor (c.pr f.va) (c.pr f.vb)) }
  | 0x23 => { p := some (pAndn (c.pr f.va) (c.pr f.vb)) }
  | 0x24 => { p := some (pNot (c.pr f.va)) }
  | 0x25 => { p := some (pSetn (c.xr f.va)) }
  | 0x28 => let (v, fl) := vCvt f (c.pr f.pg) rm (c.vr f.va) (c.vr f.vd); { v := some v, fl := fl }
  | 0x29 => let (v, sc, fl) := vCvtmx f rm (c.vr f.va) (c.vr f.vd); { v := some v, x := some (f.vc, sc), fl := fl }
  | 0x2A => putLanes c f 32 (vCvtfmx f (c.vr f.va) (c.xr f.vb))
  | 0x30 => putLane0 (vRedsum f.ty (c.pr f.pg) (c.vr f.va))
  | 0x31 => putLane0 (vRedmax f.ty (c.pr f.pg) (c.vr f.va))
  | 0x32 => putLane0 (vRedmin f.ty (c.pr f.pg) (c.vr f.va))
  | 0x34 => quiet (vPerm a b)
  | 0x35 => quiet (vRot a f.imm)
  | 0x36 => quiet (vBcast a f.imm)
  | 0x37 => { x := some (f.vd, vMvxv a f.imm) }
  | 0x38 => map1 vRcp
  | 0x39 => map1 vRsqrt
  | 0x3A => map1 vExp2
  | 0x3B => map1 vLog2
  | _ => {}

/-- The effects of a vector operation on a core. -/
def Core.applyV (x : Core) (f : VF) (e : VEff) : Core :=
  let x := match e.v with | some v => x.setV f.vd v | none => x
  let x := match e.p with | some p => x.setP f.vd p | none => x
  let x := match e.x with | some (n, v) => x.setX n v | none => x
  x.flag e.fl

end Sys2Proof.Machine
end

