-- ==== Sys2Proof/Machine/Matrix.lean ====
section
/-!
DEFINITION. The matrix unit (R71–R73, R117–R119, R136–R142): checks at issue, the queue, weight loads, multiply-accumulate, read-out.
-/
namespace Sys2Proof.Machine

/-- Bits of an element of a format the matrix unit takes. -/
def matBits (fmt : Nat) : Nat := if isMX fmt then (mxElem fmt).width else match fmtOf fmt with | some f => f.width | none => 32

/-- Bytes of the values of a weight tile and of its side bytes (R71). -/
def ldwValues (fmt : Nat) : Nat := 2048 * matBits fmt
def ldwSide (fmt sp : Nat) : Nat := (if isMX fmt then (if sp = 1 then 1024 else 512) else 0) + (if sp = 1 then 4096 else 0)

/-- Bytes of an activation row, and of its scales (R136). -/
def rowBytes (fmt sp : Nat) : Nat := (if sp = 1 then 256 else 128) * matBits fmt / 8
def scaleBytes (sp : Nat) : Nat := if sp = 1 then 8 else 4

/-- Element size of an ACCST target in bytes. -/
def stBytes (fmt : Nat) : Nat := matBits fmt / 8

/-- The spans of local space an operation touches: address and bytes (R118). -/
def matSpans (f : XF) (xa xs xb : Word) : List (Nat × Nat) :=
  match f.opc with
  | 1 => [(xa.toNat, ldwValues f.fmt + ldwSide f.fmt f.sp)]
  | 2 => (List.range f.rows).map (fun r => ((xa + xs * BitVec.ofNat 64 r).toNat, rowBytes f.fmt f.sp)) ++
      (if isMX f.fmt then (List.range f.rows).map (fun r => ((xb + BitVec.ofNat 64 (scaleBytes f.sp * r)).toNat, scaleBytes f.sp)) else [])
  | 4 => (List.range 128).map (fun r => ((xa + xs * BitVec.ofNat 64 r).toNat, 128 * stBytes f.fmt))
  | _ => []

/-- The alignment xa and xs need (R118). -/
def matAlign (f : XF) : Nat :=
  match f.opc with
  | 1 => 64
  | 2 => if f.fmt = 1 || f.fmt = 2 then 2 else 1
  | 4 => stBytes f.fmt
  | _ => 1

/-- Where a span of local space lies, no alignment asked; its address is 64 bits wide (R77) (DEDUCED, log 101). -/
def matLocal (s : State) (c : Nat) (sp : Nat × Nat) : Local :=
  if sp.1 ≥ 2 ^ 32 then .trap 0x03 (BitVec.ofNat 64 sp.1) else resolveLocal s c sp.1 sp.2 1

/-- Precise traps of slot X at issue (R118): the first misaligned source or row, then the first span out of reach. -/
def matTrap (s : State) (c : Nat) (x : Core) (f : XF) : Option (Nat × Word) :=
  let xa := x.xr f.ra
  let xs := x.xr f.rs
  let n := matAlign f
  if xa.toNat % n ≠ 0 then some (0x04, xa)
  else if (f.opc = 2 || f.opc = 4) && xs.toNat % n ≠ 0 then some (0x04, xa + xs)
  else (matSpans f xa xs (x.xr f.rb)).findSome? (fun sp => match matLocal s c sp with | .trap k v => some (k, v) | .at _ _ => none)

/-- Weight formats an activation format pairs with (R119), by group. -/
def pairGroup (fmt : Nat) : Nat :=
  if fmt = 1 then 1 else if fmt = 2 then 2 else if fmt = 3 || fmt = 4 then 3
  else if fmt = 0x10 || fmt = 0x11 || fmt = 0x15 then 4 else if fmt = 0x12 || fmt = 0x13 || fmt = 0x14 then 5 else 0

def Core.wfm (x : Core) (n : Nat) : WFmt := Tab.get {} x.wfmt n

/-- An MMA whose format or SP does not pair with the record of its buffer (R119, condition 9 of R120). -/
def matDynBad (x : Core) (f : XF) : Bool :=
  f.opc = 2 && (pairGroup (x.wfm f.wn).code ≠ pairGroup f.fmt || (x.wfm f.wn).sparse ≠ decide (f.sp = 1))

/-- An operation enters the queue (R72): operands, FRM and stochastic inputs are read at issue, and an LDW records its format. -/
def matIssue (x old : Core) (w : Nat) (index : Word) : Core :=
  let f := xF w
  if f.opc = 6 then x
  else
    let op : MatOp := { word := w, base := old.xr f.ra, stride := old.xr f.rs, base2 := old.xr f.rb, wcode := (old.wfm f.wn).code,
                        frm := old.frm.toNat, seed := old.srSeed, step := old.srStep, index := index }
    let x := { x with matq := x.matq ++ [op] }
    if f.opc = 1 then { x with wfmt := Tab.set {} x.wfmt f.wn { code := f.fmt, sparse := decide (f.sp = 1) } } else x

/-! ## Execution -/

/-- Element `i` of width `w` in a packed bit string of bytes (R128). -/
def packedAt (byte : Nat → Nat) (w i : Nat) : Nat :=
  let b := i * w / 8
  ((byte b + byte (b + 1) * 256) >>> (i * w % 8)) % 2 ^ w

/-- Value of an element of a format with its scale, 127 standing for none (R137). -/
def matValue (fmt scale b : Nat) : FVal :=
  if isMX fmt then (mxElem fmt).value scale b else match fmtOf fmt with | some f => f.decode b | none => .nan

/-- LDW: values, side bytes (R118). -/
def doLdw (x : Core) (f : XF) (bs : List Byte) : Core :=
  let nv := ldwValues f.fmt
  let put := fun (t : Tab Byte) (base : Nat) (l : List Byte) => l.zipIdx.foldl (fun t p => Tab.set 0 t (base + p.2) p.1) t
  { x with w := put x.w (f.wn * 32768) (bs.take nv), ws := put x.ws (f.wn * 8192) (bs.drop nv) }

/-- Logical row that stored row `k` of column `c` stands for (R136, R142). -/
def logicalRow (x : Core) (wn : Nat) (sp : Bool) (k c : Nat) : Nat :=
  if !sp then k
  else
    let q := k / 2
    let nib := ((Tab.get 0 x.ws (wn * 8192 + c * 32 + q / 2)).toNat >>> (4 * (q % 2))) % 16
    4 * q + (if k % 2 = 0 then nib % 4 else nib / 4)

/-- The weight of stored row `k`, column `c`. -/
def weightAt (x : Core) (wn wfmt : Nat) (sp : Bool) (k c li : Nat) : FVal :=
  let b := packedAt (fun i => (Tab.get 0 x.w (wn * 32768 + i)).toNat) (matBits wfmt) (k * 128 + c)
  let off := if sp then 4096 + c * 8 + li / 32 else c * 4 + li / 32
  matValue wfmt (Tab.get 0 x.ws (wn * 8192 + off)).toNat b

/-- The sum of a group of products (R138, R139): exact but for bits below 2^(emax − 40), with NV where infinities of both signs meet. -/
def groupSum (ps : List FVal) : FVal × Nat :=
  let nan := ps.any (· = .nan)
  let pi := ps.any (· = .inf false)
  let ni := ps.any (· = .inf true)
  let nv := if pi && ni then fNV else 0
  if nan || (pi && ni) then (.nan, nv)
  else if pi then (.inf false, 0)
  else if ni then (.inf true, 0)
  else
    let tops := ps.filterMap (fun p => match p with | .fin _ m e => if m = 0 then none else some (topExp m e) | _ => none)
    match tops with
    | [] => (.fin false 0 0, 0)
    | t :: ts =>
      let q := ts.foldl (fun a b => if a ≥ b then a else b) t - 40
      let s : Int := ps.foldl (fun a p => match p with
        | .fin n m e => let u : Int := ((unitsAt m e q).1 : Nat); if n then a - u else a + u
        | _ => a) 0
      (.fin (decide (s < 0)) s.natAbs q, 0)

/-- One group joins the running value in one rounding; overflow sets OF alone (R138, R139). -/
def groupStep (t : Nat) (ps : List (FVal × Nat)) : Nat × Nat :=
  let fl0 := ps.foldl (fun a p => a ||| p.2) 0
  let (g, fl1) := groupSum (ps.map (·.1))
  let (v, fl2) := (fp32.decode t).add g
  let (r, fl3) := fp32.round .rne v
  (r, fl0 ||| fl1 ||| fl2 ||| (fl3 &&& fOF))

/-- One output element (R138): four groups of 32 in stored order. `act` gives the activation of a logical row. -/
def mmaElement (x : Core) (wn wfmt : Nat) (sp : Bool) (act : Nat → FVal) (c t : Nat) : Nat × Nat :=
  (List.range 4).foldl (fun acc g =>
    let ps := (List.range 32).map (fun i =>
      let k := 32 * g + i
      let li := logicalRow x wn sp k c
      (act li).mul (weightAt x wn wfmt sp k c li))
    let (r, fl) := groupStep acc.1 ps
    (r, acc.2 ||| fl)) (t, 0)

def accKey (a r c : Nat) : Nat := a * 16384 + r * 128 + c

/-- One activation row into a row of the tile. -/
def mmaRow (x : Core) (f : XF) (wfmt r : Nat) (row scales : List Byte) : Core :=
  let act := fun li => matValue f.fmt (scales[li / 32]?.getD 0).toNat (packedAt (fun i => (row[i]?.getD 0).toNat) (matBits f.fmt) li)
  (List.range 128).foldl (fun y c =>
    let t := if f.z = 1 then 0 else (Tab.get 0 y.acc (accKey f.ad (f.row0 + r) c)).toNat
    let (v, fl) := mmaElement x f.wn wfmt (f.sp = 1) act c t
    { y with acc := Tab.set 0 y.acc (accKey f.ad (f.row0 + r) c) (BitVec.ofNat 32 v) }.flag fl) x

/-- Bytes of the span at an address for an operation that has started; a core retired since its issue stops the core (R90). -/
def matRead (s : State) (c : Nat) (sp : Nat × Nat) : State × Option (List Byte) :=
  match matLocal s c sp with
  | .trap k v => (stopCore s c k v, none)
  | .at t o => let (s, bs) := readTile s t o sp.2; (s, some bs)

/-- MMA (R71, R118): rows in order. -/
def doMma (s : State) (c : Nat) (op : MatOp) (f : XF) : State :=
  (List.range f.rows).foldl (fun s r =>
    let (s, row) := matRead s c ((op.base + op.stride * BitVec.ofNat 64 r).toNat, rowBytes f.fmt f.sp)
    let (s, sc) := if isMX f.fmt then matRead s c ((op.base2 + BitVec.ofNat 64 (scaleBytes f.sp * r)).toNat, scaleBytes f.sp) else (s, some [])
    match row, sc with
    | some row, some sc => setCore s c (mmaRow (s.core c) f op.wcode r row sc)
    | _, _ => s) s

/-- ACCMV: two rows of FP32 (R118). -/
def doAccmv (x : Core) (f : XF) : Core :=
  let row := fun r => (List.range 128).map (fun c => (Tab.get 0 x.acc (accKey f.ad r c)).toNat)
  x.setV f.vd (packLanes 32 (row f.row0 ++ row (f.row0 + 1)))

/-- Rounding of ACCST element `j` (R141). -/
def accRm (op : MatOp) (j : Nat) : Rm :=
  match op.frm with
  | 0 => .rne
  | 1 => .rtz
  | _ => .sr (srWord op.seed op.step (op.index + BitVec.ofNat 64 j))

/-- ACCST (R118, R141): 128 rows converted under FRM; an FP32 target is copied. -/
def doAccst (s : State) (c : Nat) (op : MatOp) (f : XF) : State :=
  (List.range 128).foldl (fun s r =>
    let x := s.core c
    let vals := (List.range 128).map (fun col =>
      let v := (Tab.get 0 x.acc (accKey f.ad r col)).toNat
      match f.fmt, fmtOf f.fmt with
      | 0, _ => (v, 0)
      | _, some g => g.round (accRm op (128 * r + col)) (fp32.decode v)
      | _, none => (v, 0))
    let bs := vals.flatMap (fun v => leBytes (stBytes f.fmt) v.1)
    match matLocal s c ((op.base + op.stride * BitVec.ofNat 64 r).toNat, bs.length) with
    | .trap k v => stopCore s c k v
    | .at t o =>
      let s := writeTile s t o bs (fun _ => true)
      setCore s c ((s.core c).flag (vals.foldl (fun a v => a ||| v.2) 0))) s

/-- ACCCLR: every element +0.0. -/
def doAccclr (x : Core) (f : XF) : Core := { x with acc := x.acc.filter (fun p => p.1 / 16384 ≠ f.ad) }

/-- Runs the head of the matrix queue. -/
def runMat (s : State) (c : Nat) (op : MatOp) : State :=
  let f := xF op.word
  match f.opc with
  | 1 =>
    let (s, bs) := matRead s c (op.base.toNat, ldwValues f.fmt + ldwSide f.fmt f.sp)
    (match bs with | some bs => setCore s c (doLdw (s.core c) f bs) | none => s)
  | 2 => doMma s c op f
  | 3 => setCore s c (doAccmv (s.core c) f)
  | 4 => doAccst s c op f
  | 5 => setCore s c (doAccclr (s.core c) f)
  | _ => s

/-- Whether a span of an operation lies in a core in RESET, for which it waits (R78). -/
def matHeld (s : State) (c : Nat) (op : MatOp) : Bool :=
  (matSpans (xF op.word) op.base op.stride op.base2).any (fun sp => match matLocal s c sp with
    | .at t _ => t ≠ c && (s.core t).st = .reset
    | .trap _ _ => false)

end Sys2Proof.Machine
end

