-- ==== Sys2Proof/Machine/TileMover.lean ====
section
/-!
DEFINITION. The tile movers (R81–R83, R90): descriptors, their checks at TMPUSH, their runs, completion and failure.
-/
namespace Sys2Proof.Machine

/-- A descriptor's fields (R81). Strides are signed. -/
structure DescF where
  op : Nat
  flags : Nat
  sem : Nat
  prefetch : Nat
  e0 : Nat
  g : Nat
  t : Nat
  e1 : Nat
  e2 : Nat
  e3 : Nat
  ts : Int × Int × Int
  gs : Int × Int × Int
  addend : Nat
  rsvd : Nat
  deriving DecidableEq, Repr

def descF (d : BitVec 512) : DescF :=
  let w := d.toNat
  let f := fun (off n : Nat) => fieldAt w (8 * off) (8 * n)
  { op := f 0 1, flags := f 1 1, sem := f 2 1, prefetch := f 3 1, e0 := f 4 4, g := f 8 8, t := f 0x10 4, e1 := f 0x14 2, e2 := f 0x16 2,
    e3 := f 0x18 2, ts := (toSigned 32 (f 0x1C 4), toSigned 32 (f 0x20 4), toSigned 32 (f 0x24 4)),
    gs := (toSigned 48 (f 0x28 6), toSigned 48 (f 0x2E 6), toSigned 48 (f 0x34 6)), addend := f 0x28 8, rsvd := f 0x1A 2 + f 0x3A 6 }

/-- Address of run `k` on a side (R81): run (i3·E2 + i2)·E1 + i1. -/
def runAddr (base : Nat) (st : Int × Int × Int) (e1 e2 k : Nat) : Int :=
  (base : Int) + (k % e1 : Nat) * st.1 + (k / e1 % e2 : Nat) * st.2.1 + (k / (e1 * e2) : Nat) * st.2.2

/-- Whether one run lies in the mapped part of local space, in a window of the slice, not retired (R81). -/
def runOk (s : State) (c : Nat) (a : Int) (n : Nat) : Bool :=
  0 ≤ a && a < 4294967296 && (match resolveLocal s c a.toNat n 1 with | .at _ _ => true | .trap _ _ => false)

/-- An extent that counts for the check: one, where its stride is zero. -/
def effExtent (e : Nat) (st : Int) : Nat := if st = 0 then 1 else e

/-- Every run of a side of local space is in order (R81). -/
def sideOk (s : State) (c base : Nat) (st : Int × Int × Int) (f : DescF) : Bool :=
  (List.range (effExtent f.e3 st.2.2)).all (fun i3 =>
    (List.range (effExtent f.e2 st.2.1)).all (fun i2 =>
      (List.range (effExtent f.e1 st.1)).all (fun i1 =>
        runOk s c ((base : Int) + i1 * st.1 + i2 * st.2.1 + i3 * st.2.2) f.e0)))

/-- The checks of a descriptor at its push (R81). -/
def descOk (s : State) (c : Nat) (d : BitVec 512) : Bool :=
  let f := descF d
  1 ≤ f.op && f.op ≤ 4 && f.flags < 4 && f.sem ≤ 15 && f.prefetch ≤ 15 && f.rsvd = 0 &&
  (if f.op = 4 then
    f.prefetch = 0 && f.e0 = 0 && f.g < 2 ^ 57 && f.g % 8 = 0 && f.t = 0 && f.e1 = 0 && f.e2 = 0 && f.e3 = 0 && f.ts = (0, 0, 0) &&
    fieldAt d.toNat (8 * 0x30) 128 = 0
  else
    1 ≤ f.e0 && f.e0 ≤ tileSize && f.e1 ≠ 0 && f.e2 ≠ 0 && f.e3 ≠ 0 && (if f.op = 3 then f.g < 2 ^ 32 else f.g < 2 ^ 57) &&
    sideOk s c f.t f.ts f && (f.op ≠ 3 || sideOk s c f.g f.gs f))

/-- Runs of a descriptor. -/
def DescF.total (f : DescF) : Nat := if f.op = 4 then 1 else f.e1 * f.e2 * f.e3

/-! ## Pushing -/

/-- Precise traps of a TMPUSH (R81): its address, then the descriptor. -/
def pushTrap (s : State) (c : Nat) (x : Core) (f : MF) : Option (Nat × Word) :=
  let a := (x.xr f.ra).toNat
  let lo := c % 24 * tileWindow
  if a < lo || a ≥ lo + tileSize then some (0x03, x.xr f.ra)
  else if a % 64 ≠ 0 then some (0x04, x.xr f.ra)
  else if (badWord s c (a - lo) 64).isSome then none
  else if descOk s c (BitVec.ofNat 512 (leNat (tileBytes s c (a - lo) 64))) then none
  else some (0x07, BitVec.ofNat 64 (a * 2 ^ 32 + f.sk % 4))

/-- TMPUSH: the descriptor is copied to its queue. A descriptor with an uncorrectable word stops the core and is not queued (R76). -/
def doPush (s : State) (c : Nat) (x : Core) (f : MF) : State :=
  let o := (x.xr f.ra).toNat - c % 24 * tileWindow
  let bad := (badWord s c o 64).isSome
  let (s, bs) := readTile s c o 64
  if bad then s
  else
    let y := s.core c
    let q := y.tqr (f.sk % 4)
    setCore s c (y.setTq (f.sk % 4) { q with q := q.q ++ [{ raw := BitVec.ofNat 512 (leNat bs) }] })

/-! ## Running -/

/-- Tag, and engine, of a tile-mover queue. -/
def tmTag (c q : Nat) : Nat := 0x10000 + c * 4 + q
def tmEng (s : State) (c q : Nat) (f : DescF) : Eng :=
  let sl := (sliceOfCore s c).getD 0x3F
  { tag := tmTag c q, slice := sl, port := c / 24, reg := sl, ini := (logicalOf s c).getD 999, noalloc := f.flags / 2 % 2 = 1 }

/-- One chunk of a run: moved, not now, or failed with a status. -/
inductive Moved where
  | ok (s : State)
  | hold (s : State)
  | fail (s : State) (status : Nat)
  deriving DecidableEq, Repr

/-- A side of local space during a run (R83): its core and offset, its retirement, or a wait for a core in RESET. -/
inductive Side where
  | at (core off : Nat)
  | retired
  | held
  deriving DecidableEq, Repr

def tmSide (s : State) (c addr : Nat) : Side :=
  let t := c / 24 * 24 + addr / tileWindow
  if (s.core t).st = .retired then .retired
  else if t ≠ c && (s.core t).st = .reset then .held
  else .at t (addr % tileWindow)

/-- The local address of a word of a core. -/
def wordAddr (t w : Nat) : Nat := t % 24 * tileWindow + w * 8

/-- Reads tile memory for a descriptor: an uncorrectable word stops its owner, with the word's address, and fails the descriptor (R76, R83). -/
def tmRead (s : State) (t o n : Nat) : State × Option (List Byte) :=
  match badWord s t o n with
  | none => (s, some (tileBytes s t o n))
  | some w => (tileError s t (wordAddr t w), none)

/-- Writes tile memory for a descriptor; a merge into an uncorrectable word fails it. -/
def tmWrite (s : State) (t o : Nat) (bs : List Byte) : Moved :=
  let bad := (s.core t).ue.find? (fun w => let k := wordCover o bs.length (fun _ => true) w; 0 < k && k < 8)
  match bad with
  | some w => .fail (tileError s t (wordAddr t w)) 3
  | none => .ok (writeTile s t o bs (fun _ => true))

/-- An engine's answer as the end of a chunk. -/
def movedBy (s : State) (r : Eres) (k : List Byte → Moved) : Moved :=
  match r with
  | .ok bs => k bs
  | .hold => .hold s
  | .fail st _ => .fail s (tmStatus st)

/-- One chunk of `n` bytes at position `pos` of run `k` (R81). Global addresses wrap at 64 bits and are checked by translation (R179). -/
def tmChunk (s : State) (c q : Nat) (f : DescF) (k pos n : Nat) : Moved :=
  let ta := (runAddr f.t f.ts f.e1 f.e2 k).toNat + pos
  let gi := runAddr f.g f.gs f.e1 f.e2 k + pos
  let ga := wrapInt 64 gi
  let e := tmEng s c q f
  match tmSide s c ta with
  | .retired => .fail s 6
  | .held => .hold s
  | .at t o =>
    match f.op with
    | 1 => let (s, r) := e.read s ga n; movedBy s r (fun bs => tmWrite s t o bs)
    | 2 =>
      match tmRead s t o n with
      | (s, none) => .fail s 3
      | (s, some bs) => let (s, r) := e.write s ga bs; movedBy s r (fun _ => .ok s)
    | _ =>
      match tmSide s c gi.toNat with
      | .retired => .fail s 6
      | .held => .hold s
      | .at u so =>
        match tmRead s u so n with
        | (s, none) => .fail s 3
        | (s, some bs) => tmWrite s t o bs

def tmHead (s : State) (c q : Nat) : Option TmDesc := ((s.core c).tqr q).q.head?
def setHead (s : State) (c q : Nat) (d : TmDesc) : State :=
  let x := s.core c
  setCore s c (x.setTq q { x.tqr q with q := d :: (x.tqr q).q.tail })

/-- A descriptor fails at a byte position: the run is the one that holds it (R83). -/
def failDesc (s : State) (c q : Nat) (d : TmDesc) (e0 status : Nat) : State :=
  let b := d.bytes - d.last
  setHead s c q { d with bytes := b, runs := b / e0, pos := b % e0, last := 0, fail := some (status, b / e0) }

/-- Moves chunks until `upto` runs are done, or one waits or fails. A write of a descriptor must be complete before its next one is
issued, so that a failure names its run. -/
def tmRun (c q upto : Nat) (f : DescF) : Nat → State → State
  | 0, s => s
  | fuel + 1, s =>
    match tmHead s c q with
    | none => s
    | some d =>
      let tag := tmTag c q
      if d.fail.isSome then s
      else if d.last > 0 && tagBusy s tag then s
      else match (if d.last > 0 then tagFailure s tag else none) with
        | some st => failDesc (endWork s tag) c q d f.e0 (tmStatus st)
        | none =>
          let d := { d with last := 0 }
          if d.runs ≥ min upto f.total then setHead s c q d
          else
            let ta := (runAddr f.t f.ts f.e1 f.e2 d.runs).toNat + d.pos
            let ga := wrapInt 64 (runAddr f.g f.gs f.e1 f.e2 d.runs + d.pos)
            let room := f.e0 - d.pos
            let n := if f.op = 3 then min room (128 - ta % 128) else min room (128 - ga % 128)
            match tmChunk s c q f d.runs d.pos n with
            | .hold s => setHead s c q d
            | .fail s st => failDesc s c q d f.e0 st
            | .ok s =>
              let b := d.bytes + n
              tmRun c q upto f fuel (setHead s c q { d with bytes := b, runs := b / f.e0, pos := b % f.e0, last := if f.op = 2 then n else 0 })

/-- Runs the head descriptor of a queue up to a run, if it is of the operation named; it has started then (R82). -/
def tmOp (s : State) (c q op upto : Nat) : State :=
  match tmHead s c q with
  | none => s
  | some d =>
    let f := descF d.raw
    if f.op ≠ op || (s.core c).st = .reset || ((s.core c).tqr q).stopped || !siteUp s (c / 24) then s
    else
      let todo := min upto f.total - d.runs
      tmRun c q upto f (todo * (f.e0 / 128 + 2) + 2) (setHead s c q { d with started := true })

/-- SIGNAL: one atomic addition at the line's home (R81). -/
def tmSignalOp (s : State) (c q : Nat) : State :=
  match tmHead s c q with
  | none => s
  | some d =>
    let f := descF d.raw
    if f.op ≠ 4 || d.runs ≥ 1 || d.fail.isSome || (s.core c).st = .reset || ((s.core c).tqr q).stopped || !siteUp s (c / 24) then s
    else
      let d := { d with started := true }
      let (s, r) := (tmEng s c q f).atomic s f.g 0x10 f.addend
      match r with
      | .ok _ => setHead s c q { d with runs := 1, bytes := 8 }
      | .hold => setHead s c q d
      | .fail st _ => setHead s c q { d with fail := some (tmStatus st, 0) }


/-- The head descriptor is complete (R82): every run done, every write complete at FABRIC scope (R234), no response padded. The queue
counts it and posts. -/
def completeDesc (s : State) (c q : Nat) : State :=
  match tmHead s c q with
  | none => s
  | some d =>
    let f := descF d.raw
    if d.fail.isSome || d.runs < f.total || !d.started || padded s (tmTag c q) then s
    else
      let (s, fin) := if f.op = 2 || f.op = 4 then finishWrites s (tmTag c q) ((sliceOfCore s c).getD 0x3F) else (s, .done)
      match fin with
      | .wait => s
      | .fail st => if f.op = 4 then setHead (endWork s (tmTag c q)) c q { d with fail := some (tmStatus st, 0), bytes := 0, runs := 0 }
                    else failDesc (endWork s (tmTag c q)) c q d f.e0 (tmStatus st)
      | .done =>
        let s := endWork s (tmTag c q)
        let x := s.core c
        let t := x.tqr q
        let x := x.setTq q { t with q := t.q.tail, done := (t.done + 1) % 2 ^ 32 }
        setCore s c (if f.flags % 2 = 1 then x.postSem f.sem 1 else x)

/-- The head descriptor has failed (R83): the queue stops and records it, and the core stops with TM_ERROR unless an uncorrectable word of
its own stopped it. -/
def recordDescFail (s : State) (c q : Nat) : State :=
  match tmHead s c q with
  | none => s
  | some d =>
    match d.fail with
    | none => s
    | some (st, run) =>
      let s := endWork s (tmTag c q)
      let x := s.core c
      let t := x.tqr q
      let t := { t with
        q := t.q.tail
        stopped := true
        err := BitVec.ofNat 64 (fld st 63 56 + fld d.bytes 55 32 + fld run 31 0)
        bdone := BitVec.ofNat 64 d.bytes
        frun := BitVec.ofNat 64 run }
      stopCore (setCore s c (x.setTq q t)) c 0x10 (BitVec.ofNat 64 q)

end Sys2Proof.Machine
end

