-- ==== Sys2Proof/Machine/Issue.lean ====
section
/-!
DEFINITION. Issue of a bundle (R66, R67, R89, R120): the checks, the traps, the interlocks, and the effects of its six slots together.
A command that names one operation issues the whole bundle that holds it.
-/
namespace Sys2Proof.Machine

/-- The bundle at a core's PC. -/
def bundleAt (x : Core) : Nat := leNat ((List.range 64).map (fun i => Tab.get 0 x.imem (x.pc.toNat + i)))

/-- A precise trap (R89, R90): queued matrix operations and descriptors not started are discarded. -/
def Core.trap (x : Core) (cause : Nat) (val : Word) : Core :=
  { x with st := .halted, hold := .none, trapAsync := false, trapCause := cause, trapPc := x.pc, trapVal := val, trapValid := true,
           matq := [], tq := x.tq.map (fun p => (p.1, { p.2 with q := p.2.q.filter (·.started) })), pastEnd := false }

/-- Operations of a bundle, by unit, where its slots hold them. -/
def opSc (b k : Nat) : Option ScF := if slotValid b k then some (scF (slotOf b k)) else none
def opM (b : Nat) : Option MF := if slotValid b 2 then some (mF (slotOf b 2)) else none
def opX (b : Nat) : Option XF := if slotValid b 5 then some (xF (slotOf b 5)) else none

/-- Whether a slot breaks a rule of R120 that depends on the core's state: conditions 5, 6 and 9. -/
def dynBad (x : Core) (b idx k : Nat) : Bool :=
  match k with
  | 0 => (match opSc b 0 with
    | some f => scalarDynBad x f idx || (f.opc = 0x31 && f.imm = 5 && 0 < slotIndexes x b 3 + slotIndexes x b 4 + slotIndexes x b 5)
    | none => false)
  | 5 => (match opX b with | some f => matDynBad x f | none => false)
  | _ => false

/-- TRAP_VAL of an illegal bundle (R95), none for a legal one. -/
def illegalSlot (x : Core) (b idx : Nat) : Option Nat :=
  if !headerOk b then some 6 else (List.range 6).find? (fun k => slotBad b idx k || slotClash b k || dynBad x b idx k)

/-- The precise trap of slot M. -/
def memTrap (s : State) (c : Nat) (x : Core) (f : MF) : Option (Nat × Word) :=
  let of := fun l => match l with | Local.trap k v => some (k, v) | .at _ _ => none
  if isAcc f.opc then of (accLocal s c x f)
  else if f.opc = 0x21 then of (postLocal s c x f)
  else if f.opc = 0x28 then pushTrap s c x f
  else none

/-- The precise trap of a bundle, its lowest slot first (DEDUCED, log 31). -/
def bundleTrap (s : State) (c : Nat) (x : Core) (b idx : Nat) : Option (Nat × Word) :=
  match illegalSlot x b idx with
  | some k => some (0x01, BitVec.ofNat 64 k)
  | none =>
    ((opSc b 0).bind (scalarTrap x)).orElse (fun _ =>
    ((opM b).bind (memTrap s c x)).orElse (fun _ =>
    (opX b).bind (matTrap s c x)))

/-- A SEMWAIT or TMDRAIN that cannot pass (R80, R86). -/
def waitsFor (x : Core) (b : Nat) : Hold :=
  match opM b with
  | none => .none
  | some f =>
    if f.opc = 0x20 && x.sems f.sk < (x.xr f.rb).toNat % 2 ^ 32 then .sem
    else if f.opc = 0x29 && !(x.tqr f.sk).q.isEmpty then .drain
    else .none

/-- Whether a bundle waits at issue (R67, R72, R78): for a free entry of a queue, for a queued ACCMV of a V register it names, or for
the core it reads to leave RESET. -/
def stalled (s : State) (c : Nat) (x : Core) (b : Nat) : Bool :=
  let mvs := x.matq.filterMap (fun op => let f := xF op.word; if f.opc = 3 then some f.vd else none)
  (match opM b with
    | none => false
    | some f =>
      (f.opc = 0x28 && (x.tqr f.sk).q.length ≥ 16) ||
      (isAcc f.opc && !isStore f.opc && (match accLocal s c x f with | .at t _ => t ≠ c && (s.core t).st = .reset | .trap _ _ => false))) ||
  (match opX b with | some f => f.opc ≠ 6 && x.matq.length ≥ 4 | none => false) ||
  (List.range 6).any (fun k => (slotVregs b k).any (fun v => mvs.contains v))

/-- Whether a core's stores and SEMPOSTs to siblings have reached them (R234): none is held for a sibling in RESET. -/
def storesLanded (s : State) (c : Nat) : Bool := !s.cores.any (fun p => p.2.heldAcc.any (fun a => a.src = c))

/-! ## Effects of an issued bundle -/

/-- S0 and S1 on the registers of the core (R66): results from the old registers, CSRW among them. -/
def scalarEffects (s : State) (c : Nat) (old : Core) (b : Nat) : Core :=
  [0, 1].foldl (fun x k => match opSc b k with
    | none => x
    | some f =>
      let x := if f.opc = 0x31 then writeCsr x f.imm (old.xr f.rs1) else x
      (match scalarValue s c old f with | some v => x.setX f.rd v | none => x)) old

/-- The error found in the word that an access of slot M reaches (R76): one corrected is counted, one that is not makes the word uncorrectable. -/
def findTileErr (s : State) (t o : Nat) (err : TileErr) : State :=
  let x := s.core t
  match err with
  | .none => s
  | .corrected => setCore s t { x with ce := x.ce + 1 }
  | .uncorrectable => setCore s t { x with ue := o / 8 :: x.ue.filter (· ≠ o / 8) }

/-- Slot M on the module; `err` is the error the accessed word is found with (R76). -/
def memEffects (s : State) (c : Nat) (old : Core) (err : TileErr) (f : MF) : State :=
  if isAcc f.opc then
    match accLocal s c old f with
    | .trap _ _ => s
    | .at t o =>
      let held := isStore f.opc && t ≠ c && (s.core t).st = .reset
      let s := if held then s else findTileErr s t o err
      if isAmo f.opc then doAmo s c t o old f
      else if f.opc = 0x11 then doVst s c t o old f
      else if isStore f.opc then doStore s c t o old f
      else if f.opc = 0x10 then doVld s c t o old f
      else if f.opc = 0x12 then doVldbc s c t o old f
      else doLoad s c t o f
  else if f.opc = 0x20 then setCore s c ((s.core c).setSem f.sk (old.sems f.sk - (old.xr f.rb).toNat % 2 ^ 32))
  else if f.opc = 0x21 then
    (match postLocal s c old f with
      | .at t _ => postTo s c t f.sk ((old.xr f.rb).toNat % 2 ^ 32)
      | .trap _ _ => s)
  else if f.opc = 0x22 then setCore s c ((s.core c).setSem f.sk ((old.xr f.rb).toNat % 2 ^ 32))
  else if f.opc = 0x28 then doPush s c old f
  else s

/-- V0, V1 and X, with their stochastic indexes in slot order (R110). -/
def arrayEffects (x old : Core) (b : Nat) : Core :=
  let n3 := slotIndexes old b 3
  let n4 := slotIndexes old b 4
  let n5 := slotIndexes old b 5
  let v := fun (x : Core) (k n : Nat) =>
    if slotValid b k then let f := vF (slotOf b k); x.applyV f (vExec old f (old.srIndex + BitVec.ofNat 64 n)) else x
  let x := v (v x 3 0) 4 n3
  let x := if slotValid b 5 then matIssue x old (slotOf b 5) (old.srIndex + BitVec.ofNat 64 (n3 + n4)) else x
  { x with srIndex := x.srIndex + BitVec.ofNat 64 (n3 + n4 + n5) }

/-- What holds the bundles behind this one: a FENCE, and behind it a HALT or an XDRAIN. -/
def holdAfter (b : Nat) : Hold :=
  let halt := (opSc b 0).any (fun f => f.opc = 0x4E)
  let drain := (opX b).any (fun f => f.opc = 6)
  match (opM b).filter (fun f => f.opc = 0x30) with
  | some f => .fence f.sk drain halt
  | none => if halt then .halt else if drain then .xdrain else .none

/-- Whether a hold ends in a HALT. -/
def Hold.halts : Hold → Bool
  | .halt => true
  | .fence _ _ h => h
  | _ => false

/-- A fetch past bundle 4,095 (R90). -/
def Core.fetchPastEnd (x : Core) : Core := if x.pastEnd then { x with pc := 0x3FFC0 }.trap 0x02 0x40000 else x

/-- All effects of a bundle that issues. -/
def issueEffects (s : State) (c b : Nat) (err : TileErr) : State :=
  let old := s.core c
  let idx := old.pc.toNat / 64
  let (x, next) := flow (scalarEffects s c old b) old (opSc b 0) idx
  let past := decide (next ≥ 4096)
  let s := setCore s c { x with st := .running, pc := if past then old.pc else BitVec.ofNat 18 (next * 64), pastEnd := past }
  let s := match opM b with | some f => memEffects s c old err f | none => s
  let x := arrayEffects (s.core c) old b
  let h := holdAfter b
  let x := if x.st ≠ .running then { x with matq := [] }
           else if h ≠ .none then { x with hold := h, fenceRel := none, pastEnd := x.pastEnd && !h.halts }
           else x.fetchPastEnd
  setCore s c x

/-- One attempt to issue the bundle at a core's PC: a trap, a wait, a stall, or its effects (DEDUCED, log 104). -/
def issue (s : State) (c b : Nat) (err : TileErr) : State :=
  let x := s.core c
  let idx := x.pc.toNat / 64
  match bundleTrap s c x b idx with
  | some (cause, val) => setCore s c (x.trap cause val)
  | none =>
    let w := waitsFor x b
    if w ≠ .none then setCore s c { x with st := .waiting, hold := w }
    else if stalled s c x b then s
    else issueEffects s c b err

/-- Whether a core issues: running, not held, its site up, CLK_CORE running. -/
def issuing (s : State) (c : Nat) : Bool :=
  let x := s.core c
  x.st = .running && x.hold = .none && siteUp s (c / 24) && s.clk.rootLock

/-- The command of one operation: the bundle at the PC of the logical core issues if its slot `k` holds the word `w`; otherwise nothing
happens (log 1) (DESIGN CHOICE, log 105). -/
def issueOp (s : State) (n k w : Nat) (err : TileErr) : State :=
  match coreOf s n with
  | none => s
  | some c =>
    let b := bundleAt (s.core c)
    if issuing s c && headerOk b && slotValid b k && slotOf b k = w then issue s c b err else s

/-- EMPTY_BUNDLE (R94): the bundle at the PC has no valid slot, or is illegal, which no other command names. -/
def execEmptyBundle (core : Fin 144) (s : State) : Host.Outcome State Fault Refusal :=
  .next (match coreOf s core with
    | none => s
    | some c =>
      let x := s.core c
      let b := bundleAt x
      if issuing s c && ((headerOk b && b % 64 = 0) || (illegalSlot x b (x.pc.toNat / 64)).isSome) then issue s c b .none else s)

end Sys2Proof.Machine
end

