-- ==== Sys2Proof/Machine/ScalarOps.lean ====
section
/-!
DEFINITION. The commands of the scalar arithmetic slots (R98–R100) and of the control registers (R65).
-/
namespace Sys2Proof.Machine

/-- A scalar operation of slot S0 or S1 issues with its bundle (R98). -/
def issueSc (core : Fin 144) (slot opc : Nat) (rd rs1 rs2 : BitVec 5) (lc imm : Nat) (s : State) : State :=
  issueOp s core slot (scWord opc rd rs1 rs2 lc imm) .none

/-- ADD (R99): xs1 + xs2 into RD. -/
def execAdd (core : Fin 144) (slot : Fin 2) (rd rs1 rs2 : BitVec 5) (s : State) : Host.Outcome State Fault Refusal :=
  .next (issueSc core slot 0x01 rd rs1 rs2 0 0 s)

/-- SUB (R99): xs1 − xs2 into RD. -/
def execSub (core : Fin 144) (slot : Fin 2) (rd rs1 rs2 : BitVec 5) (s : State) : Host.Outcome State Fault Refusal :=
  .next (issueSc core slot 0x02 rd rs1 rs2 0 0 s)

/-- AND (R99): bitwise AND into RD. -/
def execAnd (core : Fin 144) (slot : Fin 2) (rd rs1 rs2 : BitVec 5) (s : State) : Host.Outcome State Fault Refusal :=
  .next (issueSc core slot 0x03 rd rs1 rs2 0 0 s)

/-- OR (R99): bitwise OR into RD. -/
def execOr (core : Fin 144) (slot : Fin 2) (rd rs1 rs2 : BitVec 5) (s : State) : Host.Outcome State Fault Refusal :=
  .next (issueSc core slot 0x04 rd rs1 rs2 0 0 s)

/-- XOR (R99): bitwise XOR into RD. -/
def execXor (core : Fin 144) (slot : Fin 2) (rd rs1 rs2 : BitVec 5) (s : State) : Host.Outcome State Fault Refusal :=
  .next (issueSc core slot 0x05 rd rs1 rs2 0 0 s)

/-- SLL (R99): left shift by xs2 mod 64 into RD. -/
def execSll (core : Fin 144) (slot : Fin 2) (rd rs1 rs2 : BitVec 5) (s : State) : Host.Outcome State Fault Refusal :=
  .next (issueSc core slot 0x06 rd rs1 rs2 0 0 s)

/-- SRL (R99): logical right shift into RD. -/
def execSrl (core : Fin 144) (slot : Fin 2) (rd rs1 rs2 : BitVec 5) (s : State) : Host.Outcome State Fault Refusal :=
  .next (issueSc core slot 0x07 rd rs1 rs2 0 0 s)

/-- SRA (R99): arithmetic right shift into RD. -/
def execSra (core : Fin 144) (slot : Fin 2) (rd rs1 rs2 : BitVec 5) (s : State) : Host.Outcome State Fault Refusal :=
  .next (issueSc core slot 0x08 rd rs1 rs2 0 0 s)

/-- SLT (R99): signed compare into RD. -/
def execSlt (core : Fin 144) (slot : Fin 2) (rd rs1 rs2 : BitVec 5) (s : State) : Host.Outcome State Fault Refusal :=
  .next (issueSc core slot 0x09 rd rs1 rs2 0 0 s)

/-- SLTU (R99): unsigned compare into RD. -/
def execSltu (core : Fin 144) (slot : Fin 2) (rd rs1 rs2 : BitVec 5) (s : State) : Host.Outcome State Fault Refusal :=
  .next (issueSc core slot 0x0A rd rs1 rs2 0 0 s)

/-- SEQ (R99): equality into RD. -/
def execSeq (core : Fin 144) (slot : Fin 2) (rd rs1 rs2 : BitVec 5) (s : State) : Host.Outcome State Fault Refusal :=
  .next (issueSc core slot 0x0B rd rs1 rs2 0 0 s)

/-- MIN (R99): signed minimum into RD. -/
def execMin (core : Fin 144) (slot : Fin 2) (rd rs1 rs2 : BitVec 5) (s : State) : Host.Outcome State Fault Refusal :=
  .next (issueSc core slot 0x0C rd rs1 rs2 0 0 s)

/-- MAX (R99): signed maximum into RD. -/
def execMax (core : Fin 144) (slot : Fin 2) (rd rs1 rs2 : BitVec 5) (s : State) : Host.Outcome State Fault Refusal :=
  .next (issueSc core slot 0x0D rd rs1 rs2 0 0 s)

/-- MINU (R99): unsigned minimum into RD. -/
def execMinu (core : Fin 144) (slot : Fin 2) (rd rs1 rs2 : BitVec 5) (s : State) : Host.Outcome State Fault Refusal :=
  .next (issueSc core slot 0x0E rd rs1 rs2 0 0 s)

/-- MAXU (R99): unsigned maximum into RD. -/
def execMaxu (core : Fin 144) (slot : Fin 2) (rd rs1 rs2 : BitVec 5) (s : State) : Host.Outcome State Fault Refusal :=
  .next (issueSc core slot 0x0F rd rs1 rs2 0 0 s)

/-- MUL (R99): low half of the product into RD. -/
def execMul (core : Fin 144) (slot : Fin 2) (rd rs1 rs2 : BitVec 5) (s : State) : Host.Outcome State Fault Refusal :=
  .next (issueSc core slot 0x20 rd rs1 rs2 0 0 s)

/-- MULH (R99): high half, signed into RD. -/
def execMulh (core : Fin 144) (slot : Fin 2) (rd rs1 rs2 : BitVec 5) (s : State) : Host.Outcome State Fault Refusal :=
  .next (issueSc core slot 0x21 rd rs1 rs2 0 0 s)

/-- MULHU (R99): high half, unsigned into RD. -/
def execMulhu (core : Fin 144) (slot : Fin 2) (rd rs1 rs2 : BitVec 5) (s : State) : Host.Outcome State Fault Refusal :=
  .next (issueSc core slot 0x22 rd rs1 rs2 0 0 s)

/-- ADDI (R99): xs1 plus the immediate. -/
def execAddi (core : Fin 144) (slot : Fin 2) (rd rs1 : BitVec 5) (imm : BitVec 32) (s : State) : Host.Outcome State Fault Refusal :=
  .next (issueSc core slot 0x11 rd rs1 0 0 imm.toNat s)

/-- ANDI (R99): AND with the immediate. -/
def execAndi (core : Fin 144) (slot : Fin 2) (rd rs1 : BitVec 5) (imm : BitVec 32) (s : State) : Host.Outcome State Fault Refusal :=
  .next (issueSc core slot 0x13 rd rs1 0 0 imm.toNat s)

/-- ORI (R99): OR. -/
def execOri (core : Fin 144) (slot : Fin 2) (rd rs1 : BitVec 5) (imm : BitVec 32) (s : State) : Host.Outcome State Fault Refusal :=
  .next (issueSc core slot 0x14 rd rs1 0 0 imm.toNat s)

/-- XORI (R99): XOR. -/
def execXori (core : Fin 144) (slot : Fin 2) (rd rs1 : BitVec 5) (imm : BitVec 32) (s : State) : Host.Outcome State Fault Refusal :=
  .next (issueSc core slot 0x15 rd rs1 0 0 imm.toNat s)

/-- SLLI (R99): left shift by the immediate. -/
def execSlli (core : Fin 144) (slot : Fin 2) (rd rs1 : BitVec 5) (imm : BitVec 32) (s : State) : Host.Outcome State Fault Refusal :=
  .next (issueSc core slot 0x16 rd rs1 0 0 imm.toNat s)

/-- SRLI (R99): logical right shift. -/
def execSrli (core : Fin 144) (slot : Fin 2) (rd rs1 : BitVec 5) (imm : BitVec 32) (s : State) : Host.Outcome State Fault Refusal :=
  .next (issueSc core slot 0x17 rd rs1 0 0 imm.toNat s)

/-- SRAI (R99): arithmetic right shift. -/
def execSrai (core : Fin 144) (slot : Fin 2) (rd rs1 : BitVec 5) (imm : BitVec 32) (s : State) : Host.Outcome State Fault Refusal :=
  .next (issueSc core slot 0x18 rd rs1 0 0 imm.toNat s)

/-- SLTI (R99): signed compare. -/
def execSlti (core : Fin 144) (slot : Fin 2) (rd rs1 : BitVec 5) (imm : BitVec 32) (s : State) : Host.Outcome State Fault Refusal :=
  .next (issueSc core slot 0x19 rd rs1 0 0 imm.toNat s)

/-- SLTIU (R99): unsigned compare. -/
def execSltiu (core : Fin 144) (slot : Fin 2) (rd rs1 : BitVec 5) (imm : BitVec 32) (s : State) : Host.Outcome State Fault Refusal :=
  .next (issueSc core slot 0x1A rd rs1 0 0 imm.toNat s)

/-- SEQI (R99): equality. -/
def execSeqi (core : Fin 144) (slot : Fin 2) (rd rs1 : BitVec 5) (imm : BitVec 32) (s : State) : Host.Outcome State Fault Refusal :=
  .next (issueSc core slot 0x1B rd rs1 0 0 imm.toNat s)

/-- MOVH (R99): immediate over the low half of xs1. -/
def execMovh (core : Fin 144) (slot : Fin 2) (rd rs1 : BitVec 5) (imm : BitVec 32) (s : State) : Host.Outcome State Fault Refusal :=
  .next (issueSc core slot 0x1D rd rs1 0 0 imm.toNat s)

/-- MOVI (R99): the immediate, sign-extended. -/
def execMovi (core : Fin 144) (slot : Fin 2) (rd : BitVec 5) (imm : BitVec 32) (s : State) : Host.Outcome State Fault Refusal :=
  .next (issueSc core slot 0x1C rd 0 0 0 imm.toNat s)

/-- DIV (R100): signed quotient, slot S1 only. -/
def execDiv (core : Fin 144) (rd rs1 rs2 : BitVec 5) (s : State) : Host.Outcome State Fault Refusal :=
  .next (issueSc core 1 0x28 rd rs1 rs2 0 0 s)

/-- DIVU (R100): unsigned quotient, slot S1 only. -/
def execDivu (core : Fin 144) (rd rs1 rs2 : BitVec 5) (s : State) : Host.Outcome State Fault Refusal :=
  .next (issueSc core 1 0x29 rd rs1 rs2 0 0 s)

/-- REM (R100): signed remainder, slot S1 only. -/
def execRem (core : Fin 144) (rd rs1 rs2 : BitVec 5) (s : State) : Host.Outcome State Fault Refusal :=
  .next (issueSc core 1 0x2A rd rs1 rs2 0 0 s)

/-- REMU (R100): unsigned remainder, slot S1 only. -/
def execRemu (core : Fin 144) (rd rs1 rs2 : BitVec 5) (s : State) : Host.Outcome State Fault Refusal :=
  .next (issueSc core 1 0x2B rd rs1 rs2 0 0 s)

/-- CSRR (R65): a control register into RD. -/
def execCsrr (core : Fin 144) (rd : BitVec 5) (csr : BitVec 12) (s : State) : Host.Outcome State Fault Refusal :=
  .next (issueSc core 0 0x30 rd 0 0 0 csr.toNat s)

/-- CSRW (R65): xs1 into a control register. -/
def execCsrw (core : Fin 144) (csr : BitVec 12) (rs1 : BitVec 5) (s : State) : Host.Outcome State Fault Refusal :=
  .next (issueSc core 0 0x31 0 rs1 0 0 csr.toNat s)


end Sys2Proof.Machine
end

