-- ==== Sys2Proof/Machine/ControlOps.lean ====
section
/-!
DEFINITION. The commands of branches, loops and halts (R69, R70, R86, R101, R102).
-/
namespace Sys2Proof.Machine

/-- BEQ (R101): branch if equal. -/
def execBeq (core : Fin 144) (rs1 rs2 : BitVec 5) (target : BitVec 16) (s : State) : Host.Outcome State Fault Refusal :=
  .next (issueSc core 0 0x40 0 rs1 rs2 0 target.toNat s)

/-- BNE (R101): branch if not equal. -/
def execBne (core : Fin 144) (rs1 rs2 : BitVec 5) (target : BitVec 16) (s : State) : Host.Outcome State Fault Refusal :=
  .next (issueSc core 0 0x41 0 rs1 rs2 0 target.toNat s)

/-- BLT (R101): branch if less, signed. -/
def execBlt (core : Fin 144) (rs1 rs2 : BitVec 5) (target : BitVec 16) (s : State) : Host.Outcome State Fault Refusal :=
  .next (issueSc core 0 0x42 0 rs1 rs2 0 target.toNat s)

/-- BGE (R101): branch if not less, signed. -/
def execBge (core : Fin 144) (rs1 rs2 : BitVec 5) (target : BitVec 16) (s : State) : Host.Outcome State Fault Refusal :=
  .next (issueSc core 0 0x43 0 rs1 rs2 0 target.toNat s)

/-- BLTU (R101): branch if less, unsigned. -/
def execBltu (core : Fin 144) (rs1 rs2 : BitVec 5) (target : BitVec 16) (s : State) : Host.Outcome State Fault Refusal :=
  .next (issueSc core 0 0x44 0 rs1 rs2 0 target.toNat s)

/-- BGEU (R101): branch if not less, unsigned. -/
def execBgeu (core : Fin 144) (rs1 rs2 : BitVec 5) (target : BitVec 16) (s : State) : Host.Outcome State Fault Refusal :=
  .next (issueSc core 0 0x45 0 rs1 rs2 0 target.toNat s)

/-- J (R101): branch. -/
def execJ (core : Fin 144) (target : BitVec 16) (s : State) : Host.Outcome State Fault Refusal :=
  .next (issueSc core 0 0x48 0 0 0 0 target.toNat s)

/-- JAL (R101): branch, the address of the next bundle into RD. -/
def execJal (core : Fin 144) (rd : BitVec 5) (target : BitVec 16) (s : State) : Host.Outcome State Fault Refusal :=
  .next (issueSc core 0 0x49 rd 0 0 0 target.toNat s)

/-- JR (R101): branch to xs1 with bits 5:0 cleared. -/
def execJr (core : Fin 144) (rs1 : BitVec 5) (s : State) : Host.Outcome State Fault Refusal :=
  .next (issueSc core 0 0x4A 0 rs1 0 0 0 s)

/-- LOOP (R70): a hardware loop to the bundle at the target (DEDUCED, log 102). -/
def execLoop (core : Fin 144) (lc : Fin 2) (rs1 : BitVec 5) (target : BitVec 16) (s : State) : Host.Outcome State Fault Refusal :=
  .next (issueSc core 0 0x4C 0 rs1 0 lc target.toNat s)

/-- BRK (R90): traps with BREAK. -/
def execBrk (core : Fin 144) (imm : BitVec 32) (s : State) : Host.Outcome State Fault Refusal :=
  .next (issueSc core 0 0x4D 0 0 0 0 imm.toNat s)

/-- HALT (R86): stops issue until the queues are empty. -/
def execHalt (core : Fin 144) (s : State) : Host.Outcome State Fault Refusal :=
  .next (issueSc core 0 0x4E 0 0 0 0 0 s)

/-- HALT_COMPLETE (R86): the tile-mover queues are empty and every operation done; the core is HALTED with TRAP_CAUSE zero. -/
def execHaltComplete (core : Fin 144) (s : State) : Host.Outcome State Fault Refusal :=
  .next (match coreOf s core with
    | none => s
    | some c =>
      let x := s.core c
      if x.st = .running && x.hold = .halt && x.matq.isEmpty && storesLanded s c && (List.range 4).all (fun q => (x.tqr q).q.isEmpty) then
        setCore s c { x with st := .halted, hold := .none, trapCause := 0, trapAsync := false, trapValid := false }
      else s)

end Sys2Proof.Machine
end

