-- ==== Sys2Proof/Machine/MemoryOps.lean ====
section
/-!
DEFINITION. The commands of slot M (R103–R107), semaphores (R80), and fences (R236).
-/
namespace Sys2Proof.Machine

/-- An operation of slot M issues with its bundle (R103). -/
def issueMem (core : Fin 144) (f : MF) (err : TileErr) (s : State) : State := issueOp s core 2 (mWord f) err

/-- LD8 (R105): a load of 8 bits, sign-extended. -/
def execLd8 (core : Fin 144) (xt xa : BitVec 5) (imm : BitVec 32) (s : State) : Host.Outcome State Fault Refusal :=
  .next (issueMem core { opc := 0x01, t := xt.toNat, ra := xa.toNat, rb := 0, rc := 0, ps := 0, sk := 0, sz := 0, u := 0, rsvd := 0, imm := imm.toNat } .none s)

/-- LD8U (R105): a load of 8 bits, zero-extended. -/
def execLd8u (core : Fin 144) (xt xa : BitVec 5) (imm : BitVec 32) (s : State) : Host.Outcome State Fault Refusal :=
  .next (issueMem core { opc := 0x02, t := xt.toNat, ra := xa.toNat, rb := 0, rc := 0, ps := 0, sk := 0, sz := 0, u := 0, rsvd := 0, imm := imm.toNat } .none s)

/-- LD16 (R105): a load of 16 bits, sign-extended. -/
def execLd16 (core : Fin 144) (xt xa : BitVec 5) (imm : BitVec 32) (s : State) : Host.Outcome State Fault Refusal :=
  .next (issueMem core { opc := 0x03, t := xt.toNat, ra := xa.toNat, rb := 0, rc := 0, ps := 0, sk := 0, sz := 0, u := 0, rsvd := 0, imm := imm.toNat } .none s)

/-- LD16U (R105): a load of 16 bits, zero-extended. -/
def execLd16u (core : Fin 144) (xt xa : BitVec 5) (imm : BitVec 32) (s : State) : Host.Outcome State Fault Refusal :=
  .next (issueMem core { opc := 0x04, t := xt.toNat, ra := xa.toNat, rb := 0, rc := 0, ps := 0, sk := 0, sz := 0, u := 0, rsvd := 0, imm := imm.toNat } .none s)

/-- LD32 (R105): a load of 32 bits, sign-extended. -/
def execLd32 (core : Fin 144) (xt xa : BitVec 5) (imm : BitVec 32) (s : State) : Host.Outcome State Fault Refusal :=
  .next (issueMem core { opc := 0x05, t := xt.toNat, ra := xa.toNat, rb := 0, rc := 0, ps := 0, sk := 0, sz := 0, u := 0, rsvd := 0, imm := imm.toNat } .none s)

/-- LD32U (R105): a load of 32 bits, zero-extended. -/
def execLd32u (core : Fin 144) (xt xa : BitVec 5) (imm : BitVec 32) (s : State) : Host.Outcome State Fault Refusal :=
  .next (issueMem core { opc := 0x06, t := xt.toNat, ra := xa.toNat, rb := 0, rc := 0, ps := 0, sk := 0, sz := 0, u := 0, rsvd := 0, imm := imm.toNat } .none s)

/-- LD64 (R105): a load of 64 bits; `err` is that the word is found uncorrectable (R76). -/
def execLd64 (core : Fin 144) (xt xa : BitVec 5) (imm : BitVec 32) (err : TileErr) (s : State) : Host.Outcome State Fault Refusal :=
  .next (issueMem core { opc := 0x07, t := xt.toNat, ra := xa.toNat, rb := 0, rc := 0, ps := 0, sk := 0, sz := 0, u := 0, rsvd := 0, imm := imm.toNat } err s)

/-- ST8 (R105): a store of 8 bits; `err` is that the word is found uncorrectable (R76). -/
def execSt8 (core : Fin 144) (xt xa : BitVec 5) (imm : BitVec 32) (err : TileErr) (s : State) : Host.Outcome State Fault Refusal :=
  .next (issueMem core { opc := 0x09, t := xt.toNat, ra := xa.toNat, rb := 0, rc := 0, ps := 0, sk := 0, sz := 0, u := 0, rsvd := 0, imm := imm.toNat } err s)

/-- ST16 (R105): a store of 16 bits. -/
def execSt16 (core : Fin 144) (xt xa : BitVec 5) (imm : BitVec 32) (s : State) : Host.Outcome State Fault Refusal :=
  .next (issueMem core { opc := 0x0A, t := xt.toNat, ra := xa.toNat, rb := 0, rc := 0, ps := 0, sk := 0, sz := 0, u := 0, rsvd := 0, imm := imm.toNat } .none s)

/-- ST32 (R105): a store of 32 bits. -/
def execSt32 (core : Fin 144) (xt xa : BitVec 5) (imm : BitVec 32) (s : State) : Host.Outcome State Fault Refusal :=
  .next (issueMem core { opc := 0x0B, t := xt.toNat, ra := xa.toNat, rb := 0, rc := 0, ps := 0, sk := 0, sz := 0, u := 0, rsvd := 0, imm := imm.toNat } .none s)

/-- ST64 (R105): a store of 64 bits. -/
def execSt64 (core : Fin 144) (xt xa : BitVec 5) (imm : BitVec 32) (s : State) : Host.Outcome State Fault Refusal :=
  .next (issueMem core { opc := 0x0C, t := xt.toNat, ra := xa.toNat, rb := 0, rc := 0, ps := 0, sk := 0, sz := 0, u := 0, rsvd := 0, imm := imm.toNat } .none s)

/-- VLD (R107): 1,024 bytes into the lanes PS names. -/
def execVld (core : Fin 144) (vt : BitVec 6) (xa : BitVec 5) (imm : BitVec 32) (ps : BitVec 3) (s : State) : Host.Outcome State Fault Refusal :=
  .next (issueMem core { opc := 0x10, t := vt.toNat, ra := xa.toNat, rb := 0, rc := 0, ps := ps.toNat, sk := 0, sz := 0, u := 0, rsvd := 0, imm := imm.toNat } .none s)

/-- VST (R107): the lanes PS names of 1,024 bytes. -/
def execVst (core : Fin 144) (vt : BitVec 6) (xa : BitVec 5) (imm : BitVec 32) (ps : BitVec 3) (s : State) : Host.Outcome State Fault Refusal :=
  .next (issueMem core { opc := 0x11, t := vt.toNat, ra := xa.toNat, rb := 0, rc := 0, ps := ps.toNat, sk := 0, sz := 0, u := 0, rsvd := 0, imm := imm.toNat } .none s)

/-- VLDBC (R107): one word into every lane PS names. -/
def execVldbc (core : Fin 144) (vt : BitVec 6) (xa : BitVec 5) (imm : BitVec 32) (ps : BitVec 3) (s : State) : Host.Outcome State Fault Refusal :=
  .next (issueMem core { opc := 0x12, t := vt.toNat, ra := xa.toNat, rb := 0, rc := 0, ps := ps.toNat, sk := 0, sz := 0, u := 0, rsvd := 0, imm := imm.toNat } .none s)

/-- AMOADD (R106): an atomic at the bank, the old value into XT. -/
def execAmoadd (core : Fin 144) (xt xa xb : BitVec 5) (imm : BitVec 32) (sz u : Bool) (s : State) : Host.Outcome State Fault Refusal :=
  .next (issueMem core { opc := 0x18, t := xt.toNat, ra := xa.toNat, rb := xb.toNat, rc := 0, ps := 0, sk := 0, sz := if sz then 1 else 0, u := if u then 1 else 0, rsvd := 0, imm := imm.toNat } .none s)

/-- AMOSWAP (R106): an atomic at the bank, the old value into XT. -/
def execAmoswap (core : Fin 144) (xt xa xb : BitVec 5) (imm : BitVec 32) (sz u : Bool) (s : State) : Host.Outcome State Fault Refusal :=
  .next (issueMem core { opc := 0x19, t := xt.toNat, ra := xa.toNat, rb := xb.toNat, rc := 0, ps := 0, sk := 0, sz := if sz then 1 else 0, u := if u then 1 else 0, rsvd := 0, imm := imm.toNat } .none s)

/-- AMOCAS (R106): an atomic at the bank, the old value into XT. -/
def execAmocas (core : Fin 144) (xt xa xb xc : BitVec 5) (imm : BitVec 32) (sz u : Bool) (s : State) : Host.Outcome State Fault Refusal :=
  .next (issueMem core { opc := 0x1A, t := xt.toNat, ra := xa.toNat, rb := xb.toNat, rc := xc.toNat, ps := 0, sk := 0, sz := if sz then 1 else 0, u := if u then 1 else 0, rsvd := 0, imm := imm.toNat } .none s)

/-- AMOMIN (R106): an atomic at the bank, the old value into XT. -/
def execAmomin (core : Fin 144) (xt xa xb : BitVec 5) (imm : BitVec 32) (sz u : Bool) (s : State) : Host.Outcome State Fault Refusal :=
  .next (issueMem core { opc := 0x1B, t := xt.toNat, ra := xa.toNat, rb := xb.toNat, rc := 0, ps := 0, sk := 0, sz := if sz then 1 else 0, u := if u then 1 else 0, rsvd := 0, imm := imm.toNat } .none s)

/-- AMOMAX (R106): an atomic at the bank, the old value into XT. -/
def execAmomax (core : Fin 144) (xt xa xb : BitVec 5) (imm : BitVec 32) (sz u : Bool) (s : State) : Host.Outcome State Fault Refusal :=
  .next (issueMem core { opc := 0x1C, t := xt.toNat, ra := xa.toNat, rb := xb.toNat, rc := 0, ps := 0, sk := 0, sz := if sz then 1 else 0, u := if u then 1 else 0, rsvd := 0, imm := imm.toNat } .none s)

/-- SEMWAIT (R80): takes xb from the semaphore, or waits. -/
def execSemwait (core : Fin 144) (sk : BitVec 4) (xb : BitVec 5) (s : State) : Host.Outcome State Fault Refusal :=
  .next (issueMem core { opc := 0x20, t := 0, ra := 0, rb := xb.toNat, rc := 0, ps := 0, sk := sk.toNat, sz := 0, u := 0, rsvd := 0, imm := 0 } .none s)

/-- SEMPOST (R80): adds xb to a semaphore of local core xa. -/
def execSempost (core : Fin 144) (xa : BitVec 5) (sk : BitVec 4) (xb : BitVec 5) (s : State) : Host.Outcome State Fault Refusal :=
  .next (issueMem core { opc := 0x21, t := 0, ra := xa.toNat, rb := xb.toNat, rc := 0, ps := 0, sk := sk.toNat, sz := 0, u := 0, rsvd := 0, imm := 0 } .none s)

/-- SEMSET (R80): sets a semaphore of the core. -/
def execSemset (core : Fin 144) (sk : BitVec 4) (xb : BitVec 5) (s : State) : Host.Outcome State Fault Refusal :=
  .next (issueMem core { opc := 0x22, t := 0, ra := 0, rb := xb.toNat, rc := 0, ps := 0, sk := sk.toNat, sz := 0, u := 0, rsvd := 0, imm := 0 } .none s)

/-- TMPUSH (R81): appends a descriptor to a tile-mover queue. -/
def execTmpush (core : Fin 144) (tq : Fin 4) (xa : BitVec 5) (s : State) : Host.Outcome State Fault Refusal :=
  .next (issueMem core { opc := 0x28, t := 0, ra := xa.toNat, rb := 0, rc := 0, ps := 0, sk := tq, sz := 0, u := 0, rsvd := 0, imm := 0 } .none s)

/-- TMDRAIN (R86): waits until a tile-mover queue is empty. -/
def execTmdrain (core : Fin 144) (tq : Fin 4) (s : State) : Host.Outcome State Fault Refusal :=
  .next (issueMem core { opc := 0x29, t := 0, ra := 0, rb := 0, rc := 0, ps := 0, sk := tq, sz := 0, u := 0, rsvd := 0, imm := 0 } .none s)

/-- FENCE (R236): holds later bundles until earlier accesses are complete at the scope. -/
def execFence (core : Fin 144) (scope : Fin 4) (s : State) : Host.Outcome State Fault Refusal :=
  .next (issueMem core { opc := 0x30, t := 0, ra := 0, rb := 0, rc := 0, ps := 0, sk := scope, sz := 0, u := 0, rsvd := 0, imm := 0 } .none s)

/-- A core in WAITING goes on: its bundle issues once nothing holds it (R67, R80). -/
def resumeCore (s : State) (n : Nat) (h : Hold) : State :=
  match coreOf s n with
  | none => s
  | some c =>
    let x := s.core c
    let b := bundleAt x
    let run := { x with st := .running, hold := .none }
    if x.st = .waiting && x.hold = h && siteUp s (c / 24) && s.clk.rootLock && waitsFor x b = .none && !stalled s c x b then
      issue (setCore s c run) c b .none
    else s

/-- SEMWAIT_RESUME (R80): the semaphore has reached the count; it is taken and the core goes on with the next bundle. -/
def execSemwaitResume (core : Fin 144) (s : State) : Host.Outcome State Fault Refusal :=
  .next (resumeCore s core .sem)

/-- TMDRAIN_RESUME (R86): the queue is empty. -/
def execTmdrainResume (core : Fin 144) (s : State) : Host.Outcome State Fault Refusal :=
  .next (resumeCore s core .drain)

/-- Whether a tile-mover queue is complete at a scope below FABRIC (R234): empty, or one PUT or SIGNAL whose source bytes are read and, at
MODULE scope, whose accesses are ordered at their homes or handed on. -/
def tqComplete (s : State) (c q scope : Nat) : Bool :=
  match ((s.core c).tqr q).q with
  | [] => true
  | [d] =>
    let f := descF d.raw
    let read := if f.op = 4 then d.started else f.op = 2 && d.runs ≥ f.total
    d.fail.isNone && read && (scope < 2 || moduleDone s (tmTag c q))
  | _ => false

/-- A FENCE ends: later bundles may issue, but for a HALT or an XDRAIN in its bundle (R72, R86). -/
def endFence (s : State) (c : Nat) (xdrain halt : Bool) : State :=
  let x := { s.core c with fenceRel := none }
  setCore s c (if halt then { x with hold := .halt } else if xdrain && !x.matq.isEmpty then { x with hold := .xdrain } else { x with hold := .none }.fetchPastEnd)

/-- FENCE_DONE (R236): earlier accesses are complete at the scope. At FABRIC scope the core's REMOTE_CACHEABLE regions are released
first, and an acquire of them is started and not waited for. -/
def execFenceDone (core : Fin 144) (s : State) : Host.Outcome State Fault Refusal :=
  .next (match coreOf s core with
    | none => s
    | some c =>
      let x := s.core c
      let sl := (sliceOfCore s c).getD 0xFF
      match x.st, x.hold with
      | .running, .fence scope xd h =>
        if scope ≥ 1 && !storesLanded s c then s
        else if !(List.range 4).all (fun q => tqComplete s c q scope && (scope < 3 || (x.tqr q).q.isEmpty)) then s
        else if scope < 3 then endFence s c xd h
        else
          let mask := cacheableMask s sl
          (match x.fenceRel with
            | none =>
              if mask = 0 then endFence s c xd h
              else
                let (s, id) := startFab s sl mask false false
                setCore s c { s.core c with fenceRel := some id }
            | some id =>
              match fabEnded s id with
              | none => s
              | some _ => (startFab (endFence (dropFab s id) c xd h) sl mask true false).1)
      | _, _ => s)

end Sys2Proof.Machine
end

