-- ==== Sys2Proof/Machine/VectorOps.lean ====
section
/-!
DEFINITION. The commands of the vector slots (R108–R116).
-/
namespace Sys2Proof.Machine

/-- A vector operation of slot V0 or V1 issues with its bundle (R108). -/
def issueVec (core : Fin 144) (slot opc : Nat) (f : VFields) (s : State) : State := issueOp s core (3 + slot) (vWord opc f) .none

/-- VADD (R112–R114): sum. -/
def execVadd (core : Fin 144) (slot : Fin 2) (f : VFields) (s : State) : Host.Outcome State Fault Refusal :=
  .next (issueVec core slot 0x01 f s)

/-- VSUB (R112–R114): difference. -/
def execVsub (core : Fin 144) (slot : Fin 2) (f : VFields) (s : State) : Host.Outcome State Fault Refusal :=
  .next (issueVec core slot 0x02 f s)

/-- VMUL (R112–R114): product. -/
def execVmul (core : Fin 144) (slot : Fin 2) (f : VFields) (s : State) : Host.Outcome State Fault Refusal :=
  .next (issueVec core slot 0x03 f s)

/-- VFMA (R112–R114): VA × B + VC. -/
def execVfma (core : Fin 144) (slot : Fin 2) (f : VFields) (s : State) : Host.Outcome State Fault Refusal :=
  .next (issueVec core slot 0x04 f s)

/-- VFMS (R112–R114): VA × B − VC. -/
def execVfms (core : Fin 144) (slot : Fin 2) (f : VFields) (s : State) : Host.Outcome State Fault Refusal :=
  .next (issueVec core slot 0x05 f s)

/-- VFNMA (R112–R114): VC − VA × B. -/
def execVfnma (core : Fin 144) (slot : Fin 2) (f : VFields) (s : State) : Host.Outcome State Fault Refusal :=
  .next (issueVec core slot 0x06 f s)

/-- VMIN (R112–R114): minimum. -/
def execVmin (core : Fin 144) (slot : Fin 2) (f : VFields) (s : State) : Host.Outcome State Fault Refusal :=
  .next (issueVec core slot 0x07 f s)

/-- VMAX (R112–R114): maximum. -/
def execVmax (core : Fin 144) (slot : Fin 2) (f : VFields) (s : State) : Host.Outcome State Fault Refusal :=
  .next (issueVec core slot 0x08 f s)

/-- VABS (R112–R114): absolute value. -/
def execVabs (core : Fin 144) (slot : Fin 2) (f : VFields) (s : State) : Host.Outcome State Fault Refusal :=
  .next (issueVec core slot 0x09 f s)

/-- VNEG (R112–R114): negation. -/
def execVneg (core : Fin 144) (slot : Fin 2) (f : VFields) (s : State) : Host.Outcome State Fault Refusal :=
  .next (issueVec core slot 0x0A f s)

/-- VMOV (R112–R114): copy. -/
def execVmov (core : Fin 144) (slot : Fin 2) (f : VFields) (s : State) : Host.Outcome State Fault Refusal :=
  .next (issueVec core slot 0x0B f s)

/-- VSEL (R112–R114): selection by a predicate. -/
def execVsel (core : Fin 144) (slot : Fin 2) (f : VFields) (s : State) : Host.Outcome State Fault Refusal :=
  .next (issueVec core slot 0x0C f s)

/-- VAND (R112–R114): AND. -/
def execVand (core : Fin 144) (slot : Fin 2) (f : VFields) (s : State) : Host.Outcome State Fault Refusal :=
  .next (issueVec core slot 0x10 f s)

/-- VOR (R112–R114): OR. -/
def execVor (core : Fin 144) (slot : Fin 2) (f : VFields) (s : State) : Host.Outcome State Fault Refusal :=
  .next (issueVec core slot 0x11 f s)

/-- VXOR (R112–R114): XOR. -/
def execVxor (core : Fin 144) (slot : Fin 2) (f : VFields) (s : State) : Host.Outcome State Fault Refusal :=
  .next (issueVec core slot 0x12 f s)

/-- VSLL (R112–R114): left shift. -/
def execVsll (core : Fin 144) (slot : Fin 2) (f : VFields) (s : State) : Host.Outcome State Fault Refusal :=
  .next (issueVec core slot 0x13 f s)

/-- VSRL (R112–R114): logical right shift. -/
def execVsrl (core : Fin 144) (slot : Fin 2) (f : VFields) (s : State) : Host.Outcome State Fault Refusal :=
  .next (issueVec core slot 0x14 f s)

/-- VSRA (R112–R114): arithmetic right shift. -/
def execVsra (core : Fin 144) (slot : Fin 2) (f : VFields) (s : State) : Host.Outcome State Fault Refusal :=
  .next (issueVec core slot 0x15 f s)

/-- VCMPEQ (R112–R114): equal. -/
def execVcmpeq (core : Fin 144) (slot : Fin 2) (f : VFields) (s : State) : Host.Outcome State Fault Refusal :=
  .next (issueVec core slot 0x18 f s)

/-- VCMPNE (R112–R114): not equal. -/
def execVcmpne (core : Fin 144) (slot : Fin 2) (f : VFields) (s : State) : Host.Outcome State Fault Refusal :=
  .next (issueVec core slot 0x19 f s)

/-- VCMPLT (R112–R114): less. -/
def execVcmplt (core : Fin 144) (slot : Fin 2) (f : VFields) (s : State) : Host.Outcome State Fault Refusal :=
  .next (issueVec core slot 0x1A f s)

/-- VCMPLE (R112–R114): less or equal. -/
def execVcmple (core : Fin 144) (slot : Fin 2) (f : VFields) (s : State) : Host.Outcome State Fault Refusal :=
  .next (issueVec core slot 0x1B f s)

/-- VCMPGT (R112–R114): greater. -/
def execVcmpgt (core : Fin 144) (slot : Fin 2) (f : VFields) (s : State) : Host.Outcome State Fault Refusal :=
  .next (issueVec core slot 0x1C f s)

/-- VCMPGE (R112–R114): greater or equal. -/
def execVcmpge (core : Fin 144) (slot : Fin 2) (f : VFields) (s : State) : Host.Outcome State Fault Refusal :=
  .next (issueVec core slot 0x1D f s)

/-- PAND (R112–R114): AND of predicates. -/
def execPand (core : Fin 144) (slot : Fin 2) (f : VFields) (s : State) : Host.Outcome State Fault Refusal :=
  .next (issueVec core slot 0x20 f s)

/-- POR (R112–R114): OR of predicates. -/
def execPor (core : Fin 144) (slot : Fin 2) (f : VFields) (s : State) : Host.Outcome State Fault Refusal :=
  .next (issueVec core slot 0x21 f s)

/-- PXOR (R112–R114): XOR of predicates. -/
def execPxor (core : Fin 144) (slot : Fin 2) (f : VFields) (s : State) : Host.Outcome State Fault Refusal :=
  .next (issueVec core slot 0x22 f s)

/-- PANDN (R112–R114): AND with the complement. -/
def execPandn (core : Fin 144) (slot : Fin 2) (f : VFields) (s : State) : Host.Outcome State Fault Refusal :=
  .next (issueVec core slot 0x23 f s)

/-- PNOT (R112–R114): complement. -/
def execPnot (core : Fin 144) (slot : Fin 2) (f : VFields) (s : State) : Host.Outcome State Fault Refusal :=
  .next (issueVec core slot 0x24 f s)

/-- PSETN (R112–R114): first lanes. -/
def execPsetn (core : Fin 144) (slot : Fin 2) (f : VFields) (s : State) : Host.Outcome State Fault Refusal :=
  .next (issueVec core slot 0x25 f s)

/-- VCVT (R112–R114): conversion. -/
def execVcvt (core : Fin 144) (slot : Fin 2) (f : VFields) (s : State) : Host.Outcome State Fault Refusal :=
  .next (issueVec core slot 0x28 f s)

/-- VCVTFMX (R112–R114): MX blocks to FP32. -/
def execVcvtfmx (core : Fin 144) (slot : Fin 2) (f : VFields) (s : State) : Host.Outcome State Fault Refusal :=
  .next (issueVec core slot 0x2A f s)

/-- VCVTMX (R114–R116): FP32 to MX blocks, slot V1 only. -/
def execVcvtmx (core : Fin 144) (f : VFields) (s : State) : Host.Outcome State Fault Refusal :=
  .next (issueVec core 1 0x29 f s)

/-- VREDSUM (R114–R116): sum of lanes, slot V1 only. -/
def execVredsum (core : Fin 144) (f : VFields) (s : State) : Host.Outcome State Fault Refusal :=
  .next (issueVec core 1 0x30 f s)

/-- VREDMAX (R114–R116): largest lane, slot V1 only. -/
def execVredmax (core : Fin 144) (f : VFields) (s : State) : Host.Outcome State Fault Refusal :=
  .next (issueVec core 1 0x31 f s)

/-- VREDMIN (R114–R116): smallest lane, slot V1 only. -/
def execVredmin (core : Fin 144) (f : VFields) (s : State) : Host.Outcome State Fault Refusal :=
  .next (issueVec core 1 0x32 f s)

/-- VPERM (R114–R116): permutation, slot V1 only. -/
def execVperm (core : Fin 144) (f : VFields) (s : State) : Host.Outcome State Fault Refusal :=
  .next (issueVec core 1 0x34 f s)

/-- VROT (R114–R116): rotation, slot V1 only. -/
def execVrot (core : Fin 144) (f : VFields) (s : State) : Host.Outcome State Fault Refusal :=
  .next (issueVec core 1 0x35 f s)

/-- VBCAST (R114–R116): one lane in all, slot V1 only. -/
def execVbcast (core : Fin 144) (f : VFields) (s : State) : Host.Outcome State Fault Refusal :=
  .next (issueVec core 1 0x36 f s)

/-- VMVXV (R114–R116): a lane into an X register, slot V1 only. -/
def execVmvxv (core : Fin 144) (f : VFields) (s : State) : Host.Outcome State Fault Refusal :=
  .next (issueVec core 1 0x37 f s)

/-- VRCP (R114–R116): reciprocal, slot V1 only. -/
def execVrcp (core : Fin 144) (f : VFields) (s : State) : Host.Outcome State Fault Refusal :=
  .next (issueVec core 1 0x38 f s)

/-- VRSQRT (R114–R116): reciprocal square root, slot V1 only. -/
def execVrsqrt (core : Fin 144) (f : VFields) (s : State) : Host.Outcome State Fault Refusal :=
  .next (issueVec core 1 0x39 f s)

/-- VEXP2 (R114–R116): two to the power, slot V1 only. -/
def execVexp2 (core : Fin 144) (f : VFields) (s : State) : Host.Outcome State Fault Refusal :=
  .next (issueVec core 1 0x3A f s)

/-- VLOG2 (R114–R116): base-two logarithm, slot V1 only. -/
def execVlog2 (core : Fin 144) (f : VFields) (s : State) : Host.Outcome State Fault Refusal :=
  .next (issueVec core 1 0x3B f s)


end Sys2Proof.Machine
end

