-- ==== Sys2Proof/Machine/MatrixOps.lean ====
section
/-!
DEFINITION. The commands of slot X and of the matrix unit (R71–R73, R117–R119).
-/
namespace Sys2Proof.Machine

/-- An operation of slot X issues with its bundle (R117). -/
def issueMat (core : Fin 144) (f : XF) (s : State) : State := issueOp s core 5 (xWord f) .none

/-- LDW (R118): queues a weight load. -/
def execLdw (core : Fin 144) (wn : Fin 2) (xa : BitVec 5) (fmt : BitVec 5) (sp : Bool) (s : State) : Host.Outcome State Fault Refusal :=
  .next (issueMat core { opc := 1, ad := 0, wn := wn, z := 0, sp := if sp then 1 else 0, fmt := fmt.toNat, ra := xa.toNat, rs := 0, rb := 0, row0 := 0, rows := 0, vd := 0, rsvd := 0 } s)

/-- MMA (R71, R118): queues a multiply-accumulate. -/
def execMma (core : Fin 144) (f : MmaFields) (s : State) : Host.Outcome State Fault Refusal :=
  .next (issueMat core { opc := 2, ad := f.ad.toNat, wn := f.wn.toNat, z := if f.z then 1 else 0, sp := if f.sp then 1 else 0, fmt := f.fmt.toNat, ra := f.ra.toNat, rs := f.rs.toNat, rb := f.rb.toNat, row0 := f.row0.toNat, rows := f.rows.toNat, vd := 0, rsvd := 0 } s)

/-- ACCMV (R118): queues the move of two rows of a tile into a V register. -/
def execAccmv (core : Fin 144) (vd : BitVec 6) (ad : Fin 4) (row0 : BitVec 7) (s : State) : Host.Outcome State Fault Refusal :=
  .next (issueMat core { opc := 3, ad := ad, wn := 0, z := 0, sp := 0, fmt := 0, ra := 0, rs := 0, rb := 0, row0 := row0.toNat, rows := 0, vd := vd.toNat, rsvd := 0 } s)

/-- ACCST (R118): queues the store of a tile. -/
def execAccst (core : Fin 144) (ad : Fin 4) (xa xs : BitVec 5) (fmt : BitVec 5) (s : State) : Host.Outcome State Fault Refusal :=
  .next (issueMat core { opc := 4, ad := ad, wn := 0, z := 0, sp := 0, fmt := fmt.toNat, ra := xa.toNat, rs := xs.toNat, rb := 0, row0 := 0, rows := 0, vd := 0, rsvd := 0 } s)

/-- ACCCLR (R118): queues the clearing of a tile. -/
def execAccclr (core : Fin 144) (ad : Fin 4) (s : State) : Host.Outcome State Fault Refusal :=
  .next (issueMat core { opc := 5, ad := ad, wn := 0, z := 0, sp := 0, fmt := 0, ra := 0, rs := 0, rb := 0, row0 := 0, rows := 0, vd := 0, rsvd := 0 } s)

/-- XDRAIN (R72): holds later bundles until the matrix unit has drained. -/
def execXdrain (core : Fin 144) (s : State) : Host.Outcome State Fault Refusal :=
  .next (issueMat core { opc := 6, ad := 0, wn := 0, z := 0, sp := 0, fmt := 0, ra := 0, rs := 0, rb := 0, row0 := 0, rows := 0, vd := 0, rsvd := 0 } s)

/-- XDRAIN_DONE (R72): the queue is empty and every write of the unit complete. -/
def execXdrainDone (core : Fin 144) (s : State) : Host.Outcome State Fault Refusal :=
  .next (match coreOf s core with
    | none => s
    | some c =>
      let x := s.core c
      if x.st = .running && x.hold = .xdrain && x.matq.isEmpty then setCore s c ({ x with hold := .none }.fetchPastEnd) else s)

/-- MATRIX_OP_START (R72): the head of the queue starts and, in this model, is done at once. It waits for a core in RESET (R78). -/
def execMatrixOpStart (core : Fin 144) (s : State) : Host.Outcome State Fault Refusal :=
  .next (match coreOf s core with
    | none => s
    | some c =>
      let x := s.core c
      match x.matq with
      | [] => s
      | op :: rest =>
        if x.st = .reset || x.st = .retired || !siteUp s (c / 24) || !s.clk.rootLock || matHeld s c op then s
        else runMat (setCore s c { x with matq := rest }) c op)

end Sys2Proof.Machine
end

