-- ==== Sys2Proof/Machine/TileOps.lean ====
section
/-!
DEFINITION. The commands of the tile movers (R81–R83).
-/
namespace Sys2Proof.Machine

/-- A tile-mover command on the queue of a logical core. -/
def onTq (s : State) (n : Nat) (f : Nat → State → State) : State :=
  match coreOf s n with
  | none => s
  | some c => if s.quiet then s else settleAll (f c s)

/-- GET (R81): the head descriptor moves global bytes to tile memory, up to run `upto`; `err` is an error found in the first line read
(R170). -/
def execTmGet (core : Fin 144) (tq : Fin 4) (upto : Nat) (err : SilErr) (s : State) : Host.Outcome State Fault Refusal :=
  .next (onTq s core (fun c s =>
    match tmHead s c tq with
    | none => s
    | some d =>
      let f := descF d.raw
      if f.op ≠ 1 || (s.core c).st = .reset || ((s.core c).tqr tq).stopped || !siteUp s (c / 24) then s
      else
        let e := tmEng s c tq f
        let ga := wrapInt 64 (runAddr f.g f.gs f.e1 f.e2 d.runs + d.pos)
        let s := (match err with
          | .none => s
          | _ => (match translate s e.tag e.slice e.port 0 ga with
            | (s, .pa pa _) => inject s pa err e.slice
            | (s, _) => s))
        tmOp s c tq 1 upto))

/-- PUT (R81): the head descriptor moves tile bytes to global memory. -/
def execTmPut (core : Fin 144) (tq : Fin 4) (upto : Nat) (s : State) : Host.Outcome State Fault Refusal :=
  .next (onTq s core (fun c s => tmOp s c tq 2 upto))

/-- LCOPY (R81): the head descriptor moves bytes between tile memories. -/
def execTmLcopy (core : Fin 144) (tq : Fin 4) (upto : Nat) (s : State) : Host.Outcome State Fault Refusal :=
  .next (onTq s core (fun c s => tmOp s c tq 3 upto))

/-- TM_SIGNAL (R81): the head descriptor's atomic addition at its home. -/
def execTmSignal (core : Fin 144) (tq : Fin 4) (s : State) : Host.Outcome State Fault Refusal :=
  .next (onTq s core (fun c s => tmSignalOp s c tq))

/-- TM_DESC_COMPLETE (R82): the head descriptor is complete; the queue counts it and posts. -/
def execTmDescComplete (core : Fin 144) (tq : Fin 4) (s : State) : Host.Outcome State Fault Refusal :=
  .next (onTq s core (fun c s => completeDesc s c tq))

/-- TM_DESC_FAIL (R83): the head descriptor has failed; the queue stops and records it, and the core stops. -/
def execTmDescFail (core : Fin 144) (tq : Fin 4) (s : State) : Host.Outcome State Fault Refusal :=
  .next (onTq s core (fun c s => recordDescFail s c tq))

end Sys2Proof.Machine
end

