-- ==== Sys2Proof/Machine/CoreOps.lean ====
section
/-!
DEFINITION. Core states: HALT_REQ, CORE_RESET and the end of RESET (R84, R85, R88).
-/
namespace Sys2Proof.Machine

/-- Whether a row of SITE_CORE_CTL acts (R88): its unit has a logical number and its site a core or a customer die. -/
def coreRow (s : State) (c : Nat) : Bool := occupiedSite s (c / 24) && (logicalOf s c).isSome

/-- A write of HALT_REQ (R88). -/
def writeHaltReq (s : State) (c : Nat) : State := if coreRow s c then haltReq s c else s

/-- A write of CORE_RESET: to a HALTED core (R85, R88). -/
def writeCoreReset (s : State) (c : Nat) : State :=
  if coreRow s c && (s.core c).st = .halted then resetCore s c else s

/-- HALT_REQ (R88). -/
def execHaltReq (site : Fin 6) (unit : Fin 24) (s : State) : Host.Outcome State Fault Refusal :=
  .next (if s.quiet then s else writeHaltReq s (24 * site + unit))

/-- CORE_RESET (R85). -/
def execCoreReset (site : Fin 6) (unit : Fin 24) (s : State) : Host.Outcome State Fault Refusal :=
  .next (if s.quiet then s else writeCoreReset s (24 * site + unit))

/-- A core as R62 gives it on leaving RESET, in HALTED. -/
def Core.cleared (x : Core) : Core := { st := .halted, launch := x.launch }

/-- The accesses held for a core in RESET (R78, R80), in their order. -/
def applyHeld (s : State) (c : Nat) : List HeldAcc → State
  | [] => s
  | .store _ off bs :: r => applyHeld (writeTile s c off bs (fun _ => true)) c r
  | .post _ k n :: r => applyHeld (setCore s c ((s.core c).postSem k n)) c r

/-- CORE_RESET_DONE (R85): the core is cleared, its tile and instruction memory zero, and HALTED; held accesses then reach it. A customer
die reports its own units. -/
def execCoreResetDone (core : Fin 144) (s : State) : Host.Outcome State Fault Refusal :=
  .next (match coreOf s core with
    | none => s
    | some c =>
      let x := s.core c
      if x.st = .reset && siteUp s (c / 24) && !customerDie s (c / 24) then applyHeld (setCore s c x.cleared) c x.heldAcc else s)

end Sys2Proof.Machine
end

