-- ==== Sys2Proof/Machine/Hash.lean ====
section
/-!
DEFINITION. The digests and signatures the module checks: CRC-32C (R36), SHA-384 and ECDSA on P-384 (R38, R400). The spec names the
last two by their standards; their definitions are FIPS 180-4, FIPS 186-4 and SP 800-186 (PRESUMED, log 40).
-/
namespace Sys2Proof.Machine

/-! ## CRC-32C -/

/-- Eight steps of the reflected CRC. -/
def crcBits : Nat → BitVec 32 → BitVec 32
  | 0, c => c
  | n + 1, c => crcBits n (if c.getLsbD 0 then (c >>> 1) ^^^ 0x82F63B78 else c >>> 1)

/-- CRC-32C of a byte string (R36). -/
def crc32c (bs : List Byte) : BitVec 32 := (bs.foldl (fun c b => crcBits 8 (c ^^^ b.zeroExtend 32)) 0xFFFFFFFF) ^^^ 0xFFFFFFFF

/-! ## SHA-384 -/

/-- The primes below 410: eighty of them. -/
def shaPrimes : List Nat := (List.range 410).filter (fun n => n > 1 && [2, 3, 5, 7, 11, 13, 17, 19].all (fun p => n = p || n % p ≠ 0))

/-- The first 64 bits after the point of the k-th root of a prime. -/
def rootBits (k p : Nat) : BitVec 64 := BitVec.ofNat 64 (rootFrom k 24 (p <<< (64 * k)) (2 ^ 69))

/-- The constant of each round, from the cube roots; and the value the hash starts from, from the square roots of the ninth to the sixteenth prime. -/
def shaRounds : List (BitVec 64) := shaPrimes.map (rootBits 3)
def shaStart : List (BitVec 64) := ((shaPrimes.drop 8).take 8).map (rootBits 2)

/-- What a block is worked on with: the last four values of each of the two words that a round makes, and the last sixteen words of the schedule,
the newest first in each. -/
structure ShaWork where
  upper : List (BitVec 64)
  lower : List (BitVec 64)
  words : List (BitVec 64)
  deriving DecidableEq, Repr

/-- The word of a list at a place. -/
def wordAt (l : List (BitVec 64)) (i : Nat) : BitVec 64 := (l[i]?).getD 0

/-- A word combined by exclusive or with itself in three rotations, or, where the last is a shift, in two and that. -/
def turn3 (x : BitVec 64) (i j k : Nat) (shift : Bool) : BitVec 64 :=
  x.rotateRight i ^^^ x.rotateRight j ^^^ (if shift then x >>> k else x.rotateRight k)

/-- One round: the oldest schedule word and the constant are worked in, and the schedule gets its next word. -/
def shaStep (s : ShaWork) (k : BitVec 64) : ShaWork :=
  let u := wordAt s.upper
  let l := wordAt s.lower
  let w := wordAt s.words
  let mix := k + w 15 + l 3 + turn3 (l 0) 14 18 41 false + (l 2 ^^^ (l 0 &&& (l 1 ^^^ l 2)))
  let top := turn3 (u 0) 28 34 39 false + ((u 0 &&& u 1) ||| (u 2 &&& (u 0 ||| u 1)))
  { upper := (mix + top) :: s.upper.take 3
    lower := (mix + u 3) :: s.lower.take 3
    words := (w 15 + w 6 + turn3 (w 14) 1 8 7 true + turn3 (w 1) 19 61 6 true) :: s.words.take 15 }

/-- One 128-byte block. -/
def shaBlock (h : List (BitVec 64)) (block : List Byte) : List (BitVec 64) :=
  let words := ((List.range 16).map (fun i => BitVec.ofNat 64 (beNat (sub block (8 * i) 8)))).reverse
  let r := shaRounds.foldl shaStep { upper := h.take 4, lower := h.drop 4, words := words }
  List.zipWith (· + ·) h (r.upper ++ r.lower)

/-- The blocks of a padded message. -/
def shaBlocks : Nat → List (BitVec 64) → List Byte → List (BitVec 64)
  | 0, h, _ => h
  | n + 1, h, bs => shaBlocks n (shaBlock h (bs.take 128)) (bs.drop 128)

/-- The padding of a message of `n` bytes. -/
def shaPad (n : Nat) : List Byte := [0x80] ++ List.replicate ((239 - n % 128) % 128) 0 ++ beBytes 16 (8 * n)

/-- The SHA-384 digest, byte 0 highest. -/
def sha384 (bs : List Byte) : BitVec 384 :=
  let m := bs ++ shaPad bs.length
  let h := shaBlocks (m.length / 128) shaStart m
  BitVec.ofNat 384 ((h.take 6).foldl (fun a w => a * 2 ^ 64 + w.toNat) 0)

/-- The 48 bytes of a digest. -/
def digestBytes (d : BitVec 384) : List Byte := beBytes 48 d.toNat

/-! ## ECDSA on P-384 -/

/-- Field prime, group order and the coefficient b of P-384. -/
def p384P : Nat := 2 ^ 384 - 2 ^ 128 - 2 ^ 96 + 2 ^ 32 - 1
def p384N : Nat := 0xffffffffffffffffffffffffffffffffffffffffffffffffc7634d81f4372ddf581a0db248b0a77aecec196accc52973
def p384B : Nat := 0xb3312fa7e23ee7e4988e056be3f82d19181d9c6efe8141120314088f5013875ac656398d8a2ed19d2a85c8edd3ec2aef

/-- The generator. -/
def p384G : Nat × Nat :=
  (0xaa87ca22be8b05378eb1c71ef320ad746e1d3b628ba79b9859f741e082542a385502f25dbf55296c3a545e3872760ab7,
   0x3617de4a96262c6f5d9e98bf9292dc29f8f41dbd289a147ce9da3113b5f0b8c00a60b1ce1d7e819d7a431d7c90ea0e5f)

/-- `b ^ e` modulo `m`, over `n` bits of the exponent. -/
def powMod (m b : Nat) : Nat → Nat → Nat
  | 0, _ => 1 % m
  | n + 1, e => let h := powMod m b n (e / 2); if e % 2 = 1 then h * h % m * b % m else h * h % m

/-- The inverse modulo a prime. -/
def invMod (m a : Nat) : Nat := powMod m a 384 (m - 2)

/-- Addition of points, none the point at infinity. -/
def ecAdd (x y : Option (Nat × Nat)) : Option (Nat × Nat) :=
  match x, y with
  | none, q => q
  | p, none => p
  | some (x1, y1), some (x2, y2) =>
    let p := p384P
    if x1 = x2 && (y1 + y2) % p = 0 then none
    else
      let l := if x1 = x2 then (3 * x1 * x1 + (p - 3)) * invMod p (2 * y1 % p) % p else (y2 + p - y1) * invMod p ((x2 + p - x1) % p) % p
      let x3 := (l * l + 2 * p - x1 - x2) % p
      some (x3, (l * (x1 + p - x3) + p - y1) % p)

/-- `k` times a point, over `n` bits of `k`. -/
def ecMul (q : Option (Nat × Nat)) : Nat → Nat → Option (Nat × Nat)
  | 0, _ => none
  | n + 1, k => let h := ecMul q n (k / 2); let d := ecAdd h h; if k % 2 = 1 then ecAdd d q else d

/-- The point of an uncompressed key: 0x04, X, Y, on the curve. -/
def ecPoint (key : List Byte) : Option (Nat × Nat) :=
  let x := beNat (sub key 1 48)
  let y := beNat (sub key 49 48)
  if le key 0 1 = 4 && x < p384P && y < p384P && y * y % p384P = (x * x * x + (p384P - 3) * x + p384B) % p384P then some (x, y) else none

/-- Whether a signature over a digest verifies under an uncompressed key (R38, R418). -/
def ecdsaOk (key : List Byte) (digest : BitVec 384) (r s : Nat) : Bool :=
  match ecPoint key with
  | none => false
  | some q =>
    if r = 0 || r ≥ p384N || s = 0 || s ≥ p384N then false
    else
      let w := invMod p384N s
      match ecAdd (ecMul (some p384G) 384 (digest.toNat * w % p384N)) (ecMul (some q) 384 (r * w % p384N)) with
      | none => false
      | some (x, _) => x % p384N = r

end Sys2Proof.Machine
end

