-- ==== Sys2Proof/Machine/Wmk.lean ====
section
/-!
DEFINITION. The Watermark unit: life-cycle stripes and transitions (R403–R409), owner slots and anchors (R410, R411), measurement slots
(R414), nonces and tokens (R418, R419) and debug accesses (R420–R422); and which path reaches the hub's registers.
-/
namespace Sys2Proof.Machine

/-! ## Stripes (R403, R407) -/

/-- The constants of a unit's stripes: unit 17 is the vault, 16 the module, 0–15 the sites. -/
def stripeConsts (u : Nat) : List (BitVec 64) :=
  if u = 17 then [0x6969696969696969, 0x9696969696969696, 0x0F0F0F0F0F0F0F0F]
  else [0x5A5A5A5A5A5A5A5A, 0xA5A5A5A5A5A5A5A5, 0x3C3C3C3C3C3C3C3C, 0xC3C3C3C3C3C3C3C3]

/-- Constant of a unit's stripe `i`, and the stripe. -/
def stripeConst (u i : Nat) : BitVec 64 := ((stripeConsts u)[i]?).getD 0
def Fuses.stripe (f : Fuses) (u i : Nat) : BitVec 64 := Tab.get 0 f.stripes (4 * u + i)
def Fuses.setStripe (f : Fuses) (u i : Nat) (v : BitVec 64) : Fuses := { f with stripes := Tab.set 0 f.stripes (4 * u + i) v }

/-- Number of a unit's stripes. -/
def stripeCount (u : Nat) : Nat := if u = 17 then 3 else 4

/-- Stripes neither zero nor their constant. -/
def Fuses.partials (f : Fuses) (u : Nat) : List Nat :=
  (List.range (stripeCount u)).filter (fun i => f.stripe u i ≠ 0 && f.stripe u i ≠ stripeConst u i)

/-- The state a unit's stripes decode to (R407). -/
def Fuses.decode (f : Fuses) (u : Nat) : Nat :=
  let last := stripeCount u - 1
  if f.stripe u last = stripeConst u last then last + 1
  else if !(f.partials u).isEmpty then 7
  else
    let set := (List.range last).filter (fun i => f.stripe u i ≠ 0)
    if u = 17 then (match set with | [] => 0 | [0] => 1 | [1] => 2 | [0, 1] => 2 | _ => 7)
    else (match set with | [] => 0 | [0] => 1 | [0, 1] => 2 | [0, 1, 2] => 3 | _ => 7)

/-- Module, vault and site states. They change when programming ends (R406), which is when the stripes do. -/
def State.lc (s : State) : Nat := s.fuses.decode 16
def State.vault (s : State) : Nat := s.fuses.decode 17
def State.siteLc (s : State) (k : Nat) : Nat := s.fuses.decode k

/-- A unit by its code in WMK_LC_CTL (R423). -/
def unitIndex (code : Nat) : Option Nat := if code = 0xFF then some 16 else if code = 0xFE then some 17 else if code < 16 then some code else none

/-- The first unit with a partial stripe, as WMK_STATUS shows it: its code and the target. -/
def partialOf (s : State) : Nat × Nat :=
  match ([16, 17] ++ List.range 16).find? (fun u => !(s.fuses.partials u).isEmpty) with
  | none => (0xFD, 0)
  | some u => (if u = 16 then 0xFF else if u = 17 then 0xFE else u, (s.fuses.partials u).headD 0 + 1)

/-! ## What a state permits (R404) -/

/-- Whether the states of module and vault give the identity, attestation and management keys; the link key. -/
def keysOk (lc vault : Nat) : Bool := (lc = 0 && (vault = 1 || vault = 2)) || (1 ≤ lc && lc ≤ 3 && vault = 2)
def linkOk (lc vault : Nat) : Bool := keysOk lc vault && lc ≤ 2

/-- Who signs Charts: 0 the manufacturing key, 1 the active owner key, 2 the return-analysis key. -/
def signerKind (lc vault : Nat) : Option Nat :=
  if lc = 0 then some 0
  else if (lc = 1 || lc = 2) && vault = 2 then some 1
  else if lc = 3 && (vault = 2 || vault = 3) then some 2
  else none

/-- A key is usable while both the state at the last sensing and the present one give it: a transition withdraws at once, and adds at the
next POR_N (R406). READY (R423). -/
def State.keysReady (s : State) : Bool := s.glb.sensed && keysOk s.wmk.lcBoot s.wmk.vaultBoot && keysOk s.lc s.vault
def State.linkReady (s : State) : Bool := s.keysReady && linkOk s.wmk.lcBoot s.wmk.vaultBoot && linkOk s.lc s.vault

/-- A valid stripe and a revoked stripe of an owner slot (R410). -/
def ownerValid : BitVec 64 := 0x3333333333333333
def ownerRevoked : BitVec 64 := 0xCCCCCCCCCCCCCCCC
def State.owner (s : State) (i : Nat) : OwnerSlot := Tab.get {} s.fuses.owners i

/-- The active owner slot (R410). -/
def activeOwner (s : State) : Option Nat := [3, 2, 1, 0].find? (fun i => (s.owner i).valid = ownerValid && (s.owner i).revoked = 0)

/-- The lowest unused owner slot. -/
def freeOwner (s : State) : Option Nat := (List.range 4).find? (fun i => s.owner i = {})

/-- Whether the boot management anchor is provisioned. -/
def bootCaOk (s : State) : Bool := s.fuses.bootCaValid = ownerValid

/-- The Chart signer's digest (R404). -/
def chartSigner (s : State) : Option (BitVec 384) :=
  if !s.glb.sensed || signerKind s.wmk.lcBoot s.wmk.vaultBoot ≠ signerKind s.lc s.vault then none
  else match signerKind s.lc s.vault with
    | some 0 => some Config.mfgKey
    | some 1 => (activeOwner s).map (fun i => (s.owner i).digest)
    | some _ => some Config.returnKey
    | none => none

/-- The management anchor (R411): the ROM's in MAKER and RETURNED (DEDUCED, log 41), the applied Chart's, or the boot anchor. -/
def mgmtAnchor (s : State) : Option (BitVec 384) :=
  if !s.keysReady then none
  else if s.lc = 0 then some Config.mfgAnchor
  else if s.lc = 3 then some Config.returnAnchor
  else match s.chart.applied with
    | some c => some c.sec.mgmtCa
    | none => if bootCaOk s then some s.fuses.bootCa else none

/-- Whether debug is open without a token, and so the test port while its fuse is whole: in MAKER, and in INTEGRATOR with the vault in PRODUCTION
(R404, R409, R420). -/
def debugOpen (s : State) : Bool := s.lc = 0 || (s.lc = 1 && s.vault = 2)

/-- Whether a register access by a path reaches the hub (R373, R379, R408, R411, R449, R485) (DEDUCED, log 76). -/
def pathUp (s : State) (p : Path) : Bool :=
  s.pins.porN && s.glb.sensed && (match p with
    | .bar0 => s.hostUp && !s.fcu.safe && s.lc ≠ 4
    | .mgmt n => s.mgmt.sessions.any (fun m => m.id = n)
    | .smbus => true
    | .testPort => s.fuses.testPort = 0 && debugOpen s)

/-! ## Transitions (R406–R409) -/

/-- The session of a path ends (R52): at once in STAGING and VERIFIED, else once the state has run to its end. In the safe state nothing of the
block moves (R61). -/
def endSession (s : State) (p : ChartPath) : State :=
  if s.chart.session ≠ some p || s.fcu.safe then s
  else if s.chart.state = 2 || s.chart.state = 4 then { s with chart := { s.chart with session := none, ended := true } }
  else { s with chart := { s.chart with session := none, state := 0, verified := none } }

/-- Sessions whose anchor is no longer the management anchor are closed (R374, R411), and a Chart session one of them opened ends (R52). -/
def dropSessions (s : State) : State :=
  let a := mgmtAnchor s
  let s := match s.chart.session with
    | some (.mgmt n) => if s.mgmt.sessions.any (fun m => m.id = n && a ≠ some m.anchor) then endSession s (.mgmt n) else s
    | _ => s
  { s with mgmt := { s.mgmt with sessions := s.mgmt.sessions.filter (fun m => a = some m.anchor) } }

/-- Every key, certificate, owner and anchor fuse is set to all ones (R408 step 3). -/
def destroyKeys (f : Fuses) : Fuses :=
  { f with keysFused := false, bootCa := BitVec.allOnes 384, bootCaValid := BitVec.allOnes 64,
           owners := (List.range 4).map (fun i => (i, { digest := BitVec.allOnes 384, valid := BitVec.allOnes 64, revoked := BitVec.allOnes 64 })) }

/-- A module with every lane marked failed. -/
def failedModule : ModTrain := { outLanes := BitVec.allOnes 64, inLanes := BitVec.allOnes 64, ctl := BitVec.allOnes 12 }

/-- Every trim, repair and site-code fuse is set to all ones (R408 step 4). -/
def destroyTrims (f : Fuses) : Fuses :=
  { f with codes := (List.range 8).map (fun k => (k, 15)), units := (List.range 6).map (fun k => (k, 31)),
           cRetired := (List.range 6).map (fun k => (k, BitVec.allOnes 24)), lanes := (List.range 256).map (fun k => (k, failedModule)),
           ppr := (List.range 8).map (fun k => (k, 511)), margin := (List.range 48).map (fun d => (d, 16)),
           target := (List.range 48).map (fun d => (d, 255)), destroyed := true }

/-- Steps 2 to 4 of the entry to SCRAPPED (R408). -/
def destroyAll (f : Fuses) : Fuses := destroyTrims (destroyKeys (f.setStripe 17 2 (stripeConst 17 2)))

/-- A SCRAPPED module keeps PD0 and PD1 alone (R408, R451): the host and management ports go down and HEARTBEAT is low. -/
def scrapped (s : State) : State :=
  let pd := s.tel.pd.map (fun p => if p.1 ≥ 2 then (p.1, { p.2 with state := 0 }) else p)
  { s with pcie := { s.pcie with dlUp := false, speed := 0, width := 0 }, mgmt := { s.mgmt with sessions := [], link := false, closed := true },
           pins := { s.pins with heartbeat := false, hbRunning := false }, tel := { s.tel with pd := pd } }

/-- The lowest `k` ones of a constant. -/
def lowOnes (c : BitVec 64) (k : Nat) : BitVec 64 :=
  ((List.range 64).foldl (fun (a : Nat × BitVec 64) i => if c.getLsbD i && a.1 < k then (a.1 + 1, a.2 ||| (1#64 <<< i)) else a) (0, 0)).2

/-- Power is lost while a stripe is programmed (R406, R424, R487): a free number of its bits is set, after the test-port fuse for the
module's FIELDED stripe (R409). -/
def cutProgramming (s : State) : State :=
  match s.wmk.busy with
  | none => s
  | some (u, t) =>
    let k := Config.programmed s.draws
    let f := s.fuses
    let first := if u = 16 && t = 2 then 8 else 0
    let f := if first = 8 then { f with testPort := f.testPort ||| BitVec.ofNat 8 (2 ^ min k 8 - 1) } else f
    let f := f.setStripe u (t - 1) (f.stripe u (t - 1) ||| lowOnes (stripeConst u (t - 1)) (k - first))
    { s with fuses := f, draws := s.draws + 1, wmk := { s.wmk with busy := none } }

/-- Whether a write is a retry (R407): the unit is INVALID and the target is that of its one partial stripe. -/
def isRetry (s : State) (code target : Nat) : Bool :=
  match unitIndex code with
  | none => false
  | some u => s.fuses.decode u = 7 && target ≥ 1 && s.fuses.partials u = [target - 1]

/-- Pairs of R406. -/
def pairOk (vault : Bool) (cur target : Nat) : Bool :=
  if vault then (target = 1 && cur = 0) || (target = 2 && cur ≤ 1) || (target = 3 && cur ≤ 2)
  else (target ≤ 3 && target = cur + 1) || (target = 4 && cur ≤ 3)

/-- Preconditions of R406. The key fuses match their digest while they are as fused. -/
def transitionReady (s : State) (u target : Nat) : Bool :=
  if u = 17 then target = 3 || (s.lc = 0 && (target ≠ 2 || s.fuses.keysFused))
  else if target = 1 then s.vault = 2
  else if target = 2 then
    (if u = 16 then (activeOwner s).isSome && bootCaOk s && (List.range 16).all (fun k => !occupiedSite s k || s.siteLc k = 2) else s.lc = 1)
  else true

/-- Whether a path may ask for a transition in the module's state (R406) (DEDUCED, log 125). -/
def transitionPath (s : State) (p : Path) : Bool :=
  match p with
  | .mgmt _ => s.lc ≤ 3
  | .smbus => false
  | _ => s.lc ≤ 1

/-- A write of WMK_LC_CTL (R406, R407, R423, R485): refused with a RESULT, or its programming starts. In a module that is INVALID only a
retry is accepted. -/
def writeLcCtl (s : State) (p : Path) (code target : Nat) : State :=
  let refuse' := fun (r : Nat) => { s with wmk := { s.wmk with result := r } }
  let start := fun (u : Nat) => { s with wmk := { s.wmk with busy := some (u, target), busyAt := s.time, result := 0 } }
  if s.lc = 4 || (p = .smbus && !isRetry s code target) then s
  else if s.wmk.busy.isSome then refuse' 6
  else if isRetry s code target then start ((unitIndex code).getD 16)
  else match unitIndex code with
    | none => refuse' 1
    | some u =>
      if s.fuses.decode u = 7 || s.lc = 7 then refuse' 7
      else if !pairOk (u = 17) (s.fuses.decode u) target then refuse' 1
      else if s.chart.epoch ≠ 0 then refuse' 3
      else if !transitionPath s p then refuse' 2
      else if !transitionReady s u target then refuse' 4
      else start u

/-- LC_TRANSITION (R406). -/
def execLcTransition (path : Path) (unit : BitVec 8) (target : BitVec 3) (s : State) : Host.Outcome State Fault Refusal :=
  .next (if !pathUp s path then s else writeLcCtl s path unit.toNat target.toNat)

/-- LC_PROGRAM_DONE (R406, R408, R409, R422): programming ends, each bit after 10 µs; a bit that fails four times leaves the stripe partial. The
permissions the new state removes are withdrawn, and debug ends. -/
def execLcProgramDone (failAt : Option (Fin 64)) (s : State) : Host.Outcome State Fault Refusal :=
  .next (match s.wmk.busy with
  | none => s
  | some (u, t) =>
    if !s.pins.porN then s
    else
      let i := t - 1
      let c := stripeConst u i
      let old := s.fuses.stripe u i
      let f := if u = 16 && t = 2 then { s.fuses with testPort := 0xFF } else s.fuses
      let port := if u = 16 && t = 2 then ones 8 (~~~s.fuses.testPort).toNat else 0
      let fails := match failAt with | some b => c.getLsbD b && !old.getLsbD b | none => false
      if fails then
        let b := (failAt.getD 0).val
        let f := f.setStripe u i (old ||| (c &&& BitVec.ofNat 64 (2 ^ b - 1)))
        let s := advanceTo (s.wmk.busyAt + 10000 * (ones 64 (c &&& ~~~old &&& BitVec.ofNat 64 (2 ^ b - 1)).toNat + port + 4)) s
        let s := endDebug { s with fuses := f, wmk := { s.wmk with busy := none, result := 5 } }
        dropSessions s
      else
        let bits := ones 64 (c &&& ~~~old).toNat + port
        let s := advanceTo (s.wmk.busyAt + 10000 * bits) s
        let f := f.setStripe u i c
        let f := if u = 16 && t = 4 then destroyAll f else if u = 17 && t = 3 then destroyKeys f else f
        let s := endDebug { s with fuses := f, wmk := { s.wmk with busy := none, result := 0 } }
        let s := dropSessions s
        if u = 16 && t = 4 then scrapped s else s)

/-! ## Owner slots and the boot anchor (R410) -/

/-- Provisions an owner digest: the lowest unused slot, and then REVOKED in the slot active before (DEDUCED, log 124). -/
def provision (s : State) (i : Nat) (d : BitVec 384) : State :=
  let before := activeOwner s
  let f := s.fuses
  let f := { f with owners := Tab.set {} f.owners i { digest := d, valid := ownerValid } }
  let f := match before with
    | some j => { f with owners := Tab.modify {} f.owners j (fun o => { o with revoked := ownerRevoked }) }
    | none => f
  { s with fuses := f }

/-- A write of WMK_OWNER_CTL, in INTEGRATOR only (R410, R423). With no slot left, or an anchor already written, the RESULT is
PRECONDITION (DEDUCED, log 42). -/
def writeOwnerCtl (s : State) (op : Nat) : State :=
  let done := fun (s : State) (r : Nat) => { s with wmk := { s.wmk with result := r } }
  if s.lc ≠ 1 || op = 0 || op > 2 then s
  else if s.wmk.busy.isSome then done s 6
  else if op = 1 then
    match freeOwner s with
    | some i => done (provision s i s.wmk.stage) 0
    | none => done s 4
  else if s.fuses.bootCaValid ≠ 0 then done s 4
  else done { s with fuses := { s.fuses with bootCa := s.wmk.stage, bootCaValid := ownerValid } } 0

/-- Whether the WMK registers reserved in service take a write by a path (R423): in FIELDED and RETURNED from the management port
alone, in INVALID and SCRAPPED not at all. -/
def wmkWrite (s : State) (p : Path) : Bool :=
  pathUp s p && (match p with | .mgmt _ => s.lc ≤ 3 | .bar0 => s.lc ≤ 1 | _ => false)

/-- PROVISION_OWNER (R410). -/
def execProvisionOwner (path : Path) (s : State) : Host.Outcome State Fault Refusal := .next (if wmkWrite s path then writeOwnerCtl s 1 else s)

/-- PROVISION_BOOT_CA (R410). -/
def execProvisionBootCa (path : Path) (s : State) : Host.Outcome State Fault Refusal := .next (if wmkWrite s path then writeOwnerCtl s 2 else s)

/-! ## Measurement slots (R414) -/

/-- Extends a slot by data. -/
def extendSlot (s : State) (k : Nat) (d : List Byte) : State :=
  { s with wmk := { s.wmk with ms := Tab.set 0 s.wmk.ms k (sha384 (digestBytes (Tab.get 0 s.wmk.ms k) ++ digestBytes (sha384 d))) } }

/-- A write of WMK_MEAS_CTL with GO. A second GO while one runs is discarded (DESIGN CHOICE, log 43). -/
def writeMeasCtl (s : State) (len slot : Nat) : State :=
  if s.wmk.measBusy then s
  else if slot < 2 || slot > 5 then { s with wmk := { s.wmk with measLen := len, measSlot := slot, measResult := 3 } }
  else { s with wmk := { s.wmk with measLen := len, measSlot := slot, measBusy := true, measResult := 0 } }

/-- Whether every byte of a range lies in an HBM region or the scratch window: true if no line of it lies elsewhere. -/
def measurable (s : State) (pa n : Nat) : Bool :=
  (List.range ((pa % 128 + n + 127) / 128)).all (fun i => match s.cfg.locate (pa / 128 * 128 + 128 * i) with
    | .hbm _ _ _ => true
    | .scratch _ _ _ => true
    | _ => false)

/-- MEAS_EXTEND (R414). -/
def execMeasExtend (path : Path) (len : BitVec 32) (slot : BitVec 3) (s : State) : Host.Outcome State Fault Refusal :=
  .next (if !pathUp s path || path = .smbus || path = .testPort || s.lc ≥ 4 then s else writeMeasCtl s len.toNat slot.toNat)

/-- MEAS_EXTEND_DONE (R414, R423). A line no unit serves ends it as DENIED (PRESUMED, log 43). -/
def execMeasExtendDone (s : State) : Host.Outcome State Fault Refusal :=
  let pa := bits s.wmk.measAddr 49 0
  let n := s.wmk.measLen
  let ended := fun (s : State) (r : Nat) => { s with wmk := { s.wmk with measBusy := false, measResult := r } }
  .next (if s.quiet || !s.wmk.measBusy then s
  else if !measurable s pa n then ended s 1
  else match ({ tag := 0x66000 } : Hub).read (n / 128 + 2) s pa n with
    | (s, .hold) => s
    | (s, .fail 2 _) => ended (releaseTag s 0x66000) 2
    | (s, .fail _ _) => ended (releaseTag s 0x66000) 1
    | (s, .ok bs) => ended (extendSlot s s.wmk.measSlot bs) 0)

/-! ## Nonces and tokens (R418, R419) -/

/-- A new nonce, drawn from the DRBG. -/
def genNonce (s : State) : State :=
  { s with draws := s.draws + 1, wmk := { s.wmk with nonce := Config.drbg s.draws, nonceAt := some s.time } }

/-- GEN_NONCE (R419). -/
def execGenNonce (path : Path) (s : State) : Host.Outcome State Fault Refusal := .next (if wmkWrite s path then genNonce s else s)

/-- NONCE_EXPIRY (R419): 10 minutes after it was generated. -/
def execNonceExpiry (s : State) : Host.Outcome State Fault Refusal :=
  .next (match s.wmk.nonceAt with
  | none => s
  | some t => if !s.pins.porN then s else
    let s := advanceTo (t + 600000000000) s
    { s with wmk := { s.wmk with nonce := 0, nonceAt := none } })

/-- Byte `n` on of the token window, and a field of it. -/
def tokenBytes (s : State) (off n : Nat) : List Byte := (List.range n).map (fun i => Tab.get 0 s.wmk.token (off + i))
def tokenLe (s : State) (off n : Nat) : Nat := leNat (tokenBytes s off n)

/-- Checks 1 and 2 of a token: MAGIC, FORMAT, SIGNER and what must be zero or in range (R418; that values outside their ranges are
FORMAT is DEDUCED, log 44). -/
def tokenFormat (s : State) : Bool :=
  let f := tokenLe s
  let debug := f 0 4 = 0x4344475A
  let transfer := f 0 4 = 0x544F475A
  (debug || transfer) && f 4 2 = 1 && (f 6 1 = 1 || f 6 1 = 2) && f 7 1 = 0 && f 0x3A 2 = 0 && f 0xD1 7 = 0 && f 0x30 8 / 128 = 0 &&
    (if debug then 1 ≤ f 0x3C 4 && f 0x3C 4 ≤ 604800 && f 0x40 48 = 0 else f 6 1 = 2 && f 0x30 8 = 0 && f 0x3C 4 = 0)

/-- Whether the states of module and vault permit a token (R404, R419 step 4). DEBUG_POLICY bears on debug tokens alone (DEDUCED, log 44). -/
def tokenState (s : State) (debug : Bool) (signer : Nat) : Bool :=
  let policy := match s.chart.applied with | some c => c.sec.debugPolicy | none => 0
  if !debug then s.lc = 2
  else if s.lc = 3 then signer = 1 && (s.vault = 2 || s.vault = 3)
  else s.lc = 2 && s.vault = 2 && (policy = 3 || policy = signer)

/-- Whether a nonce is outstanding: one is for 10 minutes (R419). -/
def nonceLive (s : State) : Bool := match s.wmk.nonceAt with | some t => s.time < t + 600000000000 | none => false

/-- The result of a token's checks (R419): 0 if it is accepted. -/
def tokenCheck (s : State) : Nat :=
  let f := tokenLe s
  let debug := f 0 4 = 0x4344475A
  let signer := f 6 1
  let key := tokenBytes s 0x70 97
  let kd := sha384 key
  let owner := (activeOwner s).map (fun i => (s.owner i).digest)
  let listed : Bool :=
    if signer = 1 then kd = Config.debugKey
    else if debug then (match s.chart.applied with | some c => c.sec.debugSigner ≠ 0 && c.sec.debugSigner = kd | none => false)
    else owner = some kd
  if !tokenFormat s then 1
  else if f 8 8 ≠ s.fuses.serial.toNat then 2
  else if !nonceLive s || f 0x10 32 ≠ s.wmk.nonce.toNat then 3
  else if !tokenState s debug signer then 4
  else if !listed then 5
  else if !ecdsaOk key (sha384 (tokenBytes s 0 0xD8)) (beNat (tokenBytes s 0xD8 48)) (beNat (tokenBytes s 0x108 48)) then 6
  else if !debug && (freeOwner s).isNone then 7
  else 0

/-- A presentation: the nonce is consumed; a debug token grants its rights, a transfer token provisions its PAYLOAD. -/
def presentToken (s : State) : State :=
  let r := tokenCheck s
  let f := tokenLe s
  let s1 := { s with wmk := { s.wmk with nonce := 0, nonceAt := none, tokenResult := r } }
  if r ≠ 0 then s1
  else if f 0 4 = 0x4344475A then
    { s1 with wmk := { s1.wmk with
      rights := BitVec.ofNat 64 (f 0x30 8), dbgSites := BitVec.ofNat 16 (f 0x38 2), dbgUntil := some (s.time + 1000000000 * f 0x3C 4),
      grantsEpoch := s.wmk.grantsEpoch + 1, grantsPor := s.wmk.grantsPor + 1 } }
  else match freeOwner s with
    | some i => provision s1 i (BitVec.ofNat 384 (beNat (tokenBytes s 0x40 48)))
    | none => s1

/-- TOKEN_PRESENT (R419). -/
def execTokenPresent (path : Path) (s : State) : Host.Outcome State Fault Refusal := .next (if wmkWrite s path then presentToken s else s)

/-- DEBUG_LOCK (R422). -/
def execDebugLock (path : Path) (s : State) : Host.Outcome State Fault Refusal := .next (if wmkWrite s path then endDebug s else s)

/-- DEBUG_SESSION_EXPIRY (R422): VALID_S after acceptance. -/
def execDebugSessionExpiry (s : State) : Host.Outcome State Fault Refusal :=
  .next (match s.wmk.dbgUntil with
  | none => s
  | some t => if !s.pins.porN then s else endDebug (advanceTo t s))

/-! ## Debug accesses (R405, R420, R421) -/

/-- Rights and sites in force (R420): every one where debug is open, else those of a token. -/
def rightsNow (s : State) : BitVec 64 := if debugOpen s then 0x7F else s.wmk.rights
def sitesNow (s : State) : BitVec 16 := if debugOpen s then 0xFFFF else s.wmk.dbgSites

/-- A core of an occupied slice (R421). -/
def coreOccupied (s : State) (c : Nat) : Bool := (sliceOfCore s c).any (occupied s)

/-- Whether a region's READ_MASK names an occupied slice (R412, R421). -/
def regionOccupied (s : State) (r : Region) : Bool := (List.range 64).any (fun n => r.readMask.getLsbD n && occupied s n)

/-- Whether a line is out of reach of debug and of the management port (R412, R421): in a region an occupied slice reads, or in a way one
owns. -/
def lineOccupied (s : State) (pa : Nat) : Bool :=
  match s.cfg.locate pa with
  | .unmapped => false
  | .scratch j w _ => occupied s (wayOwner s j w)
  | .hbm r ch ca =>
    regionOccupied s r || (match (if llaOn s then lookup s (ch / 8) (llaSet ch ca) (pa / 128) else none) with
      | some w => occupied s (wayOwner s (ch / 8) w)
      | none => false)
  | .remote r _ _ => regionOccupied s r

/-- The Felt cores of an H-site are out of reach while an occupied slice is named by a region they reach (R421) (DEDUCED, log 126). -/
def feltOccupied (s : State) (h : Nat) : Bool :=
  s.cfg.regions.any (fun r => (r.hostAccess.testBit (2 * h) || r.hostAccess.testBit (2 * h + 1)) && regionOccupied s r)

/-- The first addresses of the lines of a span. -/
def spanLinesOf (pa n : Nat) : List Nat := (List.range ((pa % 128 + n + 127) / 128)).map (fun i => pa / 128 * 128 + 128 * i)

def debugDenied (s : State) : State := emit s (.debug true [])
def debugData (s : State) (bs : List Byte) : State := emit s (.debug false bs)

/-- A core reached by CORE_DEBUG, by its logical number: none where the access is refused. -/
def debugCore (s : State) (n : Nat) : Option Nat :=
  if !(rightsNow s).getLsbD 0 then none else (coreOf s n).filter (fun c => !coreOccupied s c && (s.core c).st ≠ .retired)

/-- The raw array is out of reach where an occupied slice owns the way or the line it holds may be read by one (R421). -/
def wayOccupied (s : State) (j st w : Nat) : Bool :=
  let l := s.way j st w
  occupied s (wayOwner s j w) || (l.valid && lineOccupied s (l.tag * 128))

/-- What a debug read of a core's state gives. -/
def debugReadReg (s : State) (c : Nat) : CoreReg → List Byte
  | .v r => leBytes 1024 ((s.core c).vr r.toNat).toNat
  | .p r => leBytes 32 ((s.core c).pr r.toNat).toNat
  | .w i => [Tab.get 0 (s.core c).w i.toNat]
  | .ws i => [Tab.get 0 (s.core c).ws i.toNat]
  | .acc i => leBytes 4 (Tab.get 0 (s.core c).acc i.toNat).toNat
  | .pc => leBytes 8 (s.core c).pc.toNat
  | .csr n => leBytes 8 (readCsr s c (s.core c) n.toNat).toNat
  | .sem k => leBytes 4 ((s.core c).sems k.toNat)

/-- A debug write of a core's state: P0 takes none, the PC stays bundle-aligned, a control register takes what CSRW would write (R63, R65). -/
def debugWriteReg (x : Core) (v : BitVec 8192) : CoreReg → Core
  | .v r => { x with v := Tab.set 0 x.v r.toNat v }
  | .p r => if r = 0 then x else { x with p := Tab.set 0 x.p r.toNat (v.setWidth 256) }
  | .w i => { x with w := Tab.set 0 x.w i.toNat (v.setWidth 8) }
  | .ws i => { x with ws := Tab.set 0 x.ws i.toNat (v.setWidth 8) }
  | .acc i => { x with acc := Tab.set 0 x.acc i.toNat (v.setWidth 32) }
  | .pc => { x with pc := v.setWidth 18 &&& ~~~63#18 }
  | .csr n => writeCsr x n.toNat (v.setWidth 64)
  | .sem k => x.setSem k.toNat (v.toNat % 2 ^ 32)

/-- A single step: a HALTED core issues the bundle at its PC and halts again. -/
def stepCore (s : State) (c : Nat) : State :=
  let x := s.core c
  if x.st ≠ .halted || !siteUp s (c / 24) || !s.clk.rootLock then s
  else
    let s := issue (setCore s c { x with st := .running, hold := .none }) c (bundleAt x) .none
    let y := s.core c
    setCore s c (if y.st = .running || y.st = .waiting then { y with st := .halted, hold := .none } else y)

/-- The header capture of TRACE and what a chiplet answers are not the hub's (R420): a free value. -/
def debugForeign (s : State) : State := debugData { s with draws := s.draws + 1 } (leBytes 8 (Config.foreign s.draws).toNat)

/-- DEBUG_ACCESS (R405, R420, R421): made under the rights in force, or refused with DENIED. In the safe state debug has ended. -/
def execDebugAccess (a : DebugAcc) (s : State) : Host.Outcome State Fault Refusal :=
  let right := fun i => (rightsNow s).getLsbD i
  let onCore := fun (n : Nat) (f : Nat → State) => match debugCore s n with | some c => f c | none => debugDenied s
  .next (if !s.pins.porN then s else if s.fcu.safe || s.lc ≥ 4 then debugDenied s
  else match a with
    | .coreHalt n => onCore n (fun c =>
        let s := haltReq s c
        debugData { s with wmk := { s.wmk with dbgCores := if s.wmk.dbgCores.contains c then s.wmk.dbgCores else c :: s.wmk.dbgCores } } [])
    | .coreStep n => onCore n (fun c => debugData (settleAll (stepCore s c)) [])
    | .coreReadX n x => onCore n (fun c => debugData s (leBytes 8 (if x = 0 then 0 else (Tab.get 0 (s.core c).x x.toNat).toNat)))
    | .coreWriteX n x v => onCore n (fun c => debugData (if x = 0 then s else setCore s c { s.core c with x := Tab.set 0 (s.core c).x x.toNat v }) [])
    | .coreRead n r => onCore n (fun c => debugData s (debugReadReg s c r))
    | .coreWrite n r v => onCore n (fun c => debugData (setCore s c (debugWriteReg (s.core c) v r)) [])
    | .tileRead n addr len => onCore n (fun c => debugData s (tileBytes s c addr.toNat (min len.toNat (tileSize - addr.toNat))))
    | .tileWrite n addr data => onCore n (fun c => debugData (writeTile s c addr.toNat (data.take (tileSize - addr.toNat)) (fun _ => true)) [])
    | .imemRead n addr len => onCore n (fun c => debugData s ((List.range (min len.toNat (262144 - addr.toNat))).map (fun i => Tab.get 0 (s.core c).imem (addr.toNat + i))))
    | .imemWrite n addr data => onCore n (fun c => debugData (setCore s c { s.core c with imem := storeMasked (s.core c).imem addr.toNat (fun _ => true) 0 (data.take (262144 - addr.toNat)) }) [])
    | .felt h => if right 1 && (sitesNow s).getLsbD (6 + h) && !feltOccupied s h then debugForeign s else debugDenied s
    | .memRead addr len =>
      if !right 2 || (spanLinesOf addr.toNat len.toNat).any (lineOccupied s) then debugDenied s
      else (match ({ tag := 0x66001, reg := 65 } : Hub).read 4 s addr.toNat len.toNat with
        | (s, .ok bs) => debugData s bs
        | (s, .fail _ _) => debugDenied (releaseTag s 0x66001)
        | (s, .hold) => s)
    | .memWrite addr data =>
      if !right 3 || (spanLinesOf addr.toNat data.length).any (lineOccupied s) then debugDenied s
      else (match ({ tag := 0x66001, reg := 65 } : Hub).write 4 s addr.toNat data with
        | (s, .ok _) => debugData s []
        | (s, .fail _ _) => debugDenied (releaseTag s 0x66001)
        | (s, .hold) => s)
    | .wayRead j st w =>
      if right 2 && !wayOccupied s j st.toNat w then debugData s (lineBytes (s.way j st.toNat w).data) else debugDenied s
    | .wayWrite j st w d =>
      if right 3 && !wayOccupied s j st.toNat w then debugData (setWay s j st.toNat w { s.way j st.toNat w with data := d }) [] else debugDenied s
    | .trace n => if right 4 then (if occupied s n.toNat then debugData s [] else debugForeign s) else debugDenied s
    | .sideband k off data =>
      let reach := s.siteLc k ≤ 1 || (right 5 && (sitesNow s).getLsbD k)
      let shut := if k.val < 6 then (List.range 24).any (fun n => coreOccupied s (24 * k + n)) else if k.val < 8 then feltOccupied s (k - 6) else false
      if reach && !shut then debugData (emit s (.sideband k off.toNat data)) [] else debugDenied s
    | .wmkDiag => if right 6 then debugData s (s.fcu.hist.flatMap FaultRec.bytes) else debugDenied s)

/-- ENTROPY_HEALTH_FAIL (R440): source 1502. -/
def execEntropyHealthFail (s : State) : Host.Outcome State Fault Refusal := .next (if s.pins.porN then raise s 1502 {} else s)

end Sys2Proof.Machine
end

