-- ==== Sys2Proof/Machine/Chart.lean ====
section
/-!
DEFINITION. The Chart image (R34–R50) and its verification (R53, R61): the header and signature block, the section table and framing,
the owner key and signature, and the field checks section by section. A failure is a code of R61, a section index and an image offset.
-/
namespace Sys2Proof.Machine

/-- A failure: code, ERR_SECTION, ERR_OFFSET. -/
abbrev ChartErr := Nat × Nat × Nat

/-- A check: whether it holds, and the code and offset it is reported with. -/
abbrev ChartCheck := Bool × Nat × Nat

/-- The first check that fails. -/
def firstBad (cs : List ChartCheck) : Option (Nat × Nat) := (cs.find? (fun c => !c.1)).map (·.2)

/-- Reserved bytes are zero: FIELD at the first that is not (its place is DEDUCED, log 45). -/
def zeroAt (img : List Byte) (off n : Nat) : List ChartCheck :=
  match (sub img off n).findIdx? (· ≠ 0) with
  | some i => [(false, 0x0E, off + i)]
  | none => []

/-- Reserved bytes inside a section, reported at the first of them (DEDUCED, log 45). -/
def rsv (img : List Byte) (off n : Nat) : ChartCheck := ((sub img off n).all (· = 0), 0x0E, off)

/-- The bytes of the staging buffer up to `n`, from a sorted table. -/
def denseBytes (pos : Nat) (t : Tab Byte) : Nat → List Byte
  | 0 => []
  | n + 1 => match t with
    | (k, v) :: r => if k = pos then v :: denseBytes (pos + 1) r n else if k < pos then 0 :: denseBytes (pos + 1) r n else 0 :: denseBytes (pos + 1) ((k, v) :: r) n
    | [] => 0 :: denseBytes (pos + 1) [] n

/-! ## Header, signature block and framing (steps 1 to 3) -/

/-- IMAGE_SIZE of the staged image, and whether it is allowed (R34). -/
def ChartBlk.size (b : ChartBlk) : Nat := leNat ((List.range 4).map (fun i => Tab.get 0 b.buf (8 + i)))
def sizeOk (n : Nat) : Bool := 0x188 ≤ n && n ≤ 0x400000 && n % 8 = 0

/-- Step 1 (R35, R38, R53), the size apart. -/
def headerChecks (img : List Byte) (sb : Nat) : List ChartCheck :=
  let hdr := splice (img.take 128) 0x20 [0, 0, 0, 0]
  ([(le img 0 4 = 0x4843475A, 2, 0), (le img sb 4 = 0x4753475A, 2, 0), (le img 4 2 = 1, 3, 4), (le img 6 2 = 0x80, 3, 6),
   (le img (sb + 4) 2 = 1, 3, sb + 4), (crc32c hdr = le img 0x20 4, 4, 0)] : List ChartCheck) ++
  zeroAt img 0x24 92 ++ zeroAt img (sb + 6) 2 ++ zeroAt img (sb + 0x69) 7 ++ zeroAt img (sb + 0xD0) 48

/-- A section: its type, index in the table, first byte of the body, body length. -/
structure Sect where
  typ : Nat
  idx : Nat
  body : Nat
  len : Nat
  deriving DecidableEq, Repr

/-- Sections of the table, as it points to them. -/
def sections (img : List Byte) : List Sect :=
  (List.range (le img 0x0C 2)).map (fun i =>
    let off := le img (0x84 + 8 * i) 4
    { typ := le img (0x80 + 8 * i) 2, idx := i, body := off + 8, len := le img (off + 4) 4 })

/-- End of a section, its CRC and padding included. -/
def Sect.stop (x : Sect) : Nat := (x.body + x.len + 4 + 7) / 8 * 8

/-- The table and placement rules of one entry (R37). -/
def entryChecks (img : List Byte) (sb : Nat) (before : List Sect) (x : Sect) : List ChartCheck :=
  let e := 0x80 + 8 * x.idx
  let off := x.body - 8
  [rsv img (e + 2) 2, (off % 8 = 0 && 0x80 + 8 * le img 0x0C 2 ≤ off && off + 8 ≤ sb, 7, e + 4), (le img off 2 = x.typ, 7, off),
   (x.stop ≤ sb, 7, off + 4), (before.all (fun y => x.stop ≤ y.body - 8 || y.stop ≤ off), 7, e + 4)]

/-- Body lengths (R39). -/
def lengthOk (t n : Nat) : Bool :=
  let var := fun (hdr r lo hi : Nat) => hdr ≤ n && (n - hdr) % r = 0 && lo ≤ (n - hdr) / r && (n - hdr) / r ≤ hi
  match t with
  | 1 => n = 128
  | 2 => var 0 48 1 16
  | 3 => n = 768
  | 4 => var 0 24 0 1024
  | 5 => var 16 16 0 69
  | 6 => n = 8
  | 7 => var 0 40 1 64
  | 8 => var 8 8 0 128
  | 9 => n = 192
  | 10 => n = 64
  | 11 => n = 192
  | _ => true

/-- First failure over a list of things, each with its section index. -/
def firstIn {α : Type} (l : List α) (idx : α → Nat) (checks : α → List ChartCheck) : Option ChartErr :=
  l.findSome? (fun x => (firstBad (checks x)).map (fun f => (f.1, idx x, f.2)))

/-- Section types (R39): unknown or repeated at the section, a missing one nowhere. -/
def typeChecks (secs : List Sect) : Option ChartErr :=
  (firstIn secs (·.idx) (fun x => [((x.typ ≥ 0x8000 || (1 ≤ x.typ && x.typ ≤ 11)) && (secs.take x.idx).all (fun y => y.typ ≠ x.typ), 9, x.body - 8)])).orElse
    (fun _ => if [1, 2, 7, 9, 10, 11].all (fun t => secs.any (fun x => x.typ = t)) then none else some (9, 0xFF, 0))

/-- Step 3 (R37, R39, R53). That types, lengths and versions come before every CRC is DEDUCED (log 45). -/
def frameErr (img : List Byte) (sb : Nat) : Option ChartErr :=
  let n := le img 0x0C 2
  let secs := sections img
  let known := secs.filter (fun x => x.typ < 0x8000)
  if n < 1 || n > 64 || 0x80 + 8 * n > sb then some (7, 0xFF, 0x0C)
  else
    ((((firstIn secs (·.idx) (fun x => entryChecks img sb (secs.take x.idx) x)).orElse
      (fun _ => typeChecks secs)).orElse
      (fun _ => firstIn known (·.idx) (fun x => [(lengthOk x.typ x.len, 10, x.body - 4)]))).orElse
      (fun _ => firstIn known (·.idx) (fun x => [(le img (x.body - 6) 2 = 1, 3, x.body - 6)]))).orElse
      (fun _ => firstIn secs (·.idx) (fun x =>
        ([(crc32c (sub img (x.body - 8) (x.len + 8)) = le img (x.body + x.len) 4, 8, x.body + x.len)] : List ChartCheck) ++
        zeroAt img (x.body + x.len + 4) (x.stop - (x.body + x.len + 4))))

/-! ## Sections as data -/

/-- Records of a section after a header of `hdr` bytes: their offsets in the image. -/
def recordsAt (x : Sect) (hdr size : Nat) : List Nat := (List.range ((x.len - hdr) / size)).map (fun i => x.body + hdr + size * i)

/-- The section of a type. -/
def sectOf (secs : List Sect) (t : Nat) : Option Sect := secs.find? (fun x => x.typ = t)
def offsets (secs : List Sect) (t hdr size : Nat) : List Nat := match sectOf secs t with | some x => recordsAt x hdr size | none => []

def parseSite (img : List Byte) (o : Nat) : SiteRec := { enable := le img o 1, expect := le img (o + 1) 1, degradedOk := le img (o + 2) 1 }

def parseRegion (img : List Byte) (o : Nat) : Region :=
  let attr := le img (o + 6) 2
  { num := le img o 1, interleave := le img (o + 1) 1, target := le img (o + 2) 1,
    granule := (match le img (o + 3) 1 with | 0 => 256 | 1 => 512 | _ => 4096),
    hash := le img (o + 4) 1 = 1, cache := le img (o + 5) 1 = 1, remoteCacheable := attr.testBit 0, scrub := attr.testBit 1,
    sharedRo := attr.testBit 2, stash := attr.testBit 3, base := le img (o + 8) 8, size := le img (o + 16) 8,
    readMask := BitVec.ofNat 64 (le img (o + 24) 8), writeMask := BitVec.ofNat 64 (le img (o + 32) 8), owner := le img (o + 40) 1,
    hostAccess := le img (o + 41) 1 }

def parseLla (img : List Byte) (o : Nat) : LlaPlan :=
  { modes := BitVec.ofNat 32 (le img o 4), owners := BitVec.ofNat 128 (le img (o + 8) 16) }

def parseFlow (img : List Byte) (o : Nat) : Flow :=
  { flow := le img o 2, net := le img (o + 2) 1, slice := le img (o + 3) 1, srcCol := le img (o + 4) 1, srcRow := le img (o + 5) 1,
    dstCol := le img (o + 6) 1, dstRow := le img (o + 7) 1, slots := BitVec.ofNat 128 (le img (o + 8) 16) }

def parseReg (img : List Byte) (o : Nat) : RegRec :=
  { reg := le img o 1, weight := le img (o + 2) 2, weightMax := le img (o + 4) 2, guar := le img (o + 8) 4, guarMax := le img (o + 12) 4 }

def parseSlice (img : List Byte) (o : Nat) : SliceRec :=
  { slice := le img o 1, squash := (le img (o + 1) 1).testBit 0, share := le img (o + 2) 2, qFirst := le img (o + 4) 2, qCount := le img (o + 6) 2,
    regionMask := BitVec.ofNat 16 (le img (o + 8) 2), cores := BitVec.ofNat 144 (le img (o + 16) 18) }

def parsePort (img : List Byte) (o : Nat) : PortRec :=
  { port := le img o 1, width := le img (o + 1) 1, axis := le img (o + 2) 1, traffic := le img (o + 3) 1, medium := le img (o + 4) 1 }

def parseSecurity (img : List Byte) (o : Nat) : Security :=
  { mgmtEnable := le img o 1, mgmtAddr := le img (o + 1) 1, mgmtPrefix := le img (o + 2) 1, debugPolicy := le img (o + 3) 1,
    mgmtIpv4 := le img (o + 4) 4, mgmtGw := le img (o + 8) 4, mgmtCa := BitVec.ofNat 384 (beNat (sub img (o + 0x10) 48)),
    debugSigner := BitVec.ofNat 384 (beNat (sub img (o + 0x40) 48)) }

/-- The whole image as data, absent sections at the defaults of R39. -/
def parseChart (img : List Byte) : Chart :=
  let secs := sections img
  let d : Chart := {}
  let lla : List (Nat × Nat) := (offsets secs 3 0 24).zipIdx
  { version := BitVec.ofNat 64 (le img 0x18 8), hash := sha384 img,
    sites := (offsets secs 1 0 8).map (parseSite img), regions := (offsets secs 2 0 48).map (parseRegion img),
    lla := lla.foldl (fun t p => Tab.set {} t p.2 (parseLla img p.1)) [],
    flows := (offsets secs 4 0 24).map (parseFlow img),
    throttleLevel := (match sectOf secs 5 with | some x => le img x.body 1 | none => d.throttleLevel),
    slackNs := (match sectOf secs 5 with | some x => le img (x.body + 4) 4 | none => d.slackNs),
    ageLimitNs := (match sectOf secs 5 with | some x => le img (x.body + 8) 4 | none => d.ageLimitNs),
    regs := (offsets secs 5 16 16).map (parseReg img),
    strict := (match sectOf secs 6 with | some x => le img x.body 1 = 1 | none => false),
    slices := (offsets secs 7 0 40).map (parseSlice img),
    ethertype := (match sectOf secs 8 with | some x => le img x.body 2 | none => d.ethertype),
    moduleId := (match sectOf secs 8 with | some x => le img (x.body + 2) 2 | none => d.moduleId),
    keepaliveMs := (match sectOf secs 8 with | some x => le img (x.body + 4) 1 | none => d.keepaliveMs),
    ports := (offsets secs 8 8 8).map (parsePort img),
    ivr := (offsets secs 9 0 4).map (fun o => le img o 2), react := (offsets secs 10 0 1).map (fun o => le img o 1),
    sec := (match sectOf secs 11 with | some x => parseSecurity img x.body | none => {}) }

/-! ## The field checks (step 6), in the order R40 to R50 -/

/-- A list with, for each entry, the entries before it. -/
def withBefore {α : Type} (l : List α) : List (List α × α) := l.zipIdx.map (fun p => (l.take p.2, p.1))

/-- R40 and R405: FIELD for a value of its own, SITE_MISMATCH for the rest. -/
def siteChecks (s : State) (img : List Byte) (o k : Nat) : List ChartCheck :=
  let en := le img o 1
  let ex := le img (o + 1) 1
  let code := siteCode s k
  ([(en ≤ 1, 0x0E, o), (le img (o + 2) 1 ≤ 1, 0x0E, o + 2), rsv img (o + 3) 5] : List ChartCheck) ++
  (if k < 8 then [(en = 0 || (ex = code && (code = 1 || code = 2 || code = 8 || code = 9)), 0x0F, o + 1)]
   else [(en = 1, 0x0F, o), (ex = 0, 0x0F, o + 1)]) ++
  [(en = 0 || (s.siteLc k ≠ 3 && s.siteLc k ≠ 4 && s.siteLc k ≠ 7), 0x0F, o)]

/-- Stacks of a region's channel set (R150): every set is a union of whole stacks. -/
def stacksOf (r : Region) : List Nat :=
  match r.interleave with
  | 0 => List.range 8
  | 1 => [0, 1, 2, 3]
  | 2 => [4, 5, 6, 7]
  | 3 => [r.target]
  | 4 => [(nearStacks r.target).1, (nearStacks r.target).2]
  | _ => []

/-- Channel addresses of a region (R152): first, and one past the last. -/
def Region.chanSpan (r : Region) : Nat × Nat := (r.baseCh, r.baseCh + r.size / chanCount r.interleave)

/-- R41, R149 and R152 for one record, with the regions before it. -/
def regionChecks (img : List Byte) (slices : List SliceRec) (before : List (Nat × Region)) (o : Nat) (r : Region) : List ChartCheck :=
  let gib := 1073741824
  let attr := le img (o + 6) 2
  let remote := r.interleave = 5
  let targetMax := match r.interleave with | 3 => 7 | 4 => 7 | 5 => 1 | _ => 0
  let (lo, hi) := if remote then (remoteBase, 2 ^ 50) else (0, scratchBase)
  ([(r.num ≤ 15, 0x0E, o), (before.all (fun q => q.2.num ≠ r.num), 0x10, o), (r.interleave ≤ 5, 0x0E, o + 1), (r.target ≤ targetMax, 0x0E, o + 2),
   (le img (o + 3) 1 ≤ (if remote then 0 else 2), 0x0E, o + 3), (le img (o + 4) 1 ≤ 1, 0x0E, o + 4), (le img (o + 5) 1 ≤ 1, 0x0E, o + 5),
   (attr ≤ 15, 0x0E, o + 6), (remote || !r.remoteCacheable, 0x0E, o + 6), (r.base % gib = 0, 0x0E, o + 8),
   (r.size ≠ 0 && r.size % gib = 0, 0x0E, o + 16), (lo ≤ r.base && r.base + r.size ≤ hi, 0x0E, o + 8),
   (if r.sharedRo then r.owner ≤ 63 else r.owner = 0xFF, 0x0E, o + 40), (r.hostAccess ≤ 15, 0x0E, o + 41), rsv img (o + 42) 6,
   (r.writeMask &&& ~~~r.readMask = 0, 0x10, o + 32), (!r.sharedRo || r.writeMask = 0, 0x10, o + 32),
   (!r.sharedRo || slices.any (fun x => x.slice = r.owner), 0x10, o),
   (before.all (fun q => r.base + r.size ≤ q.2.base || q.2.base + q.2.size ≤ r.base), 0x10, o)] : List ChartCheck) ++
  (if remote then ([] : List ChartCheck) else
    [(r.chanSpan.2 ≤ 4294967296, 0x10, o + 8),
     (before.all (fun q => q.2.interleave = 5 || (stacksOf q.2).all (fun m => !(stacksOf r).contains m) ||
        r.chanSpan.2 ≤ q.2.chanSpan.1 || q.2.chanSpan.2 ≤ r.chanSpan.1), 0x10, o)])

/-- R42 for one home slice. An owner byte other than 0xFF on a CACHE way breaks R42 and is reported so, not as FIELD (DESIGN CHOICE, log 140). -/
def llaChecks (img : List Byte) (slices : List SliceRec) (o : Nat) : List ChartCheck :=
  let mode := fun (w : Nat) => (le img o 4 >>> (2 * w)) % 4
  let owner := fun (w : Nat) => le img (o + 8 + w) 1
  ((List.range 16).map (fun w => ((mode w ≠ 3, 0x0E, o) : ChartCheck))) ++ [rsv img (o + 4) 4] ++
  ((List.range 16).map (fun w => if mode w = 0 then ((owner w = 0xFF, 0x11, o + 8 + w) : ChartCheck) else (slices.any (fun x => x.slice = owner w), 0x11, o)))

/-- One step of a coordinate towards another. -/
def toward (a b : Nat) : Nat := if a < b then a + 1 else a - 1

/-- Coordinates from `a` to `b`, `b` left out, at most `n` of them. -/
def walkTo (a b : Nat) : Nat → List Nat
  | 0 => []
  | n + 1 => if a = b then [] else a :: walkTo (toward a b) b n

/-- Directed links of a flow, hop by hop (R43): the router left and the direction (0 east, 1 west, 2 south, 3 north); the ejection port, 4,
counts as the last hop (R260). -/
def Flow.links (f : Flow) : List (Nat × Nat × Nat) :=
  (walkTo f.srcCol f.dstCol 16).map (fun c => (c, f.srcRow, if f.srcCol < f.dstCol then 0 else 1)) ++
  (walkTo f.srcRow f.dstRow 12).map (fun r => (f.dstCol, r, if f.srcRow < f.dstRow then 2 else 3)) ++ [(f.dstCol, f.dstRow, 4)]

/-- Whether two flows hold one link in one slot (R43) (DEDUCED, log 92). -/
def Flow.clash (f g : Flow) : Bool :=
  f.net = g.net && f.links.zipIdx.any (fun p => g.links.zipIdx.any (fun q =>
    p.1 = q.1 && f.slots.rotateLeft (2 * p.2) &&& g.slots.rotateLeft (2 * q.2) ≠ 0))

/-- R43 for one flow. -/
def flowChecks (o : Nat) (before : List Flow) (f : Flow) : List ChartCheck :=
  [(f.net ≤ 6, 0x0E, o + 2), (f.slice ≤ 63 || f.slice = 0xFF, 0x0E, o + 3), (f.srcCol ≤ 15 && f.srcRow ≤ 11, 0x0E, o + 4),
   (f.dstCol ≤ 15 && f.dstRow ≤ 11, 0x0E, o + 6), (before.all (fun g => g.flow ≠ f.flow), 0x12, o), (before.all (fun g => !f.clash g), 0x12, o)]

/-- R44 for its header and one record. WEIGHT beyond WEIGHT_MAX and GUAR beyond GUAR_MAX are values outside their own ranges, reported as FIELD
(DESIGN CHOICE, log 140). -/
def regHeadChecks (img : List Byte) (o : Nat) : List ChartCheck :=
  [(1 ≤ le img o 1 && le img o 1 ≤ 7, 0x0E, o), rsv img (o + 1) 3, (100 ≤ le img (o + 4) 4 && le img (o + 4) 4 ≤ 100000, 0x0E, o + 4),
   (1000 ≤ le img (o + 8) 4 && le img (o + 8) 4 ≤ 1000000, 0x0E, o + 8), rsv img (o + 12) 4]
def regChecks (img : List Byte) (o : Nat) (before : List RegRec) (r : RegRec) : List ChartCheck :=
  [(r.reg ≤ 68, 0x0E, o), rsv img (o + 1) 1, (1 ≤ r.weight && r.weight ≤ r.weightMax, 0x0E, o + 2), (1 ≤ r.weightMax, 0x0E, o + 4), rsv img (o + 6) 2,
   (r.guar ≤ r.guarMax, 0x0E, o + 8), (before.all (fun q => q.reg ≠ r.reg), 0x13, o),
   ((before.map (·.guarMax)).sum + r.guarMax ≤ 22000, 0x13, o)]

/-- R45. -/
def isolationChecks (img : List Byte) (o : Nat) (c : Chart) : List ChartCheck :=
  [(le img o 1 ≤ 1, 0x0E, o), rsv img (o + 1) 7,
   (!c.strict || c.slices.all (fun x => c.regs.any (fun r => r.reg = x.slice && r.guarMax > 0)), 0x13, o)]

/-- R46 and R432 for one slice. -/
def sliceChecks (s : State) (img : List Byte) (regions : List Region) (o : Nat) (before : List SliceRec) (x : SliceRec) : List ChartCheck :=
  [(x.slice ≤ 63, 0x0E, o), (le img (o + 1) 1 ≤ 1, 0x0E, o + 1), (x.qFirst ≤ 4095, 0x0E, o + 4), (x.qCount ≤ 4096 - x.qFirst, 0x0E, o + 6),
   rsv img (o + 10) 6, (x.cores.toNat >>> s.glb.logical.length = 0, 0x0E, o + 16), rsv img (o + 34) 6,
   (before.all (fun y => y.slice ≠ x.slice), 0x11, o), (before.all (fun y => y.cores &&& x.cores = 0), 0x11, o),
   (x.qCount = 0 || before.all (fun y => y.qCount = 0 || x.qFirst + x.qCount ≤ y.qFirst || y.qFirst + y.qCount ≤ x.qFirst), 0x11, o),
   ((before.map (·.share)).sum + x.share ≤ 1024, 0x11, o),
   (regions.all (fun r => !r.readMask.getLsbD x.slice || x.regionMask.getLsbD r.num), 0x11, o)]

/-- R47 for its header and one port. A TRAFFIC of 0 breaks R47 and is reported as PORT (DESIGN CHOICE, log 140). -/
def portHeadChecks (img : List Byte) (o : Nat) : List ChartCheck :=
  [(le img (o + 2) 2 ≤ 16383, 0x0E, o + 2), (1 ≤ le img (o + 4) 1 && le img (o + 4) 1 ≤ 100, 0x0E, o + 4), rsv img (o + 5) 3]
def portChecks (img : List Byte) (o : Nat) (before : List PortRec) (p : PortRec) : List ChartCheck :=
  [(p.port ≤ 127, 0x0E, o), ([1, 2, 4, 8].contains p.width, 0x0E, o + 1), (p.axis ≤ 3 || p.axis = 0xFF, 0x0E, o + 2), (p.traffic ≤ 3, 0x0E, o + 3),
   (p.medium ≤ 1, 0x0E, o + 4), rsv img (o + 5) 3, (p.port % p.width = 0, 0x14, o), (p.traffic ≠ 0, 0x14, o + 3),
   (before.all (fun q => p.port + p.width ≤ q.port || q.port + q.width ≤ p.port), 0x14, o), (p.axis ≠ 0xFF || p.traffic % 2 = 0, 0x14, o + 3),
   (p.axis = 0xFF || before.all (fun q => q.axis ≠ p.axis || q.width = p.width), 0x14, o)]

/-- Highest LIMIT_A of a domain (R48). -/
def limitMax (d : Nat) : Nat :=
  if d = 1 || d = 43 then 5 else if 2 ≤ d && d ≤ 7 then 150 else if 8 ≤ d && d ≤ 13 then 420 else if d = 14 || d = 15 then 160
  else if d = 32 then 20 else if d = 41 || d = 42 then 30 else if 44 ≤ d then 80 else 40

/-- Nominal voltage of a domain in millivolts (R25), 1.05 V for the stacks (R48). -/
def milliVolts (d : Nat) : Nat :=
  if d = 0 then 0 else if 2 ≤ d && d ≤ 7 then 700 else if d = 14 || d = 15 then 850 else if 16 ≤ d && d ≤ 23 then 1050
  else if 33 ≤ d && d ≤ 42 then 700 else 750

/-- Domains an epoch under a Chart switches on (R13, R48, R426). -/
def epochOn (c : Chart) (d : Nat) : Bool :=
  if 8 ≤ d && d ≤ 15 then (match c.sites[d - 8]? with | some r => r.enable = 1 | none => false)
  else if 24 ≤ d && d ≤ 31 then c.ports.any (fun p => p.port / 16 = d - 24)
  else d ≠ 0

/-- R48 for one domain. -/
def ivrChecks (img : List Byte) (c : Chart) (o d : Nat) : List ChartCheck :=
  let a := fun i => (c.ivr[i]?).getD 0
  [rsv img (o + 2) 2, (d ≠ 0 || a d = 0, 0x15, o), (!epochOn c d || (1 ≤ a d && a d ≤ limitMax d), 0x15, o),
   (((List.range (d + 1)).map (fun i => a i * milliVolts i)).sum ≤ 2400000, 0x15, o)]

/-- R50. -/
def securityChecks (img : List Byte) (o : Nat) (c : Chart) (key : BitVec 384) : List ChartCheck :=
  [(c.sec.mgmtEnable ≤ 1, 0x0E, o), (c.sec.mgmtAddr ≤ 1, 0x0E, o + 1), (c.sec.mgmtPrefix ≤ 32, 0x0E, o + 2), (c.sec.debugPolicy ≤ 3, 0x0E, o + 3),
   rsv img (o + 0x0C) 4, rsv img (o + 0x70) 80, (c.sec.mgmtCa ≠ key, 0x17, o + 0x10)]

/-- The checks of one section type over a parsed image. A reaction above 3 breaks R49 and is reported as REACTION_FLOOR, like one below its floor
(DESIGN CHOICE, log 140). -/
def sectionChecks (s : State) (img : List Byte) (c : Chart) (key : BitVec 384) (x : Sect) : List ChartCheck :=
  match x.typ with
  | 1 => (recordsAt x 0 8).zipIdx.flatMap (fun p => siteChecks s img p.1 p.2)
  | 2 => (withBefore ((recordsAt x 0 48).map (fun o => (o, parseRegion img o)))).flatMap (fun p => regionChecks img c.slices p.1 p.2.1 p.2.2)
  | 3 => (recordsAt x 0 24).flatMap (llaChecks img c.slices)
  | 4 => ((recordsAt x 0 24).zip (withBefore c.flows)).flatMap (fun p => flowChecks p.1 p.2.1 p.2.2)
  | 5 => regHeadChecks img x.body ++ ((recordsAt x 16 16).zip (withBefore c.regs)).flatMap (fun p => regChecks img p.1 p.2.1 p.2.2)
  | 6 => isolationChecks img x.body c
  | 7 => ((recordsAt x 0 40).zip (withBefore c.slices)).flatMap (fun p => sliceChecks s img c.regions p.1 p.2.1 p.2.2)
  | 8 => portHeadChecks img x.body ++ ((recordsAt x 8 8).zip (withBefore c.ports)).flatMap (fun p => portChecks img p.1 p.2.1 p.2.2)
  | 9 => (recordsAt x 0 4).zipIdx.flatMap (fun p => ivrChecks img c p.1 p.2)
  | 10 => (recordsAt x 0 1).zipIdx.map (fun p => (faultFloor p.2 ≤ le img p.1 1 && le img p.1 1 ≤ 3, 0x16, p.1))
  | 11 => securityChecks img x.body c key
  | _ => []

/-! ## Verification -/

/-- The first failure of the staged image (R53), or the Chart it holds. -/
def verifyChart (s : State) : ChartErr × Option Chart :=
  let n := s.chart.size
  let img := denseBytes 0 s.chart.buf n
  let sb := n - 256
  let bind := le img 0x10 8
  let key := sub img (sb + 8) 97
  let kd := sha384 key
  let bad := fun (c : Nat) => (((c, 0xFF, 0) : ChartErr), (none : Option Chart))
  if !sizeOk n then bad 1
  else match firstBad (headerChecks img sb) with
  | some (c, o) => ((c, 0xFF, o), none)
  | none =>
    if le img 0x0E 2 ≠ s.fuses.variant then bad 5
    else if bind ≠ 0 && bind ≠ s.fuses.serial.toNat then bad 6
    else match frameErr img sb with
    | some e => (e, none)
    | none => match chartSigner s with
      | none => bad 0x0B
      | some d =>
        if kd ≠ d then bad 0x0C
        else if !ecdsaOk key (sha384 (img.take sb)) (beNat (sub img (sb + 0x70) 48)) (beNat (sub img (sb + 0xA0) 48)) then bad 0x0D
        else
          let c := parseChart img
          let known := (List.range 12).filterMap (fun t => sectOf (sections img) t)
          match firstIn known (·.idx) (sectionChecks s img c kd) with
          | some e => (e, none)
          | none => ((0, 0xFF, 0), some c)

end Sys2Proof.Machine
end

