-- ==== Sys2Proof/Machine/Queue.lean ====
section
/-!
DEFINITION. Command queues (R281–R310): the fields of a slot and their checks, engines, fetch and start, the run of a command's elements,
completion records, stops and interrupts.
-/
namespace Sys2Proof.Machine

/-! ## Slots (R289–R299) -/

/-- A field of a slot. -/
def slotLe (b : BitVec 2048) (off n : Nat) : Nat := fieldAt b.toNat (8 * off) (8 * n)
/-- A signed 64-bit field. -/
def slotSigned (b : BitVec 2048) (off : Nat) : Int := toSigned 64 (slotLe b off 8)
/-- Header flags. -/
def slotFlag (b : BitVec 2048) (i : Nat) : Bool := (slotLe b 1 1).testBit i

/-- The body fields of an opcode, offset and size (R291). -/
def bodyFields (opc : Nat) : List (Nat × Nat) :=
  let copy := [(0x10, 8), (0x18, 8), (0x20, 4), (0x24, 4), (0x28, 4), (0x2C, 4), (0x30, 8), (0x38, 8), (0x40, 8), (0x48, 8), (0x50, 8), (0x58, 8)]
  match opc with
  | 0x01 => copy
  | 0x02 => copy
  | 0x03 => [(0x10, 8), (0x18, 2), (0x40, 192)]
  | 0x04 => [(0x10, 8), (0x18, 8), (0x20, 8), (0x28, 4), (0x2C, 4), (0x30, 8), (0x38, 8), (0x40, 1)]
  | 0x05 => [(0x10, 8), (0x18, 8), (0x20, 8), (0x28, 4), (0x2C, 4), (0x30, 8), (0x38, 8), (0x40, 1)]
  | 0x06 => [(0x10, 8), (0x18, 8), (0x20, 8), (0x28, 1), (0x29, 1), (0x30, 8), (0x38, 8), (0x40, 8)]
  | 0x07 => [(0x10, 8), (0x18, 8), (0x20, 8), (0x28, 1), (0x29, 1), (0x30, 8), (0x38, 8), (0x40, 8)]
  | 0x08 => [(0x10, 8), (0x18, 8), (0x20, 8)]
  | 0x09 => [(0x10, 8), (0x18, 8), (0x20, 1)]
  | 0x0A => [(0x10, 8), (0x18, 8), (0x20, 1)]
  | 0x0B => [(0x10, 8), (0x18, 8), (0x20, 1), (0x24, 4)]
  | 0x0C => [(0x10, 1), (0x11, 1), (0x12, 2)]
  | 0x10 => [(0x10, 18), (0x28, 4), (0x2C, 4), (0x30, 8), (0x38, 64)]
  | 0x11 => [(0x10, 1), (0x14, 4), (0x18, 8), (0x20, 8), (0x28, 8), (0x30, 8), (0x38, 8), (0x40, 8)]
  | 0x12 => [(0x10, 1), (0x11, 1), (0x12, 1), (0x13, 1), (0x14, 1), (0x15, 1), (0x16, 2), (0x18, 8), (0x20, 8), (0x28, 8), (0x30, 8), (0x38, 8), (0x40, 8), (0x48, 8)]
  | 0x13 => [(0x10, 2)]
  | _ => []

/-- Opcodes of R290. -/
def knownOpc (o : Nat) : Bool := (1 ≤ o && o ≤ 0x0C) || (0x10 ≤ o && o ≤ 0x13)

/-- FLAGS an opcode may set beside PHASE, IRQ and NOALLOC: SRC_HV where it has SRC, DST_HV where it has DST (R289). -/
def hvAllowed (o : Nat) : Nat :=
  if o = 1 || (4 ≤ o && o ≤ 7) then 0x18 else if o = 2 || o = 3 then 0x10 else 0

/-- Size of axis `a` (R334), zero where it is unused. -/
def axisSize (s : State) (a : Nat) : Nat := let r := Tab.get 0 s.nx.axis a; if bits r 11 8 = 0 then 0 else bits r 30 16

/-- Bytes of an element of a collective (R353). -/
def collBytes (dt : Nat) : Nat := if dt = 1 || dt = 2 then 2 else 4

/-- Offsets of the fields that are out of range (R292–R299, R314, R353). -/
def rangeBad (s : State) (b : BitVec 2048) : List Nat :=
  let f := slotLe b
  let bad := fun (off : Nat) (c : Bool) => if c then [off] else []
  match f 0 1 with
  | 0x01 => bad 0x20 (f 0x20 4 = 0 || f 0x20 4 > 2 ^ 31 || f 0x20 4 * f 0x24 4 * f 0x28 4 * f 0x2C 4 > 2 ^ 48) ++ bad 0x24 (f 0x24 4 = 0) ++
      bad 0x28 (f 0x28 4 = 0) ++ bad 0x2C (f 0x2C 4 = 0)
  | 0x02 => bad 0x20 (f 0x20 4 = 0 || f 0x20 4 > 2 ^ 31 || f 0x20 4 * f 0x24 4 * f 0x28 4 * f 0x2C 4 > 2 ^ 48) ++ bad 0x24 (f 0x24 4 = 0) ++
      bad 0x28 (f 0x28 4 = 0) ++ bad 0x2C (f 0x2C 4 = 0) ++ bad 0x30 (f 0x30 8 ≠ 0) ++ bad 0x38 (f 0x38 8 ≠ 0) ++ bad 0x40 (f 0x40 8 ≠ 0)
  | 0x03 => let n := f 0x18 2; bad 0x18 (n = 0 || n > 192) ++ bad 0x10 (1 ≤ n && n ≤ 192 && f 0x10 8 % 4096 + n > 4096)
  | 0x04 => bad 0x28 (f 0x28 4 = 0) ++ bad 0x2C (f 0x2C 4 = 0 || f 0x2C 4 > 2 ^ 20) ++ bad 0x40 (f 0x40 1 ≠ 4 && f 0x40 1 ≠ 8)
  | 0x05 => bad 0x28 (f 0x28 4 = 0) ++ bad 0x2C (f 0x2C 4 = 0 || f 0x2C 4 > 2 ^ 20) ++ bad 0x40 (f 0x40 1 ≠ 4 && f 0x40 1 ≠ 8)
  | 0x06 => bad 0x20 (f 0x20 8 % 4096 ≠ 0) ++ bad 0x28 (f 0x28 1 > 1) ++ bad 0x29 (f 0x29 1 ≠ 0 && f 0x29 1 ≠ 2)
  | 0x07 => bad 0x20 (f 0x20 8 % 4096 ≠ 0) ++ bad 0x28 (f 0x28 1 > 1) ++ bad 0x29 (f 0x29 1 ≠ 0 && f 0x29 1 ≠ 2)
  | 0x08 => bad 0x10 (f 0x10 8 % 4096 ≠ 0) ++ bad 0x18 (f 0x18 8 % 4096 ≠ 0) ++ bad 0x20 (f 0x20 8 % 4096 ≠ 0)
  | 0x09 => bad 0x20 (f 0x20 1 > 2)
  | 0x0A => bad 0x10 (f 0x10 8 % 8 ≠ 0) ++ bad 0x20 (f 0x20 1 > 2)
  | 0x0B => bad 0x20 (f 0x20 1 > 2)
  | 0x0C => bad 0x10 (f 0x10 1 ≠ 2 && f 0x10 1 ≠ 3) ++ bad 0x11 (f 0x11 1 = 0 || f 0x11 1 > 3)
  | 0x10 => bad 0x28 (f 0x28 4 % 64 ≠ 0 || f 0x28 4 ≥ 2 ^ 18) ++ bad 0x2C (f 0x2C 4 % 64 ≠ 0 || f 0x2C 4 > 2 ^ 18)
  | 0x11 => bad 0x10 (f 0x10 1 = 0) ++ bad 0x14 (f 0x14 4 % 8 ≠ 0 || f 0x14 4 < 8 || f 0x14 4 > 512) ++ bad 0x18 (f 0x18 8 % 8 ≠ 0) ++
      bad 0x20 (f 0x20 8 % 8 ≠ 0) ++ bad 0x28 (f 0x28 8 % 64 ≠ 0) ++ bad 0x30 (f 0x30 8 = 0 || f 0x30 8 > 2 ^ 40)
  | 0x12 =>
    let op := f 0x10 1
    let dt := f 0x12 1
    let n := axisSize s (f 0x11 1)
    bad 0x10 (op > 4) ++ bad 0x11 (f 0x11 1 > 3) ++
      bad 0x12 (if op = 4 then dt ≠ 0x0A else dt ≠ 0 && dt ≠ 1 && dt ≠ 2 && dt ≠ 5 && dt ≠ 8) ++ bad 0x13 (f 0x13 1 > 2) ++
      bad 0x14 (f 0x14 1 ≠ 0 && f 0x14 1 ≠ 2) ++ bad 0x15 (f 0x15 1 > 1) ++ bad 0x18 (op ≠ 4 && f 0x18 8 % collBytes dt ≠ 0) ++
      bad 0x20 (op ≠ 4 && f 0x20 8 % collBytes dt ≠ 0) ++ bad 0x28 (f 0x28 8 = 0 || f 0x28 8 * n > 2 ^ 40)
  | _ => []

/-- The first bad field of a slot (R289, R302): a reserved bit or byte, a flag its opcode has no field for, a value out of range (DEDUCED,
log 113). -/
def badField (s : State) (b : BitVec 2048) : Option Nat :=
  let o := slotLe b 0 1
  if !knownOpc o then some 0
  else
    let fl := slotLe b 1 1
    let head := (if fl &&& (0xF8 - hvAllowed o) ≠ 0 then [1] else []) ++ (if slotLe b 4 1 > 15 then [4] else []) ++
      ((List.range 3).map (· + 5)).filter (fun i => slotLe b i 1 ≠ 0)
    let used := bodyFields o
    let body := ((List.range 240).map (· + 16)).filter (fun i => slotLe b i 1 ≠ 0 && !used.any (fun f => f.1 ≤ i && i < f.1 + f.2))
    (head ++ body ++ rangeBad s b).foldl (fun m i => match m with | none => some i | some j => some (min i j)) none

/-! ## Engines (R281, R282) -/

def State.ce (s : State) (e : Nat) : CopyEngine := Tab.get {} s.ces e
def setCe (s : State) (e : Nat) (x : CopyEngine) : State := { s with ces := Tab.set {} s.ces e x }

/-- The engine of a group that serves a queue: the next higher one in service (R282). -/
def engineOf (s : State) (group q : Nat) : Option Nat :=
  ((List.range 16).map (fun i => 16 * group + (q % 16 + i) % 16)).find? (fun e => !(s.ce e).retired)

/-- The physical address a page table gives now, without an effect. -/
def peekPa (s : State) (slice dva : Nat) : Option Nat :=
  match tlbFind s slice dva with
  | some e => some (e.pa + (dva - e.va))
  | none => match (walk s (2 ^ 50) slice dva).2 with | .leaf e => some (e.pa + (dva - e.va)) | _ => none

/-- The region an address of a command lies in, through the windows for an HVA. -/
def peekRegion (s : State) (slice : Nat) (win : Tab HvWin) (hv : Bool) (addr : Nat) : Option Region :=
  ((if hv then hostView win addr else some addr).bind (peekPa s slice)).bind (fun pa => s.cfg.regionOf pa)

/-- Group of the engine that executes a command: 0 inbound, 1 outbound, 2 local (R281). -/
def cmdGroup (s : State) (slice : Nat) (b : BitVec 2048) : Nat :=
  let o := slotLe b 0 1
  let win := (s.ctx slice).win
  let remote := fun (off bit' : Nat) => (peekRegion s slice win (slotFlag b bit') (slotLe b off 8)).any (fun r => r.interleave = 5)
  if o = 2 then (if remote 0x18 4 then 1 else 2)
  else if o = 3 then (if remote 0x10 4 then 1 else 2)
  else if o = 1 || (4 ≤ o && o ≤ 7) then (if remote 0x18 4 then 1 else if remote 0x10 3 then 0 else 2)
  else 2

/-- Commands in progress on a copy engine. A WAIT occupies only its own queue (R296). -/
def ceActive (s : State) (e : Nat) : Nat := (s.queues.filter (fun p => match p.2.cmd with | some c => c.eng = e && c.opc ≠ 0x0B | none => false)).length

/-- A queue's slice, in the numbering of the GTU. -/
def queueSlice (s : State) (q : Nat) : Nat := (sliceOfQueue s q).getD 0x3F

/-- A copy engine at work on a command of a queue; `hv` that the address is an HVA. -/
def cmdEng (s : State) (q : Nat) (c : Cmd) (hv : Bool) : Eng :=
  let sl := queueSlice s q
  { tag := q, slice := sl, port := 6 + c.eng / 16, reg := sl, ini := 144 + c.eng, noalloc := slotFlag c.raw 2, hv := if hv then some c.win else none }

/-- The local engine of a queue, fetching and writing records under a tag. -/
def localEng (s : State) (q tag : Nat) : Eng :=
  let sl := queueSlice s q
  { tag := tag, slice := sl, port := 8, reg := sl, ini := 144 + (engineOf s 2 q).getD 32 }

/-- Tag of what is left to do for a command of a queue whose record is still to come, by its SEQ. -/
def closeTag (q seq : Nat) : Nat := 0x10000000 + q * 65536 + seq
def Cmd.seq (c : Cmd) : Nat := slotLe c.own 2 2
def Rec.seq (r : Rec) : Nat := r.raw.toNat % 65536

/-! ## Stops and interrupts (R303, R305, R307) -/

/-- A posted write of bytes within one line for a slice, under its masks and charged to it. -/
def postFor (s : State) (why slice pa : Nat) (bs : List Byte) : State :=
  let off := pa % 128
  let t : Txn := { id := s.nextTxn, src := .posted why, opc := 6, addr := pa / 128 * 128, slice := some slice, reg := slice,
                   mask := BitVec.ofNat 128 ((2 ^ bs.length - 1) <<< off), data := lineOf (List.replicate off 0 ++ bs) }
  runTxn { s with nextTxn := s.nextTxn + 1, txns := s.txns ++ [t] } t.id

/-- The write of a MODE 2 interrupt (R307): it waits under a write hold (R199), and one that faults is dropped (DEDUCED, log 118). -/
def irqWrite (s : State) (q : Nat) : State :=
  let sl := queueSlice s q
  let (s, t) := translate s (2 ^ 49 + q) sl 8 1 (bits (s.queue q).irqAddr 56 3 * 8)
  let x := s.queue q
  match t with
  | .hold => setQueue s q { x with irqHeld := true }
  | .pa pa _ => postFor (setQueue s q { x with irqHeld := false }) (0x100 + q) sl pa (leBytes 8 x.irqData.toNat)
  | .fault _ _ => setQueue s q { x with irqHeld := false }

/-- Sends a queue's interrupt (R307), the MSI-X message first. -/
def sendIrq (s : State) (q : Nat) : State :=
  let x := s.queue q
  let s := setQueue s q { x with irqCount := 0, irqDue := false }
  let mode := bits x.irq 31 30
  let s := if mode % 2 = 1 then sendMsix s (bits x.irq 10 0) else s
  if mode ≥ 2 then irqWrite s q else s

/-- Sends the interrupt writes of a slice's queues that wait (R199). -/
def sendHeldIrqs (s : State) (slice : Nat) : State :=
  (s.queues.filter (fun p => p.2.irqHeld && queueSlice s p.1 = slice)).foldl (fun s p => irqWrite s p.1) s

/-- Stops a queue now, with its interrupt (R303, R307). -/
def haltQueue (s : State) (q reason : Nat) : State :=
  let x := s.queue q
  sendIrq (setQueue s q { x with state := 0, reason := reason, tries := 0 }) q

/-- A stop of a queue: at once with its interrupt, or after what is in progress (R305–R307). The first stop but a STOP gives the REASON. -/
def stopQueue (s : State) (q reason : Nat) : State :=
  let x := s.queue q
  if x.state = 0 then s
  else if !x.inProgress && x.heldRecord.isNone then haltQueue s q reason
  else setQueue s q { x with state := 2, stopReason := if x.state = 2 && x.stopReason ≠ 1 then x.stopReason else reason }

/-- A record with IRQ set is counted; the interrupt goes once enough have gathered (R307). -/
def countIrq (s : State) (q : Nat) : State :=
  let x := s.queue q
  let n := x.irqCount + 1
  let s := setQueue s q { x with irqCount := n, irqSince := if x.irqCount = 0 then s.time else x.irqSince }
  if n ≥ max 1 (bits x.irq 55 48) then sendIrq s q else s

/-! ## Fetch and start (R284–R288, R301, R304) -/

/-- A slot read: its bytes, or that its translation faults, that it fails otherwise, or cannot be made now. -/
inductive Fetched where
  | slot (b : BitVec 2048)
  | fault
  | bad
  | hold
  deriving DecidableEq, Repr

/-- Reads the slot at CONS. -/
def fetchSlot (s : State) (q : Nat) : State × Fetched :=
  let x := s.queue q
  let (s, r) := (localEng s q q).readSpan 3 s (bits x.ring 56 12 * 4096 + x.cons * 256) 256
  (s, match r with
    | .ok bs => .slot (BitVec.ofNat 2048 (leNat bs))
    | .fail st _ => if st = 3 then .fault else .bad
    | .hold => .hold)

/-- Whether a slot has the PHASE and SEQ expected (R288). -/
def slotDue (x : Queue) (b : BitVec 2048) : Bool := slotFlag b 0 = x.phase && slotLe b 2 2 = x.nextSeq

/-- Whether a queue may start its next slot: running, its held record written, nothing in progress. -/
def mayStart (s : State) (q : Nat) : Bool :=
  let x := s.queue q
  !s.quiet && x.state = 1 && x.cmd.isNone && x.heldRecord.isNone && x.waiting > 0

/-- The command a slot starts: its own fields, or for a RESUME those of the context it names, checked as the first time (R304) (DEDUCED, log 108). -/
def cmdOf (s : State) (q : Nat) (b : BitVec 2048) : State × Cmd :=
  let x := s.queue q
  let win := (s.ctx (queueSlice s q)).win
  let own : Cmd := { own := b, raw := b, win := win, t0 := s.time }
  match badField s b with
  | some off => (s, { own with result := some (0x0A, off, none) })
  | none =>
    if slotLe b 0 1 = 0x13 then
      match x.resume with
      | some r =>
        if slotLe r.own 2 2 = slotLe b 0x10 2 then
          (setQueue s q { x with resume := none }, { own with raw := r.raw, elems := r.elems, bytes := r.bytes, aux := r.aux,
                                                              result := (badField s r.raw).map (fun off => (0x0A, off, none)) })
        else (s, { own with result := some (0x0F, 0, none) })
      | none => (s, { own with result := some (0x0F, 0, none) })
    else (s, own)

/-- The slot at CONS starts (R284, R285, R288, R281). With no engine of its group in service it ends UNIT_RETIRED. -/
def beginCmd (s₀ : State) (q : Nat) (b : BitVec 2048) : State :=
  let (s, c) := cmdOf s₀ q b
  let x := s.queue q
  let d := x.depth
  let next := if x.cons + 1 = d then 0 else x.cons + 1
  let adv := { x with cons := next, phase := if next = 0 then !x.phase else x.phase, nextSeq := (x.nextSeq + 1) % 65536, tries := 0 }
  match engineOf s (if c.result.isSome then 2 else cmdGroup s (queueSlice s q) c.raw) q with
  | none => setQueue s q { adv with cmd := some { c with eng := 32 + q % 16, result := some (c.result.getD (7, 0, none)) } }
  | some e =>
    if ceActive s e ≥ 16 && c.opc ≠ 0x0B then s₀
    else
      let s := setCe s e { s.ce e with gated := false, lastQueue := q, lastOpc := slotLe b 0 1 }
      setQueue s q { adv with cmd := some { c with eng := e } }

/-- Whether a command no longer holds back the next one (R232, R237): it has ended COMPLETE, or is a FENCE of a slice with Mould cores whose acquire
runs. -/
def Cmd.letsNext (s : State) (q : Nat) (c : Cmd) : Bool :=
  c.issued.isNone && !c.aborting &&
    (match c.result with
      | some (st, _) => st = 0
      | none => c.opc = 0x0C && c.stage = 2 && Tab.get 0 c.aux 1 = 0 && (coresOfSlice s (queueSlice s q)).any (fun k => !customerDie s (k / 24)))

/-- A command that has finished its reads and whose writes are complete at MODULE scope makes way for the next one (R232); its record comes once they are
complete at FABRIC scope (R301). -/
def handOver (s : State) (q : Nat) : State :=
  let x := s.queue q
  match x.cmd with
  | some c =>
    if x.state = 1 && x.heldRecord.isNone && x.waiting > 0 && c.letsNext s q && moduleDone s q && (tagFailure s q).isNone && !padded s q then
      let s := endWork (retag s q (closeTag q c.seq)) q
      { setQueue s q { x with cmd := none, closing := x.closing ++ [c] } with
        cores := s.cores.map (fun p => (p.1, if p.2.launch = some q then { p.2 with launch := none } else p.2)) }
    else s
  | none => s

/-- Starts the slot at CONS if it is due and of the kind a command names; nothing where a command is in progress or it may not start. A fetch whose
translation faults stops the queue (R197) (DESIGN CHOICE, log 107). -/
def tryStart (s : State) (q : Nat) (kind : BitVec 2048 → Bool) : State :=
  let s := handOver s q
  if !mayStart s q then s
  else match fetchSlot s q with
    | (s, .slot b) => if slotDue (s.queue q) b && kind b then beginCmd s q b else s
    | (s, .fault) => stopQueue s q 3
    | (s, _) => s

/-! ## Running -/

def setCmd (s : State) (q : Nat) (c : Cmd) : State := setQueue s q { s.queue q with cmd := some c }

/-- The status an abort of a queue's command ends it with: SQUASHED under a reset in SQUASH mode, else ABORTED (R305, R306). -/
def abortStatus (s : State) (q : Nat) : Nat :=
  let sl := s.slice (queueSlice s q)
  if sl.squash && (sl.state = 3 || sl.state = 4) then 8 else 1

/-- Ends a command with a status, DETAIL and failing element. -/
def endCmd (s : State) (q : Nat) (c : Cmd) (status detail : Nat) (fail : Option Nat) : State := setCmd s q { c with result := some (status, detail, fail) }

/-- One chunk of a command: moved `n` bytes of the element and wrote or not, not now, or failed with a status of R302 and DETAIL. -/
inductive Part where
  | ok (s : State) (c : Cmd) (n : Nat) (wrote : Bool)
  | hold (s : State)
  | fail (s : State) (status detail : Nat)
  deriving DecidableEq, Repr

/-- An engine's answer in a chunk. -/
def partBy (s : State) (r : Eres) (k : List Byte → Part) : Part :=
  match r with
  | .ok bs => k bs
  | .hold => .hold s
  | .fail st reason => .fail s (recordStatus st) reason


/-- Where line `k` of an INLINE_WRITE begins in DATA, and its bytes (R293). -/
def inlineLine (b : BitVec 2048) (k : Nat) : Nat × Nat :=
  let d := slotLe b 0x10 8 % 128
  let off := if k = 0 then 0 else 128 * k - d
  (off, min (slotLe b 0x18 2 - off) (if k = 0 then 128 - d else 128))
def inlineLines (b : BitVec 2048) : Nat := (slotLe b 0x10 8 % 128 + slotLe b 0x18 2 + 127) / 128

/-- Bytes of the first `k` elements of a command, where its fields give them. -/
def bytesOf (c : Cmd) (k : Nat) : Option Nat :=
  let f := slotLe c.raw
  match c.opc with
  | 0x01 => some (k * f 0x20 4)
  | 0x02 => some (k * f 0x20 4)
  | 0x03 => some (((List.range k).map (fun i => (inlineLine c.raw i).2)).sum)
  | 0x04 => some (k * f 0x2C 4)
  | 0x05 => some (k * f 0x2C 4)
  | 0x06 => some (k * 4096)
  | 0x07 => some (k * 4096)
  | _ => none

/-- A write that had left the module, or a line of the array that should have, has failed: which of the elements written is a free value, since such a
failure names none (R300) (DEDUCED, log 112). A command with no such element keeps its counts. The failing element is the third part. -/
def undone (s : State) (c : Cmd) : State × Cmd × Option Nat :=
  let n := c.elems + (if c.pos > 0 then 1 else 0)
  let k := Config.doneElems s.draws % max 1 n
  match (if n = 0 then none else bytesOf c k) with
  | none => (s, { c with pos := 0, last := none }, none)
  | some b => ({ s with draws := s.draws + 1 }, { c with elems := k, bytes := b, pos := 0, last := none }, some k)

/-- A write issued earlier failed: the command ends at the element of that write (R300, R302). -/
def writeFailed (s : State) (q : Nat) (c : Cmd) (size : Nat → Nat) (e st : Nat) : State :=
  let back := c.elems > e
  endCmd (endFailed s q) q { c with elems := min c.elems e, bytes := if back then c.bytes - size e else c.bytes, pos := 0, last := none } (recordStatus st) 0 (some (min c.elems e))

/-- Whether a command in progress targets host memory (R306, R376): its address fields lie there, or a request of it is on its way (DEDUCED,
log 130). -/
def hostTarget (s : State) (q : Nat) (c : Cmd) : Bool :=
  let f := slotLe c.raw
  let at' := fun (hv : Bool) (addr : Nat) => (peekRegion s (queueSlice s q) c.win hv addr).any (fun r => r.interleave = 5 && r.target = 1)
  let src := slotFlag c.raw 3
  let dst := slotFlag c.raw 4
  let o := slotLe c.raw 0 1
  (if o = 1 || (4 ≤ o && o ≤ 7) then at' src (f 0x10 8) || at' dst (f 0x18 8)
   else if o = 2 then at' dst (f 0x18 8)
   else if o = 3 then at' dst (f 0x10 8)
   else if o = 0x0A || o = 0x0B then at' false (f 0x10 8)
   else if o = 0x12 then at' false (f 0x18 8) || at' false (f 0x20 8)
   else false) ||
  s.rops.any (fun r => r.tag = q && r.done.isNone && (match r.target with | .host _ _ => true | _ => false))

/-- Runs a command's elements in order until `upto` are done, or one waits or fails (R290, R300, R305). A write must be complete at MODULE scope
before the next chunk, so that a failure in the module names its element. An abort ends it at an element boundary, or within 4 KiB of a longer
element; under SQUASH at once. A long retrain starts no new element of a command that targets host memory (R376) (DESIGN CHOICE, log 11)
(DEDUCED, log 110). -/
def runElems (part : Cmd → State → Part) (size : Nat → Nat) (total q upto : Nat) : Nat → State → State
  | 0, s => s
  | fuel + 1, s =>
    match (s.queue q).cmd with
    | none => s
    | some c =>
      if c.result.isSome || (c.last.isSome && !moduleDone s q) then s
      else match c.last, moduleFailure s q, tagFailure s q with
        | some e, some st, _ => writeFailed s q c size e st
        | _, _, some st =>
          let (s, c, fail) := undone s c
          endCmd (endFailed s q) q c (recordStatus st) 0 fail
        | _, _, none =>
          let c := { c with last := none }
          if c.elems ≥ total then endCmd s q c 0 0 none
          else if c.aborting && (c.pos = 0 || size c.elems > 4096 || abortStatus s q = 8) then endCmd s q c (abortStatus s q) 0 none
          else if (c.elems ≥ upto && !c.aborting) || (s.pcie.retrainLong && c.pos = 0 && hostTarget s q c) then setCmd s q c
          else match part c s with
            | .hold s => setCmd s q c
            | .fail s st d => endCmd s q { c with pos := 0, buf := [] } st d (some c.elems)
            | .ok s c n wrote =>
              let e := c.elems
              let s := setCe s c.eng { s.ce c.eng with bytes := (s.ce c.eng).bytes + n }
              let c := { c with last := if wrote then some e else none }
              let c := if c.pos + n ≥ size e then { c with elems := e + 1, bytes := c.bytes + size e, pos := 0, buf := [] } else { c with pos := c.pos + n }
              runElems part size total q upto fuel (setCmd s q c)

/-! ## Records (R300–R303) -/

/-- Opcodes that can be resumed (R290). -/
def resumable (o : Nat) : Bool := o = 1 || o = 2 || (4 ≤ o && o ≤ 8) || o = 0x11

/-- Elements of a command, where its fields give the number. -/
def elemTotal (c : Cmd) : Nat :=
  let f := slotLe c.raw
  match c.opc with
  | 0x01 => f 0x24 4 * f 0x28 4 * f 0x2C 4
  | 0x02 => f 0x24 4 * f 0x28 4 * f 0x2C 4
  | 0x04 => f 0x28 4
  | 0x05 => f 0x28 4
  | 0x06 => f 0x20 8 / 4096
  | 0x07 => f 0x20 8 / 4096
  | 0x08 => if c.bytes ≥ f 0x18 8 then c.elems else c.elems + 1
  | 0x11 => f 0x30 8
  | _ => 0

/-- The record of a command that ended (R300): its 32 bytes. RESUMABLE is set where a resume context is kept. -/
def recordOf (c : Cmd) (status detail : Nat) (fail : Option Nat) (keep : Bool) : Rec :=
  let wide := c.elems ≥ 2 ^ 32 || (match fail with | some f => decide (f ≥ 2 ^ 32) | none => false)
  let fl := flag (slotFlag c.own 0) 0 + flag keep 1 + flag wide 2 + flag fail.isSome 3
  let bs := leBytes 2 (slotLe c.own 2 2) ++ leBytes 1 (slotLe c.own 0 1) ++ leBytes 1 fl ++ leBytes 1 status ++ leBytes 3 detail ++
    leBytes 8 (slotLe c.own 8 8) ++ leBytes 8 c.bytes ++ leBytes 4 c.elems ++ leBytes 4 (match fail with | some f => f | none => 0xFFFFFFFF)
  { raw := BitVec.ofNat 256 (leNat bs), status := status, elems := c.elems, fail := fail, irq := slotFlag c.own 1 }

/-- Whether a resume context is kept for a command that ended with a status (R303). CAL_RUN keeps its own (R325). -/
def keepsContext (c : Cmd) (status : Nat) : Bool := status ≠ 0 && status ≠ 0x0F && resumable c.opc && c.elems < elemTotal c

/-- Where a queue writes the record of a SEQ (R284). -/
def recordAddr (x : Queue) (r : Rec) : Nat := bits x.cpl 56 12 * 4096 + 32 * (r.raw.toNat % 65536 % max 1 x.depth)

/-- A record has been written: it is counted, its full counts kept, its interrupt raised (R300, R307, R308). -/
def recordWritten (s : State) (q : Nat) (r : Rec) : State :=
  let x := s.queue q
  let s := setQueue s q { x with
    records := x.records + 1
    lastElems := r.elems
    lastFail := match r.fail with | some f => BitVec.ofNat 64 (2 ^ 63 + f % 2 ^ 63) | none => 0xFFFFFFFF }
  if r.irq then countIrq s q else s

/-- The reason a queue stops for after a record, none where it goes on (R303, R305, R306): that of the first stop but a STOP. -/
def stopAfter (x : Queue) (status : Nat) : Option Nat :=
  if x.state = 2 && x.stopReason ≠ 1 then some x.stopReason
  else if status = 6 then some 4
  else if status ≠ 0 then some 2
  else if x.state = 2 then some x.stopReason
  else none

/-- A place of a queue for a command whose record is to come: the command in progress, or the oldest of those that have made way. -/
def putCmd (s : State) (q : Nat) (closing : Bool) (c : Cmd) : State :=
  if closing then setQueue s q { s.queue q with closing := c :: (s.queue q).closing.tail } else setCmd s q c

/-- The end of a command whose record is written or held: the engine counts it, the resume context is kept, the cores of a LAUNCH are let go. -/
def closeCmd (s : State) (q : Nat) (closing : Bool) (c : Cmd) (r : Rec) : State :=
  let x := s.queue q
  let x := if keepsContext c r.status then { x with resume := some { c with result := none, issued := none, aborting := false, pos := 0, buf := [], last := none } } else x
  let s := setQueue s q (if closing then { x with closing := x.closing.tail } else { x with cmd := none })
  let s := setCe s c.eng { s.ce c.eng with cmds := (s.ce c.eng).cmds + 1 }
  if closing then s
  else { s with cores := s.cores.map (fun p => (p.1, if p.2.launch = some q then { p.2 with launch := none } else p.2)) }

/-- A queue with nothing in progress stops, and an ABORT reports the last record (R305). -/
def stopNow (s : State) (q reason : Nat) (r : Rec) : State :=
  let x := s.queue q
  let x := if x.abortReq then
      { x with abortReq := false, abortResult := BitVec.ofNat 64 (2 ^ 63 + fld r.seq 47 32 + fld r.status 31 24 + (if r.status = 1 then 1 else 2)) } else x
  haltQueue (setQueue s q x) q reason

/-- After a record the queue goes on, or stops once nothing is in progress (R303, R305) (DESIGN CHOICE, log 151). -/
def afterRecord (s : State) (q : Nat) (r : Rec) : State :=
  let x := s.queue q
  match stopAfter x r.status with
  | none => s
  | some reason => if x.inProgress then setQueue s q { x with state := 2, stopReason := reason } else stopNow s q reason r

/-- A record could not be written: the queue stops with REASON RECORD and keeps it, once the command in progress has ended (R301). -/
def recordHeld (s : State) (q : Nat) (r : Rec) : State :=
  let s := setQueue s q { s.queue q with heldRecord := some r, heldIssued := false }
  if (s.queue q).cmd.any (fun c => c.result.isNone) then setQueue s q { s.queue q with state := 2, stopReason := 6 } else stopNow s q 6 r

/-- One step of writing a record: issued, waiting, or ended in success or failure. -/
inductive RecStep where
  | wait (s : State) (issued : Bool)
  | written (s : State)
  | failed (s : State)
  deriving DecidableEq, Repr

/-- Writes a record to the completion ring and waits until it is complete at FABRIC scope (R301). -/
def writeRecord (s : State) (q tag : Nat) (r : Rec) (issued : Bool) : RecStep :=
  if !issued then
    match (localEng s q tag).write s (recordAddr (s.queue q) r) (leBytes 32 r.raw.toNat) with
    | (s, .ok _) => .wait s true
    | (s, .hold) => .wait s false
    | (s, .fail _ _) => .failed (endWork s tag)
  else match finishWrites s tag (queueSlice s q) with
    | (s, .wait) => .wait s true
    | (s, .fail _) => .failed (endWork s tag)
    | (s, .done) => .written (endWork s tag)

/-- A held record of a running queue is written before anything else (R301). Its status does not stop the queue a second time (DEDUCED,
log 32). -/
def heldStep (s : State) (q : Nat) (r : Rec) : State :=
  match writeRecord s q (closeTag q r.seq) r (s.queue q).heldIssued with
  | .wait s i => setQueue s q { s.queue q with heldIssued := i }
  | .failed s => recordHeld s q r
  | .written s =>
    let s := recordWritten (setQueue s q { s.queue q with heldRecord := none, heldIssued := false }) q r
    if (s.queue q).state = 2 && !(s.queue q).inProgress then haltQueue s q (s.queue q).stopReason else s

/-- A command that has ended: its writes are complete at FABRIC scope, no response is padded, its record is written, and the queue goes on
or stops (R301, R303). The first failure gives its status. -/
def completeCmd (s : State) (q tag : Nat) (closing : Bool) (c : Cmd) (status detail : Nat) (fail : Option Nat) : State :=
  match c.issued with
  | some r =>
    (match writeRecord s q tag r true with
      | .wait s _ => s
      | .failed s => recordHeld (closeCmd s q closing c r) q r
      | .written s => afterRecord (recordWritten (closeCmd s q closing c r) q r) q r)
  | none =>
    if padded s tag then s
    else match finishWrites s tag (queueSlice s q) with
      | (s, .wait) => s
      | (s, .fail st) =>
        if status ≠ 0 then endFailed s tag
        else
          let (s, c, k) := undone s c
          putCmd (endFailed s tag) q closing { c with result := some (recordStatus st, 0, k) }
      | (s, .done) =>
        let s := endWork s tag
        let r := recordOf c status detail fail (keepsContext c status)
        match writeRecord s q tag r false with
        | .wait s true => putCmd s q closing { c with issued := some r }
        | .wait s false => s
        | .failed s => recordHeld (closeCmd s q closing c r) q r
        | .written s => s

/-! ## The release and acquire of a FENCE (R237) -/

/-- The release or acquire of a FENCE of a queue, if it has ended: its status, and the command with the lines written back counted. The first status other
than OK stays (R252). -/
def fenceEnded (s : State) (c : Cmd) : Option (State × Cmd) :=
  let id := Tab.get 0 c.aux 0 - 1
  (fabEnded s id).map (fun st =>
    let lines := ((s.fabOps.find? (fun f => f.id = id)).map (·.lines)).getD 0
    let first := if Tab.get 0 c.aux 1 = 0 then st else Tab.get 0 c.aux 1
    (dropFab s id, { c with elems := c.elems + lines, bytes := c.bytes + 128 * lines, aux := Tab.set 0 c.aux 1 first }))

/-- A FENCE ends with the status its release and acquire left, or as an abort ends it. -/
def Cmd.fenceResult (s : State) (q : Nat) (c : Cmd) : Cmd :=
  let st := Tab.get 0 c.aux 1
  { c with result := some (if st ≠ 0 then recordStatus st else if c.aborting || abortStatus s q = 8 then abortStatus s q else 0, 0, none) }

/-- The oldest command that has made way comes to its record; a FENCE first waits for its acquire (R237). -/
def closeStep (s : State) (q : Nat) (c : Cmd) : State :=
  match c.result with
  | some (st, d, f) => completeCmd s q (closeTag q c.seq) true c st d f
  | none => match fenceEnded s c with
    | none => s
    | some (s, c) => putCmd s q true (c.fenceResult s q)

/-- Opcodes and kinds no row of the table names: they start here, and end MALFORMED. -/
def unnamed (b : BitVec 2048) : Bool :=
  let o := slotLe b 0 1
  !knownOpc o || (o = 0x09 && slotLe b 0x20 1 > 2) || (o = 0x0A && slotLe b 0x20 1 > 2) ||
    (o = 0x0C && (slotLe b 0x11 1 = 0 || slotLe b 0x11 1 > 3)) || (o = 0x12 && slotLe b 0x10 1 > 4)

/-- Whether a queue that stops for a held record has come to its stop. -/
def heldStops (x : Queue) : Bool := x.state = 2 && x.stopReason = 6 && !x.cmd.any (fun c => c.result.isNone)

/-- COMMAND_COMPLETE (R301): a held record is written; the oldest command that has ended gets its one record; a slot that holds no command of
the table ends MALFORMED. -/
def execCommandComplete (q : Fin 4096) (s : State) : Host.Outcome State Fault Refusal :=
  .next (if s.quiet then s
  else
    let x := s.queue q
    match x.heldRecord, x.closing, x.cmd with
    | some r, _, _ => if x.state = 0 then s else if x.state = 2 && x.stopReason = 6 then (if heldStops x then stopNow s q 6 r else s) else settleAll (heldStep s q r)
    | none, c :: _, _ => settleAll (closeStep s q c)
    | none, [], some c =>
      (match c.result with
        | some (st, d, f) => settleAll (completeCmd s q q false c st d f)
        | none => s)
    | none, [], none => settleAll (tryStart s q unnamed))

end Sys2Proof.Machine
end

