-- ==== Sys2Proof/Machine/CopyOps.lean ====
section
/-!
DEFINITION. The copy commands (R292–R295, R329): COPY, FILL, INLINE_WRITE, GATHER, SCATTER, STASH, UNSTASH, and the control of a queue by
its registers (R284, R303, R305, R308).
-/
namespace Sys2Proof.Machine

/-! ## Runs (R292) -/

/-- Address of run `k` of a side: base and strides as signed 64-bit fields. -/
def cmdRun (b : BitVec 2048) (base st k : Nat) : Nat :=
  let f := slotLe b
  wrapInt 64 (runAddr (f base 8) (slotSigned b st, slotSigned b (st + 8), slotSigned b (st + 16)) (f 0x24 4) (f 0x28 4) k)

/-- A chunk of a copy between two addresses: within one line of each side. -/
def copyPart (s : State) (q : Nat) (c : Cmd) (src dst n pos : Nat) : Part :=
  let k := min (n - pos) (min (128 - (src + pos) % 128) (128 - (dst + pos) % 128))
  let (s, r) := (cmdEng s q c (slotFlag c.raw 3)).read s ((src + pos) % 2 ^ 64) k
  partBy s r (fun bs =>
    let (s, r) := (cmdEng s q c (slotFlag c.raw 4)).write s ((dst + pos) % 2 ^ 64) bs
    partBy s r (fun _ => .ok s c k true))

/-- The physical page of an address of a command, through the windows for an HVA, if it is held or a walk finds it at once. -/
def peekPage (s : State) (q : Nat) (c : Cmd) (hv : Bool) (addr : Nat) : Option Nat :=
  ((if hv then hostView c.win addr else some addr).bind (peekPa s (queueSlice s q))).map (· / 4096)

/-- Physical pages of a span of a command. -/
def spanPages (s : State) (q : Nat) (c : Cmd) (hv : Bool) (addr n : Nat) : List (Option Nat) :=
  (List.range ((addr % 4096 + n + 4095) / 4096)).map (fun i => peekPage s q c hv ((addr / 4096 + i) * 4096 % 2 ^ 64))

/-- Whether the two sides of a run may share a physical page, whatever addresses name it: an unknown page may be any (R292). -/
def mayOverlap (s : State) (q : Nat) (c : Cmd) (src dst n : Nat) : Bool :=
  let a := spanPages s q c (slotFlag c.raw 3) src n
  let b := spanPages s q c (slotFlag c.raw 4) dst n
  a.any (·.isNone) || b.any (·.isNone) || a.any (fun p => b.contains p)

/-- COPY: a run whose sides may overlap is read whole before it is written, so that no byte takes a value the same run wrote (R292) (DEDUCED, log 111). -/
def partCopy (q : Nat) (c : Cmd) (s : State) : Part :=
  let n := slotLe c.raw 0x20 4
  let src := cmdRun c.raw 0x10 0x30 c.elems
  let dst := cmdRun c.raw 0x18 0x48 c.elems
  if c.buf.isEmpty && (c.pos > 0 || !mayOverlap s q c src dst n) then copyPart s q c src dst n c.pos
  else if c.buf.length < n then
    let at' := src + c.buf.length
    let (s, r) := (cmdEng s q c (slotFlag c.raw 3)).read s (at' % 2 ^ 64) (min (n - c.buf.length) (128 - at' % 128))
    partBy s r (fun bs => .ok s { c with buf := c.buf ++ bs } 0 false)
  else
    let at' := dst + c.pos
    let bs := sub c.buf c.pos (min (n - c.pos) (128 - at' % 128))
    let (s, r) := (cmdEng s q c (slotFlag c.raw 4)).write s (at' % 2 ^ 64) bs
    partBy s r (fun _ => .ok s c bs.length true)

/-- FILL: byte `b` of every run is byte `b mod 8` of PATTERN. -/
def partFill (q : Nat) (c : Cmd) (s : State) : Part :=
  let n := slotLe c.raw 0x20 4
  let dst := cmdRun c.raw 0x18 0x48 c.elems + c.pos
  let k := min (n - c.pos) (128 - dst % 128)
  let pat := slotLe c.raw 0x10 8
  let (s, r) := (cmdEng s q c (slotFlag c.raw 4)).write s (dst % 2 ^ 64) ((List.range k).map (fun i => BitVec.ofNat 8 (pat >>> (8 * ((c.pos + i) % 8)))))
  partBy s r (fun _ => .ok s c k true)


/-- INLINE_WRITE: one write per line. -/
def partInline (q : Nat) (c : Cmd) (s : State) : Part :=
  let (off, n) := inlineLine c.raw c.elems
  let (s, r) := (cmdEng s q c (slotFlag c.raw 4)).write s ((slotLe c.raw 0x10 8 + off) % 2 ^ 64) ((List.range n).map (fun i => BitVec.ofNat 8 (slotLe c.raw (0x40 + off + i) 1)))
  partBy s r (fun _ => .ok s c n true)

/-! ## Indexed copies (R294) -/

/-- Reads the index of an element once, and keeps it while the element is copied. -/
def withIndex (q : Nat) (c : Cmd) (s : State) (k : State → Cmd → Nat → Part) : Part :=
  let kept := Tab.get 0 c.aux 0
  if c.pos > 0 && kept > 0 then k s c (kept - 1)
  else
    let iw := slotLe c.raw 0x40 1
    let (s, r) := (cmdEng s q c false).readSpan 3 s ((slotLe c.raw 0x20 8 + c.elems * iw) % 2 ^ 64) iw
    partBy s r (fun bs =>
      let i := leNat bs
      if i ≥ slotLe c.raw 0x38 8 then .fail s 0x0B 0 else k s { c with aux := Tab.set 0 c.aux 0 (i + 1) } i)

/-- GATHER: element `i` comes from the place its index names. -/
def partGather (q : Nat) (c : Cmd) (s : State) : Part :=
  withIndex q c s (fun s c i =>
    let n := slotLe c.raw 0x2C 4
    copyPart s q c (wrapInt 64 ((slotLe c.raw 0x10 8 : Int) + i * slotSigned c.raw 0x30)) ((slotLe c.raw 0x18 8 + c.elems * n) % 2 ^ 64) n c.pos)

/-- SCATTER: element `i` goes to the place its index names. -/
def partScatter (q : Nat) (c : Cmd) (s : State) : Part :=
  withIndex q c s (fun s c i =>
    let n := slotLe c.raw 0x2C 4
    copyPart s q c ((slotLe c.raw 0x10 8 + c.elems * n) % 2 ^ 64) (wrapInt 64 ((slotLe c.raw 0x18 8 : Int) + i * slotSigned c.raw 0x30)) n c.pos)

/-! ## Stash (R295, R329) -/

/-- BF16 values of a block of 64 bytes. -/
def bf16Block (bs : List Byte) : List FVal := (List.range 32).map (fun i => bf16.decode (le bs (2 * i) 2))

/-- Rounding of element `i` of a STASH (R132, R295). -/
def stashRm (c : Cmd) (i : Nat) : Rm :=
  if slotLe c.raw 0x29 1 = 2 then .sr (srWord (BitVec.ofNat 64 (slotLe c.raw 0x30 8)) (BitVec.ofNat 64 (slotLe c.raw 0x38 8))
    (BitVec.ofNat 64 (slotLe c.raw 0x40 8 + i))) else .rne

/-- STASH of 4 KiB pages: bytes unchanged, or 64 blocks of 32 BF16 elements as FP8 with their scales (R329). -/
def partStash (q : Nat) (c : Cmd) (s : State) : Part :=
  let src := slotLe c.raw 0x10 8
  let dst := slotLe c.raw 0x18 8
  if slotLe c.raw 0x28 1 = 0 then copyPart s q c ((src + 4096 * c.elems) % 2 ^ 64) ((dst + 4096 * c.elems) % 2 ^ 64) 4096 c.pos
  else
    let j := c.pos / 64
    let b := 4096 * c.elems + c.pos
    let wr := cmdEng s q c (slotFlag c.raw 4)
    let (s, r) := (cmdEng s q c (slotFlag c.raw 3)).readSpan 3 s ((src + b) % 2 ^ 64) 64
    partBy s r (fun bs =>
      let (sc, els, _) := mxBlock (.flt e4m3) (fun i => stashRm c (b / 2 + i)) (bf16Block bs)
      let (s, r) := wr.writeSpan 3 s ((dst + c.elems * 2048 + j * 32) % 2 ^ 64) (els.map (BitVec.ofNat 8))
      partBy s r (fun _ =>
        let (s, r) := wr.write s ((dst + slotLe c.raw 0x20 8 / 2 + c.elems * 64 + j) % 2 ^ 64) [BitVec.ofNat 8 sc]
        partBy s r (fun _ => .ok s c 64 true)))

/-- UNSTASH of 4 KiB pages: bytes unchanged, or the BF16 values of the blocks (R134, R329). -/
def partUnstash (q : Nat) (c : Cmd) (s : State) : Part :=
  let src := slotLe c.raw 0x10 8
  let dst := slotLe c.raw 0x18 8
  if slotLe c.raw 0x28 1 = 0 then copyPart s q c ((src + 4096 * c.elems) % 2 ^ 64) ((dst + 4096 * c.elems) % 2 ^ 64) 4096 c.pos
  else
    let j := c.pos / 64
    let rd := cmdEng s q c (slotFlag c.raw 3)
    let (s, r) := rd.readSpan 3 s ((src + c.elems * 2048 + j * 32) % 2 ^ 64) 32
    partBy s r (fun els =>
      let (s, r) := rd.read s ((src + slotLe c.raw 0x20 8 / 2 + c.elems * 64 + j) % 2 ^ 64) 1
      partBy s r (fun sc =>
        let vs := els.flatMap (fun e => leBytes 2 (bf16.round .rne ((MxElem.flt e4m3).value (leNat sc) e.toNat)).1)
        let (s, r) := (cmdEng s q c (slotFlag c.raw 4)).writeSpan 3 s ((dst + c.elems * 4096 + c.pos) % 2 ^ 64) vs
        partBy s r (fun _ => .ok s c 64 true)))

/-- Whether each of `k` pages lies in a STASH region (R295), as their translations give it; none while one is waited for. A page with no translation
is left to the access that needs it. -/
def pagesStash (q slice : Nat) (win : Tab HvWin) (hv : Bool) (addr : Nat) : Nat → State → State × Option Bool
  | 0, s => (s, some true)
  | k + 1, s =>
    let page := (addr / 4096 + k) * 4096 % 2 ^ 64
    match (if hv then hostView win page else some page).filter (· < 2 ^ 57) with
    | none => pagesStash q slice win hv addr k s
    | some dva => match lookupOrWalk s q slice dva with
      | (s, .hold) => (s, none)
      | (s, .fault _ _) => pagesStash q slice win hv addr k s
      | (s, .leaf e) =>
        if (s.cfg.regionOf (e.pa + (dva - e.va))).all (fun r => r.stash) then pagesStash q slice win hv addr k s else (s, some false)

/-- A STASH or UNSTASH that has just started is checked for its regions (R295). -/
def stashCheck (s : State) (q : Nat) : State :=
  match (s.queue q).cmd with
  | some c =>
    if c.result.isSome || c.stage ≠ 0 then s
    else
      let n := slotLe c.raw 0x20 8
      let n := if slotLe c.raw 0x28 1 = 0 then n else n * 33 / 64
      let (hv, addr) := if c.opc = 6 then (slotFlag c.raw 4, slotLe c.raw 0x18 8) else (slotFlag c.raw 3, slotLe c.raw 0x10 8)
      match pagesStash q (queueSlice s q) c.win hv addr ((addr % 4096 + n + 4095) / 4096) s with
      | (s, none) => s
      | (s, some ok) => if ok then setCmd s q { c with stage := 1 } else endCmd s q c 0x10 0 none
  | none => s

/-! ## The commands -/

/-- Runs the command in progress of a queue, if it has the opcode named: on its elements `upto`. -/
def runOpc (s : State) (q opc upto : Nat) (part : Cmd → State → Part) (size : Cmd → Nat → Nat) (total : Cmd → Nat) (fuel : Cmd → Nat) : State :=
  match (s.queue q).cmd with
  | some c => if c.opc = opc && c.result.isNone then runElems part (size c) (total c) q (min upto (total c)) (fuel c) s else s
  | none => s

/-- A command row of an opcode: its slot starts, or it goes on if it is in progress, or a RESUME of it. -/
def dataCmd (s : State) (q opc upto : Nat) (part : Cmd → State → Part) (size : Cmd → Nat → Nat) (total : Cmd → Nat) : State :=
  let s := tryStart s q (fun b => slotLe b 0 1 = opc)
  let s := if opc = 6 || opc = 7 then stashCheck s q else s
  let todo := fun (c : Cmd) => (min upto (total c) + 1 - c.elems) * (size c c.elems / 32 + 4) + 4
  settleAll (if (opc = 6 || opc = 7) && (s.queue q).cmd.any (fun c => c.stage = 0) then s else runOpc s q opc upto part size total todo)

/-- COPY (R292). -/
def execCopy (q : Fin 4096) (upto : Nat) (s : State) : Host.Outcome State Fault Refusal :=
  .next (if s.quiet then s else dataCmd s q 0x01 upto (partCopy q) (fun c _ => slotLe c.raw 0x20 4) elemTotal)

/-- FILL (R292). -/
def execFill (q : Fin 4096) (upto : Nat) (s : State) : Host.Outcome State Fault Refusal :=
  .next (if s.quiet then s else dataCmd s q 0x02 upto (partFill q) (fun c _ => slotLe c.raw 0x20 4) elemTotal)

/-- INLINE_WRITE (R293). -/
def execInlineWrite (q : Fin 4096) (upto : Nat) (s : State) : Host.Outcome State Fault Refusal :=
  .next (if s.quiet then s else dataCmd s q 0x03 upto (partInline q) (fun c k => (inlineLine c.raw k).2) (fun c => inlineLines c.raw))

/-- GATHER (R294). -/
def execGather (q : Fin 4096) (upto : Nat) (s : State) : Host.Outcome State Fault Refusal :=
  .next (if s.quiet then s else dataCmd s q 0x04 upto (partGather q) (fun c _ => slotLe c.raw 0x2C 4) elemTotal)

/-- SCATTER (R294). -/
def execScatter (q : Fin 4096) (upto : Nat) (s : State) : Host.Outcome State Fault Refusal :=
  .next (if s.quiet then s else dataCmd s q 0x05 upto (partScatter q) (fun c _ => slotLe c.raw 0x2C 4) elemTotal)

/-- STASH (R295, R329). -/
def execStash (q : Fin 4096) (upto : Nat) (s : State) : Host.Outcome State Fault Refusal :=
  .next (if s.quiet then s else dataCmd s q 0x06 upto (partStash q) (fun _ _ => 4096) elemTotal)

/-- UNSTASH (R295, R329). -/
def execUnstash (q : Fin 4096) (upto : Nat) (s : State) : Host.Outcome State Fault Refusal :=
  .next (if s.quiet then s else dataCmd s q 0x07 upto (partUnstash q) (fun _ _ => 4096) elemTotal)

/-- RESUME (R304): the context it names is taken and its command goes on from the first element not counted in it; with no such context
it ends NO_RESUME. The rows of the resumed command carry it on. -/
def execResume (q : Fin 4096) (s : State) : Host.Outcome State Fault Refusal :=
  .next (if s.quiet then s else settleAll (tryStart s q (fun b => slotLe b 0 1 = 0x13)))

/-! ## Rings, doorbells and control (R283–R288, R303, R305–R308) -/

/-- DOORBELL (R286, R381): a BAR2 write of page `q`; offset 0 only, a 64-bit write or a 32-bit one to the low half. It takes the link out of
L1. One that reaches the module before an earlier write of the host without Relaxed Ordering is at its home waits for it (R248): its command comes again
(log 37). -/
def execDoorbell (q : Fin 4096) (off : BitVec 12) (wide : Bool) (v : BitVec 64) (s : State) : Host.Outcome State Fault Refusal :=
  .next (if s.quiet || !s.hostUp || s.txns.any (fun t => t.src = .host && (t.opc = 5 || t.opc = 6) && !t.relaxed && t.active) then s
  else
    let s := wakeLink s
    if off ≠ 0 then s else setQueue s q ((s.queue q).doorbell (if wide then v.toNat else v.toNat % 2 ^ 32)))

/-- SLOT_REFETCH (R288): a slot that does not read as expected is read again 256 ns later; after 64 times the queue stops STALE (DEDUCED,
log 107). -/
def execSlotRefetch (q : Fin 4096) (s : State) : Host.Outcome State Fault Refusal :=
  .next (if !mayStart s q then s
  else
    let again := fun (s : State) =>
      let s := advance 256 s
      let x := s.queue q
      if x.tries + 1 ≥ 64 then stopQueue s q 3 else setQueue s q { x with tries := x.tries + 1 }
    match fetchSlot s q with
    | (s, .slot b) => if slotDue (s.queue q) b then s else again s
    | (s, .fault) => stopQueue s q 3
    | (s, .bad) => again s
    | (s, .hold) => s)

/-- A write of CEQ_RING (R284, R308): of a STOPPED queue, with a depth of 4 to 16. The records that wait behind a held one go with it (DESIGN CHOICE,
log 151). -/
def writeRing (s : State) (q : Nat) (v : Word) : State :=
  let x := s.queue q
  let n := bits v 4 0
  if x.state ≠ 0 || n < 4 || n > 16 then s
  else
    let s := (q :: x.closing.map (fun c => closeTag q c.seq)).foldl endWork s
    setQueue s q { x with ring := keepFields v [(56, 12), (4, 0)], prod := 0, cons := 0, nextSeq := 0, phase := true, heldRecord := none,
                          heldIssued := false, cmd := none, closing := [], resume := none, records := 0, tries := 0 }

/-- CEQ_RING_WRITE (R284). -/
def execCeqRingWrite (q : Fin 4096) (v : BitVec 64) (s : State) : Host.Outcome State Fault Refusal :=
  .next (if s.quiet then s else writeRing s q v)

/-- START (R283, R303): refused with BUSY, UNBOUND or NO_SLICE; discarded while its slice resets (R398). START of a STOPPING queue
withdraws a STOP (DEDUCED, log 33). -/
def startQueue (s : State) (q : Nat) : State :=
  let x := s.queue q
  let refuse' := fun r => setQueue s q { x with refused := r }
  if x.state = 1 then s
  else match sliceOfQueue s q with
    | none => if s.chart.state = 4 || s.chart.reload then refuse' 1 else refuse' 3
    | some n =>
      let st := (s.slice n).state
      if s.chart.state = 4 || s.chart.reload then refuse' 1
      else if st = 3 then s
      else if st ≠ 2 then refuse' 2
      else if x.state = 2 then (if x.stopReason = 1 then setQueue s q { x with state := 1, stopReason := 0 } else s)
      else setQueue s q { x with state := 1, reason := 0, tries := 0, stopReason := 0 }

/-- QUEUE_START. -/
def execQueueStart (q : Fin 4096) (s : State) : Host.Outcome State Fault Refusal :=
  .next (if s.quiet then s else startQueue s q)


/-- QUEUE_STOP (R308). -/
def execQueueStop (q : Fin 4096) (s : State) : Host.Outcome State Fault Refusal :=
  .next (if s.quiet then s else stopQueue s q 1)

/-- ABORT (R305, R310): the command in progress ends at its next boundary, and its record is reported; where none is in progress, OUTCOME 0. -/
def abortQueue (s : State) (q : Nat) : State :=
  let x := s.queue q
  if x.state ≠ 0 && x.inProgress then abortCmd (stopQueue (setQueue s q { x with abortReq := true }) q 7) q
  else
    let s := setQueue s q { x with abortResult := BitVec.ofNat 64 (2 ^ 63) }
    if x.state ≠ 0 && x.waiting > 0 then stopQueue s q 7 else s

/-- QUEUE_ABORT. -/
def execQueueAbort (q : Fin 4096) (s : State) : Host.Outcome State Fault Refusal :=
  .next (if s.quiet then s else abortQueue s q)

/-- DROP_RESUME (R303). -/
def execDropResume (q : Fin 4096) (s : State) : Host.Outcome State Fault Refusal :=
  .next (if s.quiet then s else setQueue s q { s.queue q with resume := none })

/-- A write of CEQ_CTL: ABORT, STOP, DROP_RESUME, START in this order (DESIGN CHOICE, log 34). -/
def writeCeqCtl (s : State) (q v : Nat) : State :=
  let s := if v.testBit 2 then abortQueue s q else s
  let s := if v.testBit 1 then stopQueue s q 1 else s
  let s := if v.testBit 3 then setQueue s q { s.queue q with resume := none } else s
  if v.testBit 0 then startQueue s q else s

/-- Sends the interrupts of queues that a slice operation stopped (R307). -/
def flushIrqs (s : State) : State :=
  (s.queues.filter (fun p => p.2.irqDue)).foldl (fun s p => sendIrq s p.1) s

/-- IRQ_TIMER (R307): TIMER_US after the first record with IRQ set, or at a stop, the queue's interrupt goes. -/
def execIrqTimer (q : Fin 4096) (s : State) : Host.Outcome State Fault Refusal :=
  .next (
    let x := s.queue q
    if s.quiet then s
    else if x.irqDue then sendIrq s q
    else if x.irqCount = 0 then s
    else sendIrq (advanceTo (x.irqSince + bits x.irq 47 32 * 1000) s) q)

end Sys2Proof.Machine
end

