-- ==== Sys2Proof/Machine/QueueOps.lean ====
section
/-!
DEFINITION. The queue commands that copy no runs: MIGRATE (R199–R201), ADVISE (R202), SIGNAL and WAIT (R296), FENCE (R237, R297).
-/
namespace Sys2Proof.Machine

/-- The command in progress of a queue, if it has the opcode named, has not ended, and is not aborted; an aborted one ends. -/
def onCmd (s : State) (q opc : Nat) (f : Cmd → State) : State :=
  match (s.queue q).cmd with
  | some c => if c.opc ≠ opc || c.result.isSome then s else if c.aborting then endCmd s q c (abortStatus s q) 0 none else f c
  | none => s

/-! ## MIGRATE -/

/-- A leaf found by a walk of MIGRATE: its address, value and level. -/
inductive Leaf where
  | found (addr val level : Nat)
  | fault (reason level : Nat)
  | hold
  deriving DecidableEq, Repr

/-- Walks on to the leaf of an address from where a walk stands (R180–R186). -/
def findLeafFrom (dva : Nat) : Nat → State → GtuWalk → State × Leaf × GtuWalk
  | 0, s, w => (s, .hold, w)
  | fuel + 1, s, w =>
    let idx := (dva >>> (12 + 9 * w.level)) % 512
    match readEntry s w.slice (walkTag w.key) w.table idx w.level with
    | (s, .inl (.fault r l)) => (s, .fault r l, w)
    | (s, .inl _) => (s, .hold, w)
    | (s, .inr e) =>
      if !e.testBit 0 then (s, .fault 0x01 w.level, w)
      else if entryReserved e w.level then (s, .fault 0x03 w.level, w)
      else if e.testBit 1 then (s, .found (w.table + idx * 8) e w.level, w)
      else findLeafFrom dva fuel s { w with level := w.level - 1, table := entryAddr e }

/-- The leaf of an address in a slice's context, for the MIGRATE of a queue. -/
def findLeaf (s : State) (q slice dva : Nat) : State × Leaf :=
  let c := s.ctx slice
  if dva ≥ 2 ^ 57 then (s, .fault 0x06 7)
  else if !bit c.root 0 || (s.slice slice).pasid = 0 then (s, .fault 0x08 7)
  else
    let held := s.gtu.walks.find? (fun w => w.key = q && w.slice = slice && w.page = dva / 4096)
    let s := if held.isSome then s else dropWalk s q
    let w := held.getD { key := q, slice := slice, page := dva / 4096, table := bits c.root 49 12 * 4096 }
    if !w.started && !walkMayStart s w then (keepWalk s w, .hold)
    else match findLeafFrom dva 6 s { w with started := true } with
      | (s, .hold, w) => (keepWalk s w, .hold)
      | (s, r, _) => (dropWalk s q, r)

def holdOf (s : State) (q : Nat) : Option MigHold := s.gtu.holds.find? (fun h => h.queue = q)
def setHold (s : State) (h : MigHold) : State := { s with gtu := { s.gtu with holds := h :: s.gtu.holds.filter (fun o => o.queue ≠ h.queue) } }
/-- Releases the write hold of a queue (R199, R200): the interrupt writes it held go. -/
def dropHold (s : State) (q : Nat) : State :=
  match holdOf s q with
  | none => s
  | some h => sendHeldIrqs { s with gtu := { s.gtu with holds := s.gtu.holds.filter (fun o => o.queue ≠ q) } } h.slice

/-- The invalidation that ends the migration of a page. -/
def MigHold.inv (h : MigHold) : InvReq := { op := 3, slice := h.slice, seq := 0, addr := h.va, size := h.size }

/-- A MIGRATE ends at a page: its hold is released, and a page already swapped is invalidated (R200). -/
def migrateEnds (s : State) (q : Nat) (c : Cmd) (status detail : Nat) : State :=
  let s := match holdOf s q with | some h => if c.stage = 1 then dropCovered s h.inv else s | none => s
  endCmd (dropHold (endFailed s q) q) q { c with pos := 0 } status detail (if status = 0 then none else some c.elems)

/-- An aborted MIGRATE ends with its hold released (R305); a page that is swapped is first finished (R205). -/
def onMigrate (s : State) (q : Nat) (f : Cmd → State) : State :=
  match (s.queue q).cmd with
  | some c =>
    if c.opc ≠ 0x08 || c.result.isSome then s
    else if c.aborting && c.stage ≠ 1 then endCmd (dropHold (endFailed s q) q) q { c with pos := 0 } (abortStatus s q) 0 none
    else f c
  | none => s

/-- A line whose bytes are undefined (R200): a free value, in memory or where the array holds it. -/
def loseLine (gen : Nat) (s : State) (pa : Nat) : State :=
  let held := fun (j st : Nat) => match (if llaOn s then lookup s j st (pa / 128) else none) with
    | some w => setWay s j st w { s.way j st w with data := Config.freeBits 1024 gen (pa / 128) }
    | none => s
  match s.cfg.locate pa with
  | .hbm _ ch ca =>
    let s := held (ch / 8) (llaSet ch ca)
    let lo := memKey ch ca
    { s with mem := s.mem.filter (fun c => !(lo ≤ c.1 && c.1 < lo + 128)), undef := { lo := lo, len := 128, gen := gen } :: punch lo 128 s.undef }
  | .scratch j w st => setWay s j st w { s.way j st w with data := Config.freeBits 1024 gen (pa / 128) }
  | .remote _ j st => held j st
  | .unmapped => s

/-- The destination of a page that was not swapped holds undefined bytes (R200) (log 16). -/
def loseDest (s : State) (h : MigHold) : State :=
  let s' := (List.range (h.size / 128)).foldl (fun s i => loseLine s.draws s (h.dest + 128 * i)) s
  { s' with draws := s'.draws + 1 }

/-- MIGRATE (R199): the next page is walked and its write hold installed; past the last page the command is complete. Pages of 1 GiB and
CONT entries, and a range or destination off the page's boundary, stop it with PAGE_SIZE (DEDUCED, log 114). -/
def execMigrate (q : Fin 4096) (s : State) : Host.Outcome State Fault Refusal :=
  .next (if s.quiet then s
  else
    let s := tryStart s q (fun b => slotLe b 0 1 = 0x08)
    settleAll (onMigrate s q (fun c =>
      let dva := slotLe c.raw 0x10 8
      let len := slotLe c.raw 0x18 8
      let sl := queueSlice s q
      if (holdOf s q).isSome then s
      else if c.bytes ≥ len then endCmd s q c 0 0 none
      else
        let va := dva + c.bytes
        match findLeaf s q sl va with
        | (s, .hold) => s
        | (s, .fault r l) => migrateEnds (recordFault s sl va (6 + c.eng / 16) l 0 r) q c 2 r
        | (s, .found addr e level) =>
          let size := if level = 1 then 0x200000 else 0x1000
          let dest := slotLe c.raw 0x20 8 + c.bytes
          if level ≥ 2 || (level = 0 && e.testBit 5) || va % size ≠ 0 || c.bytes + size > len || dest % size ≠ 0 then migrateEnds s q c 0x0D 0
          else setHold s { queue := q, slice := sl, va := va, size := size, leafAddr := addr, leaf := e, dest := dest })))

/-- Whether a write or atomic translated through the page has not reached its home (R199). -/
def pageBusy (s : State) (h : MigHold) : Bool :=
  let pa := entryAddr h.leaf
  s.txns.any (fun t => t.active && !t.untranslated && !isRead t.opc && t.slice = some h.slice && pa ≤ t.addr && t.addr < pa + h.size)

/-- Copies the lines of a held page one by one (R199); each write is complete before the next. -/
def migrateLines (q : Nat) (h : MigHold) : Nat → State → State
  | 0, s => s
  | fuel + 1, s =>
    match (s.queue q).cmd with
    | none => s
    | some c =>
      if tagBusy s q then s
      else match tagFailure s q with
        | some st => migrateEnds s q c (recordStatus st) 0
        | none =>
          if c.pos ≥ h.size then setHold s { h with copied := true }
          else
            let e := cmdEng s q c false
            match readPart s q (e.txn (entryAddr h.leaf + c.pos) false) 128 with
            | (s, .hold, _) => s
            | (s, .fail st, _) => migrateEnds s q c (recordStatus st) 0
            | (s, .ok _, bs) =>
              let (s, _) := writePart s q (e.txn (h.dest + c.pos) false) bs
              migrateLines q h fuel (setCmd s q { c with pos := c.pos + 128 })

/-- MIGRATE_COPY (R199): with the held writes at home, the page is copied to its destination. -/
def execMigrateCopy (q : Fin 4096) (s : State) : Host.Outcome State Fault Refusal :=
  .next (if s.quiet then s
  else settleAll (onMigrate s q (fun _ =>
    match holdOf s q with
    | none => s
    | some h => if h.copied || pageBusy s h then s else migrateLines q h (h.size / 128 + 1) s)))

/-- MIGRATE_SWAP (R199, R200): the leaf is compared and swapped at its home, the page invalidated and the hold released, or the page fails
with MIGRATE_CONFLICT. -/
def execMigrateSwap (q : Fin 4096) (s : State) : Host.Outcome State Fault Refusal :=
  .next (if s.quiet then s
  else settleAll (onMigrate s q (fun c =>
    match holdOf s q with
    | none => s
    | some h =>
      if !h.copied then s
      else
        let finish := fun (s : State) =>
          match invalidateNow s h.inv with
          | none => setCmd s q { c with stage := 1 }
          | some s => setCmd (dropHold s q) q { c with elems := c.elems + 1, bytes := c.bytes + h.size, pos := 0, stage := 0 }
        if c.stage = 1 then finish s
        else
          let new := h.leaf % 4096 + h.dest / 4096 * 4096 + h.leaf >>> 50 <<< 50
          match access s q { id := 0, src := .engine q, opc := 0x12, addr := h.leafAddr, reg := h.slice, ini := 206, attr := 3, op0 := h.leaf, op1 := new } with
          | (s, .hold) => s
          | (s, .fail st) => migrateEnds s q c (recordStatus st) 0
          | (s, .ok v) => if v.toNat = h.leaf then finish s else migrateEnds (loseDest s h) q c 0x0E 0)))

/-! ## ADVISE -/

/-- Marks the held translation of an address pinned or not. -/
def pinPage (s : State) (slice dva : Nat) (on : Bool) : State :=
  { s with gtu := { s.gtu with tlb := s.gtu.tlb.map (fun e => if e.slice = slice && e.va ≤ dva && dva < e.va + e.size then { e with pinned := on } else e) } }

/-- Pages of a context that are pinned. -/
def pinnedPages (s : State) (slice : Nat) : Nat := (s.gtu.tlb.filter (fun e => e.slice = slice && e.pinned)).length

/-- One page of an ADVISE (R202): the state, its size, whether it counts as translated, or for UNPIN as passed; none where its walk cannot be made now. -/
def advisePage (s : State) (q slice kind dva : Nat) : State × Option (Nat × Bool) :=
  if kind = 2 then
    match tlbFind s slice dva with
    | some e => (pinPage s slice dva false, some (e.va + e.size - dva, true))
    | none => (s, some (4096 - dva % 4096, true))
  else if dva ≥ 2 ^ 57 then (s, some (4096 - dva % 4096, false))
  else match lookupOrWalk s q slice dva with
    | (s, .hold) => (s, none)
    | (s, .fault _ _) => (s, some (4096 - dva % 4096, false))
    | (s, .leaf e) =>
      let n := e.va + e.size - dva
      if kind = 1 then
        match tlbFind s slice dva with
        | none => (s, some (n, false))
        | some e =>
          if e.pinned then (s, some (n, true))
          else if pinnedPages s slice < (s.ctx slice).pinLimit then (pinPage s slice dva true, some (n, true))
          else (s, some (n, false))
      else (s, some (n, true))

/-- The pages of an ADVISE in order: `pos` bytes of the range are done, `elems` pages translated, the others skipped (DEDUCED, log 115). -/
def adviseRun (q : Nat) : Nat → State → State
  | 0, s => s
  | fuel + 1, s =>
    match (s.queue q).cmd with
    | none => s
    | some c =>
      let len := slotLe c.raw 0x18 8
      if c.pos ≥ len then endCmd s q c 0 0 none
      else match advisePage s q (queueSlice s q) (slotLe c.raw 0x20 1) ((slotLe c.raw 0x10 8 + c.pos) % 2 ^ 64) with
        | (s, none) => s
        | (s, some (n, counts)) =>
          let n := min n (len - c.pos)
          adviseRun q fuel (setCmd s q { c with pos := c.pos + n, elems := if counts then c.elems + 1 else c.elems, bytes := if counts then c.bytes + n else c.bytes })

/-- An ADVISE of a kind. -/
def adviseCmd (s : State) (q kind : Nat) : State :=
  if s.quiet then s
  else
    let s := tryStart s q (fun b => slotLe b 0 1 = 0x09 && slotLe b 0x20 1 = kind)
    settleAll (onCmd s q 0x09 (fun c => if slotLe c.raw 0x20 1 = kind then adviseRun q (slotLe c.raw 0x18 8 / 4096 + 2) s else s))

/-- ADVISE_TRANSLATE (R202). -/
def execAdviseTranslate (q : Fin 4096) (s : State) : Host.Outcome State Fault Refusal := .next (adviseCmd s q 0)
/-- ADVISE_PIN (R202). -/
def execAdvisePin (q : Fin 4096) (s : State) : Host.Outcome State Fault Refusal := .next (adviseCmd s q 1)
/-- ADVISE_UNPIN (R202). -/
def execAdviseUnpin (q : Fin 4096) (s : State) : Host.Outcome State Fault Refusal := .next (adviseCmd s q 2)

/-! ## SIGNAL and WAIT -/

/-- A SIGNAL of an OP: one 64-bit atomic at the home, which has done its part once it is handed on (R232, R234, R296). An abort ends it only before it
starts. -/
def signalCmd (s : State) (q op : Nat) : State :=
  if s.quiet then s
  else
    let s := tryStart s q (fun b => slotLe b 0 1 = 0x0A && slotLe b 0x20 1 = op)
    settleAll (match (s.queue q).cmd with
      | none => s
      | some c =>
        if c.opc ≠ 0x0A || c.result.isSome || slotLe c.raw 0x20 1 ≠ op then s
        else if c.aborting && c.stage = 0 then endCmd s q c (abortStatus s q) 0 none
        else
          let c := { c with stage := 1 }
          let opc := if op = 0 then 0x10 else if op = 1 then 0x11 else 0x14
          match (cmdEng s q c false).atomic (setCmd s q c) (slotLe c.raw 0x10 8) opc (slotLe c.raw 0x18 8) with
          | (s, .ok _) => endCmd s q c 0 0 none
          | (s, .hold) => if s.txns.any (fun t => t.src = .engine q) && moduleDone s q then endCmd s q c 0 0 none else s
          | (s, .fail st r) => endCmd s q c (recordStatus st) r none)

/-- SIGNAL_ADD (R296). -/
def execSignalAdd (q : Fin 4096) (s : State) : Host.Outcome State Fault Refusal := .next (signalCmd s q 0)
/-- SIGNAL_SET (R296). -/
def execSignalSet (q : Fin 4096) (s : State) : Host.Outcome State Fault Refusal := .next (signalCmd s q 1)
/-- SIGNAL_MAX (R296). -/
def execSignalMax (q : Fin 4096) (s : State) : Host.Outcome State Fault Refusal := .next (signalCmd s q 2)

/-- A WAIT's condition (R296). -/
def waitMet (cond v w : Nat) : Bool := match cond with | 0 => v ≥ w | 1 => v = w | _ => v ≠ w

/-- One reading of a WAIT's word; `pos` counts its readings. -/
def waitRead (s : State) (q : Nat) (c : Cmd) : State :=
  let (s, r) := (cmdEng s q c false).readSpan 3 s (slotLe c.raw 0x10 8) 8
  match r with
  | .hold => s
  | .fail st reason => endCmd s q c (recordStatus st) reason none
  | .ok bs => if waitMet (slotLe c.raw 0x20 1) (leNat bs) (slotLe c.raw 0x18 8) then endCmd s q c 0 0 none else setCmd s q { c with pos := c.pos + 1 }

/-- WAIT (R296): starts and reads its word. -/
def execWait (q : Fin 4096) (s : State) : Host.Outcome State Fault Refusal :=
  .next (if s.quiet then s
  else
    let s := tryStart s q (fun b => slotLe b 0 1 = 0x0B)
    settleAll (onCmd s q 0x0B (fun c => if c.pos = 0 then waitRead s q c else s)))

/-- Whether a WAIT's time is over at a time. -/
def waitOver (c : Cmd) (t : Nat) : Bool := let us := slotLe c.raw 0x24 4; us ≠ 0 && decide (t > c.t0 + us * 1000)

/-- WAIT_POLL (R296): the next reading, 256 ns after the one before, unless the time is over first. -/
def execWaitPoll (q : Fin 4096) (s : State) : Host.Outcome State Fault Refusal :=
  .next (if s.quiet then s
  else settleAll (onCmd s q 0x0B (fun c =>
    let due := c.t0 + 256 * c.pos
    if c.pos = 0 || waitOver c due then s else waitRead (advanceTo due s) q c)))

/-- WAIT_TIMEOUT (R296). -/
def execWaitTimeout (q : Fin 4096) (s : State) : Host.Outcome State Fault Refusal :=
  .next (if s.quiet then s
  else onCmd s q 0x0B (fun c =>
    let us := slotLe c.raw 0x24 4
    if us = 0 || c.pos = 0 then s else endCmd (advanceTo (c.t0 + us * 1000) s) q c 0x0C 0 none))

/-! ## FENCE -/

/-- A FENCE of a kind (R237). The writes of the queue's earlier commands are complete at MODULE scope before it starts (R232); a release at FABRIC scope
waits until they are complete at that scope too, then releases the named regions; then they are acquired. Its elements are the lines written back (R290)
(DEDUCED, log 109). -/
def fenceCmd (s : State) (q kind : Nat) : State :=
  if s.quiet then s
  else
    let s := tryStart s q (fun b => slotLe b 0 1 = 0x0C && slotLe b 0x11 1 = kind)
    settleAll (match (s.queue q).cmd with
      | none => s
      | some c =>
        if c.opc ≠ 0x0C || c.result.isSome || slotLe c.raw 0x11 1 ≠ kind then s
        else
          let sl := queueSlice s q
          let all := cacheableMask s sl
          let m := BitVec.ofNat 16 (slotLe c.raw 0x12 2)
          let regions := if m = 0 then all else m &&& all
          let begin' := fun (s : State) (c : Cmd) (acq : Bool) =>
            let (s, id) := startFab s sl regions acq true
            setCmd s q { c with stage := if acq then 2 else 1, aux := Tab.set 0 c.aux 0 (id + 1) }
          match c.stage with
          | 0 =>
            if c.aborting then endCmd s q c (abortStatus s q) 0 none
            else if slotLe c.raw 0x10 1 = 2 then endCmd s q c 0 0 none
            else if kind ≠ 2 && !(s.queue q).closing.isEmpty then s
            else if regions = 0 then endCmd s q c 0 0 none
            else begin' s c (decide (kind = 2))
          | n =>
            match fenceEnded s c with
            | none => s
            | some (s, c) => if n = 1 && kind = 3 && !c.aborting then begin' s c true else setCmd s q (c.fenceResult s q))

/-- FENCE_RELEASE (R237). -/
def execFenceRelease (q : Fin 4096) (s : State) : Host.Outcome State Fault Refusal := .next (fenceCmd s q 1)
/-- FENCE_ACQUIRE (R237). -/
def execFenceAcquire (q : Fin 4096) (s : State) : Host.Outcome State Fault Refusal := .next (fenceCmd s q 2)
/-- FENCE_RELEASE_ACQUIRE (R237). -/
def execFenceReleaseAcquire (q : Fin 4096) (s : State) : Host.Outcome State Fault Refusal := .next (fenceCmd s q 3)

end Sys2Proof.Machine
end

