-- ==== Sys2Proof/Machine/LaunchOps.lean ====
section
/-!
DEFINITION. LAUNCH (R87, R298).
-/
namespace Sys2Proof.Machine

/-- The logical cores a LAUNCH names, lowest first. -/
def launchCores (c : Cmd) : List Nat := let m := slotLe c.raw 0x10 18; (List.range 144).filter (fun n => m.testBit n)

/-- Whether a logical core is a hole or retired (R432), or lies on a site that has failed. -/
def coreGone (s : State) (n : Nat) : Bool :=
  match coreOf s n with
  | none => true
  | some c => (s.core c).st = .retired || (s.site (c / 24)).state = 6 || (s.site (c / 24)).state = 7

/-- Whether a LAUNCH cannot take a core when it executes: gone, or its site not UP or DEGRADED (R31, R87). -/
def coreUnfit (s : State) (n : Nat) : Bool :=
  coreGone s n || (match coreOf s n with | some c => !siteUp s (c / 24) | none => true)

/-- Puts bytes of an image in a core's instruction memory. -/
def loadImage (x : Core) (off : Nat) (bs : List Byte) : Core := { x with imem := storeMasked x.imem off (fun _ => true) 0 bs }

/-- One piece of an image reaches every named core: by Deckle IMAGE on a customer die (R225). -/
def deliverImage (s : State) (cores : List Nat) (off : Nat) (bs : List Byte) : State :=
  cores.foldl (fun s c =>
    if customerDie s (c / 24) then post s (c / 24) { cls := 5, opc := 8, unit := c % 24, addr := off, line := lineOf bs }
    else setCore s c (loadImage (s.core c) off bs)) s

/-- The values of R62 and R87 at LAUNCH. -/
def Core.launched (x : Core) (q entry : Nat) (args : List Nat) : Core :=
  { x with
    st := .running, hold := .none, pc := BitVec.ofNat 18 entry
    x := args.zipIdx.foldl (fun t p => Tab.set 0 t (p.2 + 1) (BitVec.ofNat 64 p.1)) []
    sem := [], lc := [], loops := [], fflags := 0, frm := 0, srSeed := 0, srStep := 0, srIndex := 0, cycle := 0
    trapCause := 0, trapAsync := false, trapValid := false, tq := [], matq := []
    launch := some q, gated := false, survey := false, fenceRel := none, pastEnd := false }

/-- Prepares and releases the named cores (R87 steps 3 and 4): UNIT_START on a customer die. -/
def releaseCores (s : State) (q : Nat) (c : Cmd) (cores : List Nat) : State :=
  let entry := slotLe c.raw 0x28 4
  let args := (List.range 8).map (fun i => slotLe c.raw (0x38 + 8 * i) 8)
  cores.foldl (fun s k =>
    if customerDie s (k / 24) then
      setCore (post s (k / 24) { cls := 5, opc := 5, unit := k % 24, addr := entry, extra := args }) k
        { s.core k with launch := some q, trapValid := false, trapCause := 0, trapAsync := false }
    else
      let s := (List.range 4).foldl (fun s t => endWork s (tmTag k t)) s
      setCore s k ((s.core k).launched q entry args)) s

/-- Ends a LAUNCH that named a core gone, with the lowest of them. -/
def launchRetired (s : State) (q : Nat) (c : Cmd) (gone : List Nat) : State := endCmd s q c 7 (gone.headD 0) none

/-- LAUNCH (R87, R298): starts, and checks its cores: none named, one outside the slice, one retired. -/
def execLaunch (q : Fin 4096) (s : State) : Host.Outcome State Fault Refusal :=
  .next (if s.quiet then s
  else
    let s := tryStart s q (fun b => slotLe b 0 1 = 0x10)
    settleAll (match (s.queue q).cmd with
      | none => s
      | some c =>
        if c.opc ≠ 0x10 || c.result.isSome || c.stage ≠ 0 then s
        else
          let ns := launchCores c
          let mine := match sliceRec s (queueSlice s q) with | some r => r.cores.toNat | none => 0
          let gone := ns.filter (coreUnfit s)
          if c.aborting then endCmd s q c (abortStatus s q) 0 none
          else if ns.isEmpty then endCmd s q c 0 0 none
          else if ns.any (fun n => !mine.testBit n) then endCmd s q c 3 0 none
          else if !gone.isEmpty then launchRetired s q c gone
          else setCmd s q { c with stage := 1 }))

/-- The image read line by line and delivered as it comes. -/
def launchImage (q : Nat) (cores : List Nat) : Nat → State → State
  | 0, s => s
  | fuel + 1, s =>
    match (s.queue q).cmd with
    | none => s
    | some c =>
      let n := slotLe c.raw 0x2C 4
      if c.pos ≥ n then s
      else
        let k := min 128 (n - c.pos)
        let (s, r) := (cmdEng s q c false).readSpan 3 s ((slotLe c.raw 0x30 8 + c.pos) % 2 ^ 64) k
        match r with
        | .hold => s
        | .fail st reason => endCmd s q c (recordStatus st) reason none
        | .ok bs => launchImage q cores fuel (setCmd (deliverImage s cores c.pos bs) q { c with pos := c.pos + k })

/-- LAUNCH_START (R87 steps 2 to 4): once every named core is HALTED, Survey leaves them, the image is loaded, and all are released
(DEDUCED, log 119). -/
def execLaunchStart (q : Fin 4096) (s : State) : Host.Outcome State Fault Refusal :=
  .next (if s.quiet then s
  else settleAll (match (s.queue q).cmd with
    | none => s
    | some c =>
      if c.opc ≠ 0x10 || c.result.isSome || c.stage ≠ 1 then s
      else if c.aborting then endCmd s q c (abortStatus s q) 0 none
      else
        let ns := launchCores c
        let gone := ns.filter (coreUnfit s)
        if !gone.isEmpty then launchRetired s q c gone
        else
          let cores := ns.filterMap (coreOf s)
          if cores.any (fun k => (s.core k).st ≠ .halted) then setCmd s q { c with pos := 0 }
          else
            let s := { s with tel := { s.tel with testing := s.tel.testing.filter (fun p => !(p.1.kind = 0 && ns.contains p.1.unit)) } }
            let s := cores.foldl (fun s k => setCore s k { s.core k with survey := false }) s
            let s := launchImage q cores 2049 s
            match (s.queue q).cmd with
            | none => s
            | some c =>
              if c.result.isSome || c.pos < slotLe c.raw 0x2C 4 then s
              else setCmd (releaseCores s q c cores) q { c with stage := 2 }))

/-- Whether a released core has stopped: HALTED, or gone. A customer die's unit has said so since its start. -/
def coreEnded (s : State) (q n : Nat) : Bool :=
  coreGone s n || (match coreOf s n with
    | some c => (s.core c).st = .halted && !(customerDie s (c / 24) && (s.core c).launch = some q)
    | none => true)

/-- LAUNCH_COMPLETE (R87 step 5): every named core has stopped. A core retired gives UNIT_RETIRED, else a trap gives CORE_TRAP, each with
the lowest (DEDUCED, log 117). A core that a site reset took through RESET has no trap and ends it COMPLETE (DESIGN CHOICE, log 155). -/
def execLaunchComplete (q : Fin 4096) (s : State) : Host.Outcome State Fault Refusal :=
  .next (if s.quiet then s
  else match (s.queue q).cmd with
    | none => s
    | some c =>
      let ns := launchCores c
      if c.opc ≠ 0x10 || c.result.isSome || c.stage ≠ 2 || !ns.all (coreEnded s q) then s
      else if c.aborting then endCmd s q c (abortStatus s q) 0 none
      else if ns.any (coreGone s) then launchRetired s q c (ns.filter (coreGone s))
      else match ns.find? (fun n => match coreOf s n with | some k => (s.core k).trapCause ≠ 0 | none => false) with
        | some n =>
          let x := s.core ((coreOf s n).getD 0)
          endCmd s q c 9 (n + 256 * (x.trapCause + flag x.trapAsync 7)) none
        | none => endCmd s q c 0 0 none)

end Sys2Proof.Machine
end

