-- ==== Sys2Proof/Machine/Calender.lean ====
section
/-!
DEFINITION. The Calender engines (R311–R326): the checks of a run, its placement in chunks, and the arithmetic of its microprogram.
-/
namespace Sys2Proof.Machine

/-! ## Microprograms (R318–R321) -/

/-- Fields of an operation. -/
structure CalF where
  opc : Nat
  d : Nat
  sa : Nat
  sb : Nat
  sc : Nat
  opnd : Nat
  rm : Nat
  rsvd : Nat
  deriving DecidableEq, Repr

def calF (w : Nat) : CalF :=
  { opc := fieldAt w 0 8, d := fieldAt w 8 4, sa := fieldAt w 12 6, sb := fieldAt w 18 6, sc := fieldAt w 24 6, opnd := fieldAt w 30 3,
    rm := fieldAt w 33 3, rsvd := fieldAt w 36 28 }

/-- A source that is not reserved (R319). -/
def calSrc (n : Nat) : Bool := n < 0x24

/-- Operand formats (R315): bytes of an element, and whether it is an MX format. -/
def calWidth (fmt : Nat) : Nat := if fmt = 0 then 4 else if fmt = 1 then 2 else 1
def calMx (fmt : Nat) : Bool := fmt = 0x10 || fmt = 0x11

/-- Operand descriptor `i` of a table. -/
def opFmt (t : List Byte) (i : Nat) : Nat := le t (64 + 32 * i) 1
def opAccess (t : List Byte) (i : Nat) : Nat := le t (64 + 32 * i + 1) 1
def opBase (t : List Byte) (i : Nat) : Nat := le t (64 + 32 * i + 8) 8
def opScale (t : List Byte) (i : Nat) : Nat := le t (64 + 32 * i + 16) 8
def nOper (t : List Byte) : Nat := le t 0 1

/-- One operation alone (R318, R319, R321): no reserved value, unused fields zero, an operand it may use. -/
def calOpOk (t : List Byte) (w : Nat) : Bool :=
  let f := calF w
  let o := f.opc
  let opnd := f.opnd < nOper t
  f.rsvd = 0 &&
  (if o = 1 then f.sa = 0 && f.sb = 0 && f.sc = 0 && f.rm = 0 && opnd && opAccess t f.opnd % 2 = 1
   else if o = 2 then f.d = 0 && calSrc f.sa && f.sb = 0 && f.sc = 0 && f.rm ≤ 2 && opnd && opAccess t f.opnd / 2 % 2 = 1
   else if o = 3 then calSrc f.sa && f.sb = 0 && f.sc = 0 && f.rm ≤ 2 && opnd
   else if o = 0x10 || o = 0x11 || o = 0x12 || o = 0x15 || o = 0x16 || o = 0x1B then calSrc f.sa && calSrc f.sb && f.sc = 0 && f.opnd = 0 && f.rm = 0
   else if o = 0x13 || o = 0x14 then calSrc f.sa && calSrc f.sb && calSrc f.sc && f.opnd = 0 && f.rm = 0
   else if (0x17 ≤ o && o ≤ 0x1A) || o = 0x1C || o = 0x1D then calSrc f.sa && f.sb = 0 && f.sc = 0 && f.opnd = 0 && f.rm = 0
   else if o = 0x20 then f.d = 0 && calSrc f.sa && f.sb = 0 && f.sc = 0 && f.opnd ≤ 1 && f.rm = 0
   else false)

/-- Whether operation `i` breaks a rule with the ones before it: a second ST of an operand, or ST and ACCSQ together. -/
def calClash (prog : List Nat) (i : Nat) : Bool :=
  let f := calF (prog[i]?.getD 0)
  (prog.take i).any (fun w => let g := calF w
    (f.opc = 2 && g.opc = 2 && g.opnd = f.opnd) || (f.opc = 2 && g.opc = 0x20) || (f.opc = 0x20 && g.opc = 2))

/-- The first operation that breaks R321. -/
def badProgram (t : List Byte) (prog : List Nat) : Option Nat :=
  (List.range prog.length).find? (fun i => !calOpOk t (prog[i]?.getD 0) || calClash prog i)

/-- The first operand of a table that breaks R315, 0xFF for the header. -/
def badOperand (t : List Byte) (count : Nat) : Option Nat :=
  if nOper t = 0 || nOper t > 8 || le t 1 3 ≠ 0 || le t 4 4 > 65536 || le t 0x30 16 ≠ 0 then some 0xFF
  else (List.range (nOper t)).find? (fun i =>
    let fmt := opFmt t i
    !(fmt = 0 || fmt = 1 || calMx fmt) || opAccess t i > 3 || le t (64 + 32 * i + 2) 6 ≠ 0 || le t (64 + 32 * i + 24) 8 ≠ 0
      || opBase t i % calWidth fmt ≠ 0 || (i = 0 && (fmt ≠ 1 || opBase t i % 128 ≠ 0)) || (!calMx fmt && opScale t i ≠ 0)
      || (calMx fmt && count % 32 ≠ 0))

/-- The first segment start out of order, or the first one above FIRST (R315, R325). -/
def badSegment (segs : List Nat) (first : Nat) : Option Nat :=
  match segs with
  | [] => none
  | s0 :: _ => if s0 > first then some 0
    else (List.range (segs.length - 1)).map (· + 1) |>.find? (fun i => segs[i]?.getD 0 < segs[i - 1]?.getD 0)

/-- Segment of a global index (R323). -/
def segOf (segs : List Nat) (i : Nat) : Nat := if segs.isEmpty then 0 else (segs.filter (· ≤ i)).length - 1

/-! ## Values -/

/-- Element of an operand's format as FP32, with flags (R320). -/
def calDecode (fmt scale b : Nat) : Nat × Nat :=
  if fmt = 0 then (b, 0)
  else if fmt = 1 then fp32.round .rne (bf16.decode b)
  else fp32.round .rne ((mxElem fmt).value scale b)

/-- Rounding of element `i` of operand `opnd` (R322). -/
def calRm (seed step : Word) (opnd rm i : Nat) : Rm :=
  match rm with
  | 0 => .rne
  | 1 => .rtz
  | _ => .sr (srWord (seed ^^^ BitVec.ofNat 64 opnd) step (BitVec.ofNat 64 i))

/-- A block of values of an MX format, or single values, as an ST stores them: scale, patterns, flags of each (R322). -/
def calEncode (fmt : Nat) (rm : Nat → Rm) (vs : List Nat) : List Nat × List Nat × Nat :=
  if calMx fmt then
    let bs := (List.range ((vs.length + 31) / 32)).map (fun j =>
      mxBlock (mxElem fmt) (fun i => rm (32 * j + i)) (((vs.drop (32 * j)).take 32).map fp32.decode))
    (bs.map (·.1), bs.flatMap (·.2.1), bs.foldl (fun a b => a ||| b.2.2) 0)
  else if fmt = 1 then
    let rs := vs.zipIdx.map (fun (v, i) => bf16.round (rm i) (fp32.decode v))
    ([], rs.map (·.1), rs.foldl (fun a r => a ||| r.2) 0)
  else ([], vs, 0)

/-- Whether a stored element is a NaN, an infinity or of a NaN block (R324). -/
def calUgly (fmt scale b : Nat) : Bool :=
  match (if fmt = 0 then fp32.decode b else if fmt = 1 then bf16.decode b else (mxElem fmt).value scale b) with
  | .fin _ _ _ => false
  | _ => true

/-- One arithmetic operation of a lane (R320). -/
def calArith (opc a b c : Nat) : Nat × Nat :=
  match opc with
  | 0x10 => fp32.fadd .rne a b
  | 0x11 => fp32.fsub .rne a b
  | 0x12 => fp32.fmul .rne a b
  | 0x13 => fp32.ffma .rne false false a b c
  | 0x14 => fp32.ffma .rne true false a b c
  | 0x15 => (fp32.fmin a b, 0)
  | 0x16 => (fp32.fmax a b, 0)
  | 0x17 => (fp32.fabs a, 0)
  | 0x18 => (fp32.fneg a, 0)
  | 0x19 => (fsign a, 0)
  | 0x1A => fsqrt a
  | 0x1B => fdiv a b
  | 0x1C => vRcp a
  | _ => vRsqrt a

/-! ## Runs -/

def State.cal (s : State) (k : Nat) : CalEngine := Tab.get {} s.cals k
def setCal (s : State) (k : Nat) (x : CalEngine) : State := { s with cals := Tab.set {} s.cals k x }
def runOf (s : State) (q : Nat) : Option CalRun := s.runs.find? (fun r => r.queue = q)
def setRun (s : State) (r : CalRun) : State := { s with runs := s.runs.map (fun o => if o.queue = r.queue then r else o) }
def dropRun (s : State) (q : Nat) : State := { s with runs := s.runs.filter (fun r => r.queue ≠ q) }
/-- The run whose part an engine executes. -/
def runOn (s : State) (k : Nat) : Option CalRun := s.runs.find? (fun r => r.started && r.mask.getLsbD k && !r.finished.getLsbD k)

/-- A Calender engine at work: its tag, port and counter set (R312). -/
def calTag (k : Nat) : Nat := 0x20000 + k
def calEng (slice k : Nat) : Eng := { tag := calTag k, slice := slice, port := 9 + k / 4, reg := 66, ini := 192 + k }

def CalRun.field (s : State) (r : CalRun) (off n : Nat) : Nat := match (s.queue r.queue).cmd with | some c => slotLe c.raw off n | none => 0
def CalRun.count (s : State) (r : CalRun) : Nat := r.field s 0x30 8
def CalRun.first (s : State) (r : CalRun) : Nat := r.field s 0x28 8
/-- Chunks of a run, and the elements of chunk `c` (R316). -/
def CalRun.chunks (s : State) (r : CalRun) : Nat := (r.count s + 63) / 64
def CalRun.lanes (s : State) (r : CalRun) (c : Nat) : Nat := min 64 (r.count s - 64 * c)
def CalRun.accsq (r : CalRun) : Bool := r.prog.any (fun w => (calF w).opc = 0x20)

/-- Stack that holds a chunk's line of operand 0 (R316). A line without a translation counts as stack 0: its chunk fails there. -/
def chunkStack (s : State) (r : CalRun) (c : Nat) : Nat :=
  match peekPa s r.slice (opBase r.table 0 + 128 * c) with
  | some pa => (match s.cfg.locate pa with | .hbm _ ch _ => ch / 32 | _ => 0)
  | none => 0

/-- The engine a stack's chunks go to: the one beside it, or the next higher one named and in service (R316). -/
def stackEngine (s : State) (r : CalRun) (m : Nat) : Option Nat :=
  ((List.range 8).map (fun i => (m + i) % 8)).find? (fun k => r.mask.getLsbD k && !(s.cal k).retired)

/-- The next chunk of a stack. -/
def nextOfStack (s : State) (r : CalRun) (m : Nat) : Option Nat :=
  let from' := Tab.get 0 r.next m
  ((List.range (r.chunks s - from')).map (· + from')).find? (fun c => chunkStack s r c = m)

/-- The next chunk of an engine, with its stack (R316). -/
def nextChunk (s : State) (r : CalRun) (k : Nat) : Option (Nat × Nat) :=
  ((List.range 8).filter (fun m => stackEngine s r m = some k)).foldl (fun best m =>
    match nextOfStack s r m, best with
    | some c, some (b, bm) => if c < b then some (c, m) else some (b, bm)
    | some c, none => some (c, m)
    | none, b => b) none

/-- The first chunk that is not complete, all of them where none is left (R325). -/
def firstIncomplete (s : State) (r : CalRun) : Nat :=
  (List.range 8).foldl (fun a m => match nextOfStack s r m with | some c => min a c | none => a) (r.chunks s)

/-- Elements done in order, for the record (R325, R326). -/
def CalRun.done (s : State) (r : CalRun) : Nat :=
  if r.accsq then (if firstIncomplete s r ≥ r.chunks s && r.failed.isNone then r.count s else 0) else min (r.count s) (64 * firstIncomplete s r)

/-- A run fails: the engines stop at their chunk boundaries (R325). The first failure stands. -/
def failRun (s : State) (r : CalRun) (status detail : Nat) (fail : Option Nat) : State :=
  setRun s (if r.failed.isNone then { r with failed := some (status, detail, fail) } else r)

/-- A failure at a chunk names its first element; a run with ACCSQ names element 0 (R326). -/
def failChunk (s : State) (r : CalRun) (k c status detail : Nat) : State :=
  let s := endWork s (calTag k)
  failRun s { r with cur := Tab.set none r.cur k none } status detail (some (if r.accsq then 0 else 64 * c))

end Sys2Proof.Machine
end

