-- ==== Sys2Proof/Machine/CalenderOps.lean ====
section
/-!
DEFINITION. The commands of the Calender engines (R311–R330).
-/
namespace Sys2Proof.Machine

/-! ## Queueing and starting a run -/

/-- CAL_RUN (R299, R314): the command starts and its run waits at the allocator, in order of arrival (R313). A RESUME brings the chunks its
context holds (R325). -/
def execCalRun (q : Fin 4096) (s : State) : Host.Outcome State Fault Refusal :=
  .next (if s.quiet then s
  else
    let s := tryStart s q (fun b => slotLe b 0 1 = 0x11)
    settleAll (match (s.queue q).cmd with
      | none => s
      | some c =>
        if c.opc ≠ 0x11 || c.result.isSome || (runOf s q).isSome then s
        else if c.aborting then endCmd s q c (abortStatus s q) 0 none
        else
          let next := (List.range 8).foldl (fun t m => Tab.set 0 t m (Tab.get 0 c.aux (16 + m))) []
          { s with runs := s.runs ++ [{ queue := q, slice := queueSlice s q, mask := BitVec.ofNat 8 (slotLe c.raw 0x10 1), next := next }] }))

/-- A run ends with a status: its queue's command takes its counts and the chunks it has not completed (R325) (DEDUCED, log 116). -/
def endRun (s : State) (r : CalRun) (status detail : Nat) (fail : Option Nat) : State :=
  let s := (List.range 8).foldl (fun s k => if r.started && r.mask.getLsbD k && !r.finished.getLsbD k then setCal s k { s.cal k with running := false } else s) s
  match (s.queue r.queue).cmd with
  | none => dropRun s r.queue
  | some c =>
    let e := if r.started then r.done s else c.elems
    let next := if r.accsq then [] else r.next
    let aux := (List.range 8).foldl (fun t m => Tab.set 0 t (16 + m) (Tab.get 0 next m)) c.aux
    dropRun (endCmd s r.queue { c with elems := e, bytes := 2 * e, aux := aux, pos := 0 } status detail fail) r.queue

/-- Whether an address lies in an HBM region, as far as its page is mapped (R315). -/
def hbmAt (s : State) (slice addr : Nat) : Bool :=
  match peekPa s slice addr with
  | some pa => (match s.cfg.locate pa with | .hbm _ _ _ => true | _ => false)
  | none => true

/-- Whether every byte of a span lies in an HBM region, as far as its pages are mapped (R315): its two ends and the start of every page between
them. -/
def hbmSpan (s : State) (slice addr n : Nat) : Bool :=
  n = 0 || (hbmAt s slice addr && hbmAt s slice (addr + n - 1) &&
    (List.range ((addr + n - 1) / 4096 - addr / 4096)).all (fun i => hbmAt s slice ((addr / 4096 + 1 + i) * 4096)))

/-- The tables of a run as read: all of them, a failure with status and DETAIL, or not yet. -/
inductive Tables where
  | ok (prog : List Nat) (table consts segs segval : List Byte)
  | fail (status detail : Nat)
  | hold
  deriving DecidableEq, Repr

/-- Reads one table of a run. -/
def readTable (s : State) (e : Eng) (addr n : Nat) (k : State → List Byte → State × Tables) : State × Tables :=
  if !hbmSpan s e.slice addr n then (s, .fail 0x11 (0x02 + 256 * 0xFF))
  else match e.readSpan (n / 128 + 2) s addr n with
    | (s, .ok bs) => k s bs
    | (s, .hold) => (s, .hold)
    | (s, .fail st reason) => (s, .fail (recordStatus st) reason)

/-- Reads program, operand table, constants, segment table and segment values (R315). -/
def readTables (s : State) (e : Eng) (c : Cmd) : State × Tables :=
  readTable s e (slotLe c.raw 0x18 8) (slotLe c.raw 0x14 4) (fun s prog =>
  readTable s e (slotLe c.raw 0x20 8) 64 (fun s head =>
  let n := if nOper head = 0 || nOper head > 8 then 0 else nOper head
  readTable s e (slotLe c.raw 0x20 8 + 64) (32 * n) (fun s descs =>
  let table := head ++ descs
  let segs := if le head 4 4 > 65536 then 0 else le head 4 4
  readTable s e (le table 0x20 8) 64 (fun s consts =>
  readTable s e (le table 8 8) (8 * segs) (fun s segb =>
  readTable s e (le table 0x10 8) (if le table 0x10 8 = 0 then 0 else 16 * max 1 segs) (fun s segval =>
    (s, .ok ((List.range (prog.length / 8)).map (fun i => le prog (8 * i) 8)) table consts segb segval)))))))

/-- Little-endian words of a byte string as a table. -/
def wordTab (bs : List Byte) : Tab (BitVec 32) := (List.range (bs.length / 4)).foldl (fun t i => Tab.set 0 t i (BitVec.ofNat 32 (le bs (4 * i) 4))) []

/-- CAL_RUN_START (R313): every engine the run names is idle, and no earlier run that waits names one of them; its tables are read and
checked, and its engines begin. -/
def execCalRunStart (q : Fin 4096) (s : State) : Host.Outcome State Fault Refusal :=
  .next (if s.quiet then s
  else settleAll (match runOf s q, (s.queue q).cmd with
    | some r, some c =>
      if r.started || c.aborting then s
      else
        let named := (List.range 8).filter (fun k => r.mask.getLsbD k && !(s.cal k).retired)
        let before := s.runs.takeWhile (fun o => o.queue ≠ r.queue)
        let earlier := fun (k : Nat) => before.any (fun o => !o.started && o.mask.getLsbD k)
        match named with
        | [] => endRun s r 7 0 none
        | k0 :: _ =>
          if named.any (fun k => (s.cal k).running || earlier k) then s
          else match readTables s (calEng r.slice k0) c with
            | (s, .hold) => s
            | (s, .fail st d) => endRun s r st d none
            | (s, .ok prog table consts segb segval) =>
              let segs := (List.range (segb.length / 8)).map (fun i => le segb (8 * i) 8)
              match badOperand table (slotLe c.raw 0x30 8), badProgram table prog, badSegment segs (slotLe c.raw 0x28 8) with
              | some i, _, _ => endRun s r 0x11 (0x02 + 256 * i) none
              | none, some i, _ => endRun s r 0x11 (0x01 + 256 * i) none
              | none, none, some i => endRun s r 0x11 (0x03 + 256 * (i % 65536)) none
              | none, none, none =>
                let s := named.foldl (fun s k => setCal s k { s.cal k with queue := q, running := true, gated := false, flags := 0 }) s
                setRun s { r with
                  started := true, prog := prog, table := table, consts := wordTab consts, segs := segs, segval := wordTab segval
                  finished := ~~~(BitVec.ofNat 8 (named.foldl (fun m k => m + 2 ^ k) 0)) }
    | _, _ => s))

/-! ## Chunks -/

/-- Operands the program loads, and those it stores with their rounding. -/
def CalRun.loadOps (r : CalRun) : List Nat := ((r.prog.map calF).filter (fun f => f.opc = 1)).map (·.opnd) |>.eraseDups
def CalRun.storeOps (r : CalRun) : List Nat := ((r.prog.map calF).filter (fun f => f.opc = 2)).map (·.opnd)

/-- DVA and bytes of an operand's elements in a chunk, and of its scales (R315). -/
def chunkSpan (s : State) (r : CalRun) (c i : Nat) : Nat × Nat :=
  let w := calWidth (opFmt r.table i)
  (opBase r.table i + 64 * c * w, r.lanes s c * w)
def scaleSpan (s : State) (r : CalRun) (c i : Nat) : Nat × Nat :=
  if calMx (opFmt r.table i) then (opScale r.table i + 2 * c, (r.lanes s c + 31) / 32) else (0, 0)

def setCur (r : CalRun) (k : Nat) (c : Option CalChunk) : CalRun := { r with cur := Tab.set none r.cur k c }

/-- The loaded operands of a chunk one after another (R317 stage 1). -/
def loadChunk (k : Nat) : List Nat → CalRun → CalChunk → State → State
  | [], r, c, s => setRun s (setCur r k (some c))
  | i :: rest, r, c, s =>
    let e := calEng r.slice k
    let (a, n) := chunkSpan s r c.chunk i
    let (sa, sn) := scaleSpan s r c.chunk i
    if !hbmSpan s r.slice a n || !hbmSpan s r.slice sa sn then failChunk s r k c.chunk 0x11 (0x02 + 256 * i)
    else match e.readSpan 4 s a n with
      | (s, .hold) => setRun s (setCur r k (some c))
      | (s, .fail st d) => failChunk s r k c.chunk (recordStatus st) d
      | (s, .ok bs) =>
        match e.readSpan 2 s sa sn with
        | (s, .hold) => setRun s (setCur r k (some c))
        | (s, .fail st d) => failChunk s r k c.chunk (recordStatus st) d
        | (s, .ok ss) =>
          let w := calWidth (opFmt r.table i)
          let loads := (List.range (n / w)).foldl (fun t el => Tab.set 0 t (64 * i + el) (BitVec.ofNat 32 (le bs (w * el) w))) c.loads
          let lscale := (List.range sn).foldl (fun t j => Tab.set 0 t (2 * i + j) (le ss j 1)) c.lscale
          loadChunk k rest r { c with loaded := c.loaded + 1, loads := loads, lscale := lscale } s

/-- The first operand of a chunk that has a byte outside the HBM regions (R315). -/
def strayOperand (s : State) (r : CalRun) (c : Nat) : Option Nat :=
  (List.range (nOper r.table)).find? (fun i =>
    !(hbmSpan s r.slice (chunkSpan s r c i).1 (chunkSpan s r c i).2 && hbmSpan s r.slice (scaleSpan s r c i).1 (scaleSpan s r c i).2))

/-- A chunk begins: every operand's bytes lie in HBM regions, or it fails; then the loads (R315, R317). -/
def beginChunk (k : Nat) (r : CalRun) (c : CalChunk) (s : State) : State :=
  match strayOperand s r c.chunk with
  | some i => failChunk s r k c.chunk 0x11 (0x02 + 256 * i)
  | none => loadChunk k r.loadOps r c s

/-- CHUNK_START (R316, R317): the engine takes its next chunk and reads the operands its program loads; with none left, or the run failed
or aborted, it is done. -/
def execChunkStart (eng : Fin 8) (s : State) : Host.Outcome State Fault Refusal :=
  .next (if s.quiet then s
  else settleAll (match runOn s eng with
    | none => s
    | some r =>
      let aborting := match (s.queue r.queue).cmd with | some c => c.aborting | none => true
      match Tab.get none r.cur eng with
      | some c => if c.phase = 0 && c.loaded < r.loadOps.length then loadChunk eng (r.loadOps.drop c.loaded) r c s else s
      | none =>
        match (if aborting || r.failed.isSome then none else nextChunk s r eng) with
        | none => setCal (setRun s { r with finished := r.finished ||| (1#8 <<< eng.val) }) eng { s.cal eng with running := false }
        | some (c, m) => beginChunk eng r { chunk := c, stack := m } s))

/-- DVA lines of a span. -/
def linesOf (a n : Nat) : List Nat := if n = 0 then [] else (List.range ((a + n + 127) / 128 - a / 128)).map (fun i => (a / 128 + i) * 128)

/-- Translates store lines with the W right and checks them against the masks (R317 stage 2). -/
def storeLines (k : Nat) (r : CalRun) : List (Nat × Nat) → List (Nat × Nat) → State → State × (List (Nat × Nat) ⊕ Option (Nat × Nat))
  | [], acc, s => (s, .inl acc)
  | (a, i) :: rest, acc, s =>
    match (calEng r.slice k).translate s 1 a with
    | (s, .hold) => (s, .inr none)
    | (s, .fault reason _) => (s, .inr (some (2, reason)))
    | (s, .pa pa _) =>
      match s.cfg.locate pa with
      | .hbm _ _ _ =>
        (match refusal s { id := 0, src := .engine (calTag k), opc := 6, addr := pa, slice := some r.slice } with
          | some st => (s, .inr (some (recordStatus st, 0)))
          | none => storeLines k r rest (acc ++ [(a, pa)]) s)
      | _ => (s, .inr (some (0x11, 0x02 + 256 * i)))

/-- Writes bytes of an operand through the lines translated before. -/
def storeSpan (e : Eng) (pas : List (Nat × Nat)) : Nat → State → Nat → List Byte → State
  | 0, s, _, _ => s
  | fuel + 1, s, a, bs =>
    match bs with
    | [] => s
    | _ =>
      let n := lineRest a bs.length
      let pa := match pas.find? (fun p => p.1 = a / 128 * 128) with | some p => p.2 | none => 0
      let (s, _) := writePart s e.tag (e.txn (pa + a % 128) false) (bs.take n)
      storeSpan e pas fuel s (a + n) (bs.drop n)

/-- The stores of a chunk (R317 stage 3). -/
def storeChunk (k : Nat) (r : CalRun) (c : CalChunk) (s : State) : State :=
  let e := calEng r.slice k
  r.storeOps.foldl (fun s i =>
    let w := calWidth (opFmt r.table i)
    let (a, n) := chunkSpan s r c.chunk i
    let (sa, sn) := scaleSpan s r c.chunk i
    let bs := (List.range (n / w)).flatMap (fun el => leBytes w (Tab.get 0 c.stores (64 * i + el)).toNat)
    let s := storeSpan e c.pas 5 s a bs
    storeSpan e c.pas 3 s sa ((List.range sn).map (fun j => BitVec.ofNat 8 (Tab.get 0 c.scales (2 * i + j))))) s

/-- A chunk is complete: its stack goes past it, and the elements an ST wrote oddly count once each (R324). -/
def finishChunk (s : State) (r : CalRun) (k : Nat) (c : CalChunk) : State :=
  let n := r.lanes s c.chunk
  let s := setCal (endWork s (calTag k)) k { s.cal k with elems := (s.cal k).elems + n }
  setRun s { setCur r k none with next := Tab.set 0 r.next c.stack (c.chunk + 1), nanCount := min (2 ^ 32 - 1) (r.nanCount + c.odd.length) }

/-- CHUNK_EXECUTE (R317): with the loads complete, the store lines are translated and checked and the program runs, one operation a
command; after its last operation the stores go; once they are at their homes the chunk is complete. -/
def execChunkExecute (eng : Fin 8) (s : State) : Host.Outcome State Fault Refusal :=
  .next (if s.quiet then s
  else settleAll (match runOn s eng with
    | none => s
    | some r =>
      match Tab.get none r.cur eng with
      | none => s
      | some c =>
        if c.phase = 0 then
          if c.loaded < r.loadOps.length then s
          else
            let ls := r.storeOps.flatMap (fun i =>
              let (a, n) := chunkSpan s r c.chunk i
              let (sa, sn) := scaleSpan s r c.chunk i
              (linesOf a n ++ linesOf sa sn).map (fun l => (l, i)))
            match storeLines eng r ls [] s with
            | (s, .inl pas) => setRun s (setCur r eng (some { c with phase := 1, pas := pas }))
            | (s, .inr none) => s
            | (s, .inr (some (st, d))) => failChunk s r eng c.chunk st d
        else if c.phase = 1 then
          if c.pc < r.prog.length then s
          else if r.storeOps.isEmpty then finishChunk s r eng c
          else storeChunk eng r c (setRun s (setCur r eng (some { c with phase := 2 })))
        else if tagBusy s (calTag eng) then s
        else match tagFailure s (calTag eng) with
          | some st => failChunk s r eng c.chunk (recordStatus st) 0
          | none => finishChunk s r eng c))

/-! ## Operations -/

/-- A source of an element (R319). -/
def calSource (s : State) (r : CalRun) (c : CalChunk) (el n : Nat) : Nat :=
  if n < 16 then (Tab.get 0 c.regs (16 * el + n)).toNat
  else if n < 32 then (Tab.get 0 r.consts (n - 16)).toNat
  else (Tab.get 0 r.segval (4 * segOf r.segs (r.first s + 64 * c.chunk + el) + (n - 32))).toNat

/-- An ST or RND of an operand over the lanes of a chunk: scales, patterns and flags. -/
def calStore (s : State) (r : CalRun) (c : CalChunk) (f : CalF) : List Nat × List Nat × Nat :=
  let n := r.lanes s c.chunk
  let seed := BitVec.ofNat 64 (r.field s 0x38 8)
  let step := BitVec.ofNat 64 (r.field s 0x40 8)
  let base := r.first s + 64 * c.chunk
  calEncode (opFmt r.table f.opnd) (fun i => calRm seed step f.opnd f.rm (base + i)) ((List.range n).map (fun el => calSource s r c el f.sa))

/-- Writes a result register of every lane. -/
def putRegs (c : CalChunk) (d : Nat) (vs : List Nat) : CalChunk :=
  { c with regs := vs.zipIdx.foldl (fun t p => Tab.set 0 t (16 * p.2 + d) (BitVec.ofNat 32 p.1)) c.regs }

/-- ACCSQ over the lanes: squares rounded to FP32 join the exact sum of their segment (R323). -/
def calAccsq (s : State) (r : CalRun) (c : CalChunk) (f : CalF) : CalRun × Nat :=
  (List.range (r.lanes s c.chunk)).foldl (fun (acc : CalRun × Nat) el =>
    let (r, fl) := acc
    let a := calSource s r c el f.sa
    let (sq, fl') := fp32.fmul .rne a a
    let key := 2 * segOf r.segs (r.first s + 64 * c.chunk + el) + f.opnd
    let r := match fp32.decode sq with
      | .nan => { r with sumNan := key :: r.sumNan.filter (· ≠ key) }
      | .inf _ => { r with sumInf := key :: r.sumInf.filter (· ≠ key) }
      | .fin _ m e => { r with sums := Tab.set 0 r.sums key (Tab.get 0 r.sums key + dyInt false m e (-149)) }
    (r, fl ||| fl')) (r, 0)

/-- One operation of the microprogram on every lane of a chunk (R320): the run, the chunk, and the flags raised. -/
def calStep (s : State) (r : CalRun) (c : CalChunk) (f : CalF) : CalRun × CalChunk × Nat :=
  let lanes := List.range (r.lanes s c.chunk)
  let or := fun (rs : List (Nat × Nat)) => rs.foldl (fun a p => a ||| p.2) 0
  if f.opc = 1 then
    let fmt := opFmt r.table f.opnd
    let rs := lanes.map (fun el => calDecode fmt (Tab.get 0 c.lscale (2 * f.opnd + el / 32)) (Tab.get 0 c.loads (64 * f.opnd + el)).toNat)
    (r, putRegs c f.d (rs.map (·.1)), or rs)
  else if f.opc = 2 then
    let fmt := opFmt r.table f.opnd
    let (scs, ps, fl) := calStore s r c f
    let odd := (ps.zipIdx.filter (fun p => calUgly fmt (scs[p.2 / 32]?.getD 0) p.1)).map (·.2)
    let c := { c with
      stores := ps.zipIdx.foldl (fun t p => Tab.set 0 t (64 * f.opnd + p.2) (BitVec.ofNat 32 p.1)) c.stores
      scales := scs.zipIdx.foldl (fun t p => Tab.set 0 t (2 * f.opnd + p.2) p.1) c.scales
      odd := (c.odd ++ odd).eraseDups }
    (r, c, fl)
  else if f.opc = 3 then
    let fmt := opFmt r.table f.opnd
    let (scs, ps, fl) := calStore s r c f
    (r, putRegs c f.d (ps.zipIdx.map (fun p => (calDecode fmt (scs[p.2 / 32]?.getD 0) p.1).1)), fl)
  else if f.opc = 0x20 then let (r, fl) := calAccsq s r c f; (r, c, fl)
  else
    let rs := lanes.map (fun el => calArith f.opc (calSource s r c el f.sa) (calSource s r c el f.sb) (calSource s r c el f.sc))
    (r, putRegs c f.d (rs.map (·.1)), or rs)

/-- The command of one operation: the next one of the chunk that an engine executes, if it is of the kind named. -/
def calOp (s : State) (k opc : Nat) : State :=
  if s.quiet then s
  else match runOn s k with
  | none => s
  | some r =>
    match Tab.get none r.cur k with
    | none => s
    | some c =>
      match r.prog[c.pc]? with
      | none => s
      | some w =>
        let f := calF w
        if c.phase ≠ 1 || f.opc ≠ opc then s
        else
          let (r, c, fl) := calStep s r c f
          let s := setCal s k { s.cal k with flags := (s.cal k).flags ||| fl }
          setRun s (setCur { r with flags := r.flags ||| fl } k (some { c with pc := c.pc + 1 }))

/-- CAL_LD (R320): D = the element of an operand as FP32. -/
def execCalLd (eng : Fin 8) (s : State) : Host.Outcome State Fault Refusal := .next (calOp s eng 0x01)

/-- CAL_ST (R320): writes A to an operand, rounded (R322). -/
def execCalSt (eng : Fin 8) (s : State) : Host.Outcome State Fault Refusal := .next (calOp s eng 0x02)

/-- CAL_RND (R320): D = what an ST would store. -/
def execCalRnd (eng : Fin 8) (s : State) : Host.Outcome State Fault Refusal := .next (calOp s eng 0x03)

/-- CAL_ADD (R320): A + B. -/
def execCalAdd (eng : Fin 8) (s : State) : Host.Outcome State Fault Refusal := .next (calOp s eng 0x10)

/-- CAL_SUB (R320): A − B. -/
def execCalSub (eng : Fin 8) (s : State) : Host.Outcome State Fault Refusal := .next (calOp s eng 0x11)

/-- CAL_MUL (R320): A × B. -/
def execCalMul (eng : Fin 8) (s : State) : Host.Outcome State Fault Refusal := .next (calOp s eng 0x12)

/-- CAL_FMA (R320): A × B + C. -/
def execCalFma (eng : Fin 8) (s : State) : Host.Outcome State Fault Refusal := .next (calOp s eng 0x13)

/-- CAL_FNMA (R320): C − A × B. -/
def execCalFnma (eng : Fin 8) (s : State) : Host.Outcome State Fault Refusal := .next (calOp s eng 0x14)

/-- CAL_MIN (R320): minimum. -/
def execCalMin (eng : Fin 8) (s : State) : Host.Outcome State Fault Refusal := .next (calOp s eng 0x15)

/-- CAL_MAX (R320): maximum. -/
def execCalMax (eng : Fin 8) (s : State) : Host.Outcome State Fault Refusal := .next (calOp s eng 0x16)

/-- CAL_ABS (R320): absolute value. -/
def execCalAbs (eng : Fin 8) (s : State) : Host.Outcome State Fault Refusal := .next (calOp s eng 0x17)

/-- CAL_NEG (R320): negation. -/
def execCalNeg (eng : Fin 8) (s : State) : Host.Outcome State Fault Refusal := .next (calOp s eng 0x18)

/-- CAL_SIGN (R320): sign. -/
def execCalSign (eng : Fin 8) (s : State) : Host.Outcome State Fault Refusal := .next (calOp s eng 0x19)

/-- CAL_SQRT (R320): square root. -/
def execCalSqrt (eng : Fin 8) (s : State) : Host.Outcome State Fault Refusal := .next (calOp s eng 0x1A)

/-- CAL_DIV (R320): quotient. -/
def execCalDiv (eng : Fin 8) (s : State) : Host.Outcome State Fault Refusal := .next (calOp s eng 0x1B)

/-- CAL_RCP (R320): approximate reciprocal. -/
def execCalRcp (eng : Fin 8) (s : State) : Host.Outcome State Fault Refusal := .next (calOp s eng 0x1C)

/-- CAL_RSQRT (R320): approximate reciprocal square root. -/
def execCalRsqrt (eng : Fin 8) (s : State) : Host.Outcome State Fault Refusal := .next (calOp s eng 0x1D)

/-- ACCSQ (R320): adds A² to a segment sum (R323). -/
def execAccsq (eng : Fin 8) (s : State) : Host.Outcome State Fault Refusal := .next (calOp s eng 0x20)

/-! ## The end of a run -/

/-- Segment sum to FP32 with its flags: NaN, +∞ with OF, or rounded once (R323). -/
def segSum (r : CalRun) (key : Nat) : Nat × Nat :=
  if r.sumNan.contains key then (0x7FC00000, 0)
  else if r.sumInf.contains key then (0x7F800000, fOF)
  else fp32.round .rne (.fin false (Tab.get 0 r.sums key).natAbs (-149))

/-- Segments of a run. -/
def CalRun.segments (r : CalRun) : Nat := max 1 r.segs.length

/-- Flags of the run: those of its operations, and OF of a sum beyond the range. -/
def CalRun.allFlags (r : CalRun) : Nat :=
  if r.accsq then (List.range (2 * r.segments)).foldl (fun a k => a ||| ((segSum r k).2 &&& fOF)) r.flags else r.flags

/-- What the run writes at its end, in order: an entry of NORMS for each segment, the summary word (R323, R324). -/
def finalWrites (r : CalRun) : List (Nat × List Byte) :=
  let norms := le r.table 0x18 8
  let summary := le r.table 0x28 8
  (if norms = 0 then [] else (List.range r.segments).map (fun i =>
    (norms + 16 * i, leBytes 4 (segSum r (2 * i)).1 ++ leBytes 4 (segSum r (2 * i + 1)).1))) ++
  (if summary = 0 then [] else [(summary, leBytes 8 (r.allFlags + r.nanCount * 2 ^ 32))])

/-- Writes them; each is issued once, `stage` counts them. -/
def writeFinals (e : Eng) : List (Nat × List Byte) → CalRun → State → State × (CalRun ⊕ Option (Nat × Nat))
  | [], r, s => (s, .inl r)
  | (a, bs) :: rest, r, s =>
    if !hbmSpan s e.slice a bs.length then (s, .inr (some (0x11, 0x02 + 256 * 0xFF)))
    else match e.writeSpan 3 s a bs with
      | (s, .hold) => (setRun s r, .inr none)
      | (s, .fail st d) => (s, .inr (some (recordStatus st, d)))
      | (s, .ok _) => writeFinals e rest { r with stage := r.stage + 1 } s

/-- CAL_RUN_DONE (R323–R326): the last engine has finished; the segment sums are rounded to NORMS and the summary word is written, and the
command ends. A failed or aborted run ends with the chunks it has completed. -/
def execCalRunDone (q : Fin 4096) (s : State) : Host.Outcome State Fault Refusal :=
  .next (if s.quiet then s
  else settleAll (match runOf s q, (s.queue q).cmd with
    | some r, some c =>
      let busy := (List.range 8).any (fun k => (Tab.get none r.cur k).isSome)
      if busy then s
      else match r.failed with
        | some (st, d, f) => endRun s r st d f
        | none =>
          if c.aborting && (!r.started || firstIncomplete s r < r.chunks s || r.accsq) then
            endRun s (if r.accsq then { r with failed := some (1, 0, none) } else r) (abortStatus s q) 0 none
          else if !r.started || firstIncomplete s r < r.chunks s then s
          else
            let k := ((List.range 8).find? (fun k => r.mask.getLsbD k)).getD 0
            let e : Eng := { calEng r.slice k with tag := q }
            match writeFinals e ((finalWrites r).drop r.stage) r s with
            | (s, .inr none) => s
            | (s, .inr (some (st, d))) => endRun s { r with failed := some (st, d, none) } st d none
            | (s, .inl r) => endRun (setRun s r) r 0 0 none
    | _, _ => s))

end Sys2Proof.Machine
end

