-- ==== Sys2Proof/Machine/Fabric.lean ====
section
/-!
DEFINITION. The Meridian transport at the receiver and its recovery (R332, R339–R349): ports, packets of an ACTIVE job, acknowledgement,
retransmission, keepalive, fences, and the end of a collective instance, which a fence can bring about.
-/
namespace Sys2Proof.Machine

/-! ## Collective instances that end (R359) -/

def State.col (s : State) (c : Nat) : ColEngine := Tab.get {} s.cols c
def setCol (s : State) (c : Nat) (x : ColEngine) : State := { s with cols := Tab.set {} s.cols c x }
def collOf (s : State) (q : Nat) : Option Coll := s.nx.colls.find? (fun c => c.queue = q)
def setColl (s : State) (c : Coll) : State := { s with nx := { s.nx with colls := s.nx.colls.map (fun o => if o.queue = c.queue then c else o) } }

/-- A field of a collective's command. -/
def Coll.f (c : Coll) (off n : Nat) : Nat := slotLe c.raw off n
def Coll.op (c : Coll) : Nat := c.f 0x10 1
def Coll.width (c : Coll) : Nat := collBytes (c.f 0x12 1)
def Coll.count (c : Coll) : Nat := c.f 0x28 8
/-- Members of the group. -/
def Coll.n (c : Coll) : Nat := c.members.length
/-- Output elements at this module (R353). -/
def Coll.outputs (c : Coll) : Nat := if c.op = 2 then c.n * c.count else c.count
/-- The other members. -/
def Coll.peers (c : Coll) : List Nat := c.members.filter (fun m => c.members[c.rank]? ≠ some m)

/-- Key of a row by source and number. -/
def rowKey (s k : Nat) : Nat := s * 2 ^ 40 + k

/-- Rows a source sends that are placed: those below CAP (R358). -/
def Coll.placed (c : Coll) (src : Nat) : Nat := min c.cap (Tab.get 0 c.rowsFrom src)

/-- Rows of a source placed with none missing before them. -/
def Coll.rowPrefix (c : Coll) (src : Nat) : Nat :=
  ((List.range (c.placed src)).takeWhile (fun k => Tab.get 0 c.rowGot (rowKey src k) ≥ c.rowBytes)).length

/-- Rows final in the order source, row, with none missing before them (R359). -/
def rowsInOrder (c : Coll) : List Nat → Nat
  | [] => 0
  | src :: r =>
    if !(c.headers.contains src || src = c.rank) then 0
    else if c.rowPrefix src < c.placed src then c.rowPrefix src
    else c.placed src + rowsInOrder c r

/-- Elements done and their bytes, for the record. -/
def Coll.done (c : Coll) : Nat × Nat :=
  if c.op = 4 then let n := rowsInOrder c (List.range c.n); (n, n * c.rowBytes) else (c.written, c.written * c.width)

/-- Ends an instance with a status and DETAIL: its command gets its result, the engine is free, and packets still to come are dead. -/
def collEnd (s : State) (c : Coll) (status detail : Nat) (fail : Option Nat) : State :=
  let x := s.col c.eng
  let s := setCol s c.eng { x with running := none, lastQueue := c.queue, lastOp := c.op, flags := c.flags, ops := if status = 0 then x.ops + 1 else x.ops }
  let dead := c.headers.filterMap (fun r => (c.members[r]?).map (fun m => (c.job, m, Tab.get 0 c.peerOpid r)))
  let s := { s with nx := { s.nx with
    colls := s.nx.colls.filter (fun o => o.queue ≠ c.queue)
    dead := dead ++ s.nx.dead
    early := s.nx.early.filter (fun e => !dead.contains (e.job, e.peer, e.opid)) } }
  match (s.queue c.queue).cmd with
  | some k => if k.result.isSome then s else endCmd s c.queue { k with elems := c.done.1, bytes := c.done.2 } status detail fail
  | none => s

/-- Ends every instance of a job that includes a peer lost (R344, R359). -/
def loseColls (s : State) (k : Nat) (lost : Nat → Bool) : State :=
  (s.nx.colls.filter (fun c => c.job = k && c.peers.any lost)).foldl (fun s c => collEnd s c 5 0 none) s

/-! ## Fences (R344–R346) -/

/-- Completes the operations outstanding to peers of a job with PEER_LOST. -/
def loseOps (s : State) (k : Nat) (lost : Nat → Bool) : State :=
  (s.rops.filter (fun o => o.done.isNone && (match o.target with | .fabric j m _ => j = k && lost m | _ => false))).foldl (fun s o => finishRop s o.id 5 none) s

/-- A member whose key acknowledgement cannot come any more is not awaited (DESIGN CHOICE, log 26). -/
def ackGone (s : State) (k peer : Nat) : State :=
  let j := s.job k
  if j.acks.contains peer then
    let acks := j.acks.filter (· ≠ peer)
    let s := setJob s k { j with acks := acks }
    if acks.isEmpty then finishRekey s k else s
  else s

/-- Fences a peer for a job, with REASON 1 KEEPALIVE or 2 RETRY (R344). -/
def fencePeer (s : State) (k peer reason : Nat) : State :=
  if (s.conn k peer).state = 2 then s
  else
    let s := setConn s k peer { state := 2, reason := reason }
    let s := loseOps s k (· = peer)
    let s := loseColls s k (· = peer)
    let s := ackGone s k peer
    settleAll (raise s (1420 + k) { slice := k, unit := peer })

/-! ## Retransmission (R340, R341) -/

/-- Sends TACK (R338, R340): the next PSN expected, and the bitmap beyond it (DEDUCED, log 79). -/
def sendTack (s : State) (k peer : Nat) : State :=
  let c := s.conn k peer
  sendUnnumbered (setConn s k peer { c with sinceTack := 0 }) k peer 0x20 c.cumPsn 0 (leBytes 128 c.bitmap.toNat)

/-- A packet is to be acknowledged: after 16 of them at once (R340). -/
def countForTack (s : State) (k peer : Nat) : State :=
  let c := s.conn k peer
  let c := { c with sinceTack := c.sinceTack + 1, firstSince := if c.sinceTack = 0 then s.time else c.firstSince }
  let s := setConn s k peer c
  if c.sinceTack ≥ 16 then sendTack s k peer else s

/-- A port of the axis other than the one a packet took, where one is UP (R341). -/
def otherPort (s : State) (peer port turn : Nat) : Option Nat :=
  let ps := axisPorts s (axisTo s peer)
  match ps.filter (· ≠ port) with
  | [] => ps.head?
  | qs => qs[turn % qs.length]?

/-- Retransmits a packet by its PSN, or fences the peer after eight (R341). -/
def retransmit (s : State) (k peer psn : Nat) : State :=
  let c := s.conn k peer
  match c.unacked.find? (fun x => x.psn = psn) with
  | none => s
  | some x =>
    if x.retx ≥ 8 then fencePeer s k peer 2
    else
      let port := otherPort s peer x.port c.portTurn
      let x' := { x with retx := x.retx + 1, sentAt := s.time, skips := 0, port := port.getD 128 }
      let s := setConn s k peer { c with unacked := c.unacked.map (fun y => if y.psn = psn then x' else y), portTurn := c.portTurn + 1, lastSent := s.time }
      let s := setJob s k { s.job k with retx := ((s.job k).retx + 1) % 2 ^ 32 }
      match port with
      | none => s
      | some p => wire s p k peer x.opc (x.flags + 1) x.psn x.opid x.addr x.aux x.payload x.poison

/-- Whether PSN `a` comes after `b`, modulo 2³². -/
def psnAfter (a b : Nat) : Bool := let d := (a + 2 ^ 32 - b) % 2 ^ 32; 0 < d && d < 2 ^ 31

/-- A TACK of a peer (R340, R341): packets it names are dropped, and those skipped by 32 later ones go again. -/
def tacked (s : State) (k peer cum bitmap : Nat) : State :=
  let c := s.conn k peer
  let named := fun (x : TxPkt) => psnAfter cum x.psn || (let d := (x.psn + 2 ^ 32 - cum) % 2 ^ 32; d < 1024 && bitmap.testBit d)
  let acked := c.unacked.filter named
  let rest := (c.unacked.filter (fun x => !named x)).map (fun x => { x with skips := x.skips + (acked.filter (fun a => psnAfter a.psn x.psn)).length })
  let s := setConn s k peer { c with unacked := rest }
  (rest.filter (fun x => x.skips ≥ 32)).foldl (fun s x => retransmit s k peer x.psn) s

/-! ## Reception (R340, R343, R348) -/

/-- Whether a port is UP and carries a kind of traffic: 0 Meridian, 1 RoCE v2 (R47, R332). -/
def carries (s : State) (port kind : Nat) : Bool :=
  !s.quiet && (s.port port).state = 2 && s.cfg.ports.any (fun p => p.port = port && p.traffic.testBit kind)

/-- Whether a packet's frame is one R336 gives for this port: its MACs and EtherType. -/
def framed (s : State) (p : NxPkt) : Bool :=
  match p.eth with
  | none => true
  | some h => h.dst.toNat = portMac s.cfg.moduleId p.port && h.src.toNat = portMac p.src.toNat p.srcPort.toNat && h.etherType.toNat = s.cfg.ethertype

/-- Counts a frame received (R361). -/
def countRx (s : State) (port : Nat) : State := let q := s.port port; setPort s port { q with rx := (q.rx + 1) % 2 ^ 32 }

/-- The ACTIVE job of a tag (R342). -/
def jobOfTag (s : State) (tag : Nat) : Option Nat := (List.range 64).find? (fun k => (s.job k).state = 2 && (s.job k).tag = tag)

/-- A protected packet at a port (R336, R343, R344, R348): the state with it counted, and its job where it is to be looked at further. A key held,
the pending one included, is accepted (log 27). A frame for another module or port, or of another EtherType, is none of its packets (DEDUCED, log 149). -/
def received (s : State) (p : NxPkt) (isOpen : Bool) : State × Option Nat :=
  if !carries s p.port 0 then (s, none)
  else
    let s := countRx s p.port
    if p.dst.toNat ≠ s.cfg.moduleId || !framed s p then (s, none)
    else match jobOfTag s p.jobTag.toNat with
    | none => (s, none)
    | some k =>
      let j := s.job k
      if !p.auth || !(j.keys.contains p.keyId.toNat || j.pend = some p.keyId.toNat) then
        let q := s.port p.port
        (raise (setPort s p.port { q with authFail := q.authFail + 1 }) (1484 + p.port / 16) { unit := p.port }, none)
      else
        let c := s.conn k p.src.toNat
        if c.state = 2 && !isOpen then (s, none)
        else if c.state = 0 && s.nx.conns.length ≥ 16384 then (s, none)
        else (setConn s k p.src.toNat { c with state := if c.state = 0 then 1 else c.state, lastHeard := s.time,
                                                lastSent := if c.state = 0 then s.time else c.lastSent }, some k)

/-- Moves the cumulative PSN over the packets that have come. -/
def advanceWindow : Nat → Nat → BitVec 1024 → Nat × BitVec 1024
  | 0, cum, m => (cum, m)
  | n + 1, cum, m => if m.getLsbD 0 then advanceWindow n ((cum + 1) % 2 ^ 32) (m >>> 1) else (cum, m)

/-- Takes the PSN of a packet (R340): the state, and whether it is to be applied. -/
def takePsn (s : State) (k peer psn : Nat) : State × Bool :=
  let c := s.conn k peer
  let d := (psn + 2 ^ 32 - c.cumPsn) % 2 ^ 32
  if d ≥ 2 ^ 31 || (d < 1024 && c.bitmap.getLsbD d) then (countForTack s k peer, false)
  else if d ≥ 1024 then (s, false)
  else
    let (cum, m) := advanceWindow 1024 c.cumPsn (c.bitmap ||| (1#1024 <<< d))
    (countForTack (setConn s k peer { c with cumPsn := cum, bitmap := m }) k peer, true)

/-- A numbered packet whose fields keep the limits of R338 (`ok`): applied once, for its job (DEDUCED, log 80). -/
def onPacket (s : State) (p : NxPkt) (ok : Bool) (f : State → Nat → State) : State :=
  match received s p false with
  | (s, none) => s
  | (s, some k) =>
    if !ok then s
    else match takePsn s k p.src.toNat p.psn.toNat with
      | (s, true) => settleAll (f s k)
      | (s, false) => s

/-- An unnumbered packet, for its job (DESIGN CHOICE, log 20). -/
def onControl (s : State) (p : NxPkt) (f : State → Nat → State) : State :=
  match received s p false with
  | (s, none) => s
  | (s, some k) => f s k

/-- The lines of a span: address, offset in the line, length, offset in the span. -/
def spanParts : Nat → Nat → Nat → Nat → List (Nat × Nat × Nat × Nat)
  | 0, _, _, _ => []
  | fuel + 1, addr, n, at' =>
    if n = 0 then [] else
      let k := lineRest addr n
      (addr / 128 * 128, addr % 128, k, at') :: spanParts fuel (addr + k) (n - k) (at' + k)

/-- Puts a transaction at the end of the list. -/
def pushTxn (s : State) (t : Txn) : State := { s with nextTxn := s.nextTxn + 1, txns := s.txns ++ [{ t with id := s.nextTxn }] }

/-- The transaction of a peer's request, under the job's slice (R342). -/
def fabTxn (k : Nat) (p : NxPkt) (opc addr : Nat) : Txn :=
  { id := 0, src := .fabric k p.src.toNat p.opid.toNat p.psn.toNat, opc := opc, addr := addr, slice := some k, reg := 64, ini := 204 }

/-! ## Rows: requests of peers -/

/-- WRITE (R342): each line written at its home, and COMP once all are ordered. -/
def execNxWrite (p : NxPkt) (s : State) : Host.Outcome State Fault Refusal :=
  let a := p.addr.toNat
  let n := p.payload.length
  .next (onPacket s p (0 < n && a % 4096 + n ≤ 4096) (fun s k =>
    (spanParts 33 a n 0).foldl (fun s (line, off, len, at') =>
      pushTxn s { fabTxn k p (if len = 128 then 5 else 6) line with
        mask := BitVec.ofNat 128 ((2 ^ len - 1) <<< off), data := lineOf (List.replicate off 0 ++ sub p.payload at' len), poison := p.poison }) s))

/-- READ_REQ (R342): each line read at its home and answered by a READ_RESP. -/
def execReadReq (p : NxPkt) (s : State) : Host.Outcome State Fault Refusal :=
  let a := p.addr.toNat
  let n := p.aux.toNat
  .next (onPacket s p (0 < n && a % 4096 + n ≤ 4096) (fun s k =>
    (spanParts 33 a n 0).foldl (fun s (line, off, len, at') =>
      pushTxn s { fabTxn k p 4 line with op0 := off, op1 := len, mask := BitVec.ofNat 128 at' }) s))

/-- An ATOMIC of a peer (R338, R342) with the opcode of R210. -/
def nxAtomic (opc : Nat) (p : NxPkt) (s : State) : State :=
  let sz := p.aux.getLsbD 4
  onPacket s p (p.addr.toNat % (if sz then 8 else 4) = 0) (fun s k =>
    pushTxn s { fabTxn k p opc p.addr.toNat with attr := flag sz 0 + flag (p.aux.getLsbD 5) 1, op0 := le p.payload 0 8, op1 := le p.payload 8 8 })

/-- ATOMIC with op ADD. -/
def execNxAtomicAdd (p : NxPkt) (s : State) : Host.Outcome State Fault Refusal := .next (nxAtomic 0x10 p s)
/-- ATOMIC with op SWAP. -/
def execNxAtomicSwap (p : NxPkt) (s : State) : Host.Outcome State Fault Refusal := .next (nxAtomic 0x11 p s)
/-- ATOMIC with op CAS. -/
def execNxAtomicCas (p : NxPkt) (s : State) : Host.Outcome State Fault Refusal := .next (nxAtomic 0x12 p s)
/-- ATOMIC with op MIN. -/
def execNxAtomicMin (p : NxPkt) (s : State) : Host.Outcome State Fault Refusal := .next (nxAtomic 0x13 p s)
/-- ATOMIC with op MAX. -/
def execNxAtomicMax (p : NxPkt) (s : State) : Host.Outcome State Fault Refusal := .next (nxAtomic 0x14 p s)

/-! ## Rows: answers of peers -/

/-- The operation of a kind that awaits an answer of a peer. -/
def openRop (s : State) (k peer opid kind : Nat) : Option ROp :=
  s.rops.find? (fun o => o.id = opid && o.kind = kind && o.done.isNone && (match o.target with | .fabric j m _ => j = k && m = peer | _ => false))

def setRop (s : State) (o : ROp) : State := { s with rops := s.rops.map (fun x => if x.id = o.id then o else x) }

/-- READ_RESP (R338): data placed by offset; the read is complete once it is whole, or at the first status other than OK. -/
def execReadResp (p : NxPkt) (s : State) : Host.Outcome State Fault Refusal :=
  .next (onPacket s p (p.addr.toNat + p.payload.length ≤ 128) (fun s k =>
    match openRop s k p.src.toNat p.opid.toNat 0 with
    | none => s
    | some o =>
      if p.aux.toNat ≠ 0 then finishRop s o.id p.aux.toNat none
      else
        let data := lineOf (splice (lineBytes o.data) p.addr.toNat p.payload)
        let got := o.acked + p.payload.length
        let s := setRop s { o with data := data, acked := got }
        if got ≥ 128 then finishRop s o.id 0 (some data) else s))

/-- ATOMIC_RESP (R338): the old value, or a status. -/
def execAtomicResp (p : NxPkt) (s : State) : Host.Outcome State Fault Refusal :=
  .next (onPacket s p true (fun s k =>
    match openRop s k p.src.toNat p.opid.toNat 2 with
    | none => s
    | some o => finishRop s o.id p.aux.toNat (some (BitVec.ofNat 1024 (le p.payload 0 8)))))

/-- COMP (R342): acknowledges packets of a write; the write is complete once all are acknowledged, or at the first status other than OK. -/
def execComp (p : NxPkt) (s : State) : Host.Outcome State Fault Refusal :=
  .next (onPacket s p true (fun s k =>
    match openRop s k p.src.toNat p.opid.toNat 1 with
    | none => s
    | some o =>
      let st := p.aux.toNat / 256
      let got := o.acked + p.aux.toNat % 256
      if st ≠ 0 then finishPacket s o st
      else
        let s := setRop s { o with acked := got }
        if got ≥ o.packets then finishPacket s o 0 else s))

/-! ## Rows: transport -/

/-- TACK (R340, R341). -/
def execTack (p : NxPkt) (s : State) : Host.Outcome State Fault Refusal :=
  .next (onControl s p (fun s k => tacked s k p.src.toNat (p.addr.toNat % 2 ^ 32) (leNat p.payload)))

/-- TACK_TIMEOUT (R340): 2 µs after the first packet not yet acknowledged. -/
def execTackTimeout (job : Fin 64) (peer : BitVec 14) (s : State) : Host.Outcome State Fault Refusal :=
  let c := s.conn job peer.toNat
  .next (if s.quiet || c.state ≠ 1 || c.sinceTack = 0 then s else sendTack (advanceTo (c.firstSince + 2000) s) job peer.toNat)

/-- RTO in nanoseconds (R341): values beyond 4 to 1,000 µs act as the nearer limit (DESIGN CHOICE, log 28). -/
def rtoNs (s : State) : Nat := 1000 * (max 4 (min 1000 s.nx.rto))

/-- RETRANSMIT_TIMEOUT (R341): RTO_US without the acknowledgement of a packet. -/
def execRetransmitTimeout (job : Fin 64) (peer : BitVec 14) (psn : BitVec 32) (s : State) : Host.Outcome State Fault Refusal :=
  .next (if s.quiet then s
  else match (s.conn job peer.toNat).unacked.find? (fun x => x.psn = psn.toNat) with
    | none => s
    | some x => retransmit (advanceTo (x.sentAt + rtoNs s) s) job peer.toNat psn.toNat)

/-- KEEPALIVE (R344): an authenticated packet, and no more. -/
def execKeepalive (p : NxPkt) (s : State) : Host.Outcome State Fault Refusal := .next (onControl s p (fun s _ => s))

/-- KEEPALIVE_TIMER (R344): nothing sent for KEEPALIVE_MS / 4. -/
def execKeepaliveTimer (job : Fin 64) (peer : BitVec 14) (s : State) : Host.Outcome State Fault Refusal :=
  let c := s.conn job peer.toNat
  .next (if s.quiet || c.state ≠ 1 then s
  else sendUnnumbered (advanceTo (c.lastSent + s.cfg.keepaliveMs * 250000) s) job peer.toNat 0x21 0 0 [])

/-- KEEPALIVE_EXPIRY (R344): no authenticated packet for KEEPALIVE_MS. -/
def execKeepaliveExpiry (job : Fin 64) (peer : BitVec 14) (s : State) : Host.Outcome State Fault Refusal :=
  let c := s.conn job peer.toNat
  .next (if s.quiet || c.state ≠ 1 then s
  else fencePeer (advanceTo (c.lastHeard + s.cfg.keepaliveMs * 1000000) s) job peer.toNat 1)

/-- OPEN (R346): a side that is FENCED discards it; a side that was unfenced reopens, and answers with OPEN. -/
def execNxOpen (p : NxPkt) (s : State) : Host.Outcome State Fault Refusal :=
  .next (match received s p true with
  | (s, none) => s
  | (s, some k) =>
    let c := s.conn k p.src.toNat
    if c.state = 2 && c.unfenced then
      sendUnnumbered (setConn s k p.src.toNat { state := 1, lastHeard := s.time, lastSent := s.time }) k p.src.toNat 0x22 0 0 []
    else s)

/-- A write of UNFENCE (R346) for the connection NX_PEER_SEL names: PSNs restart at 0, and OPEN goes to the peer. -/
def writeUnfence (s : State) : State :=
  let k := bits s.nx.peerSel 19 14
  let m := bits s.nx.peerSel 13 0
  let c := s.conn k m
  if c.state ≠ 2 then s else sendUnnumbered (setConn s k m { state := 2, reason := c.reason, unfenced := true }) k m 0x22 0 0 []

/-- UNFENCE (R346). -/
def execUnfence (s : State) : Host.Outcome State Fault Refusal := .next (if s.quiet then s else writeUnfence s)

/-! ## Rows: ports (R332) -/

/-- Whether a port is in the applied Chart. -/
def portConfigured (s : State) (port : Nat) : Bool := s.cfg.ports.any (fun p => p.port = port)

/-- PORT_UP (R332): a port that trains, or retrains after a drop, is UP. -/
def execPortUp (port : Fin 128) (s : State) : Host.Outcome State Fault Refusal :=
  let q := s.port port
  .next (if s.quiet || !portConfigured s port || (q.state ≠ 1 && q.state ≠ 3) then s
  else setPort s port { q with state := 2, linkUps := (q.linkUps + 1) % 2 ^ 32 })

/-- PORT_DOWN (R332): a port whose link drops. -/
def execPortDown (port : Fin 128) (s : State) : Host.Outcome State Fault Refusal :=
  let q := s.port port
  .next (if s.quiet || q.state ≠ 2 then s else raise (setPort s port { q with state := 3 }) (1292 + port) { unit := port })

/-- PORT_TRAIN_TIMEOUT (R332): 500 ms after the TRAIN step. -/
def execPortTrainTimeout (port : Fin 128) (s : State) : Host.Outcome State Fault Refusal :=
  let q := s.port port
  .next (if s.quiet || q.state ≠ 1 then s
  else
    let s := advanceTo (s.glb.trainAt + 500000000) s
    raise (setPort s port { q with state := 4 }) (1292 + port) { unit := port })

end Sys2Proof.Machine
end

