-- ==== Sys2Proof/Machine/Job.lean ====
section
/-!
DEFINITION. Jobs (R347–R350, R362): joining and leaving, key agreement and rekeys, and the time exchange with a job's leader.
-/
namespace Sys2Proof.Machine

/-! ## Joining -/

/-- A member named by an entry of a job descriptor (R347). -/
def memberAt (bs : List Byte) (i : Nat) : Member := { module := le bs (64 * i) 2, digest := BitVec.ofNat 384 (beNat (sub bs (64 * i + 16) 48)) }

/-- Reads a descriptor: its header, then MEMBERS entries. -/
def readDesc (s : State) (k : Nat) : State × Eres :=
  let h : Hub := { tag := 0x22000 + k }
  let pa := bits (s.job k).desc 49 6 * 64
  match h.read 2 s pa 64 with
  | (s, .ok hd) =>
    (match h.read 8193 s (pa + 64) (64 * min 16384 (le hd 12 2)) with
      | (s, .ok bs) => (s, .ok (hd ++ bs))
      | x => x)
  | x => x

/-- A job fails with an ERROR. -/
def failJob (s : State) (k err : Nat) : State := setJob s k { s.job k with state := 4, error := err }

/-- A job becomes ACTIVE with KEY_ID 0 installed. -/
def activate (s : State) (k : Nat) : State :=
  clearNonces { setJob s k { s.job k with state := 2, keyId := 0, keys := [0], keyGen := s.draws } with draws := s.draws + 1 } k 0

/-- Steps 1 to 3 of a join (R347), once the descriptor can be read: this module must be listed with its own key digest; the leader makes the
key and is ACTIVE, a member sends HELLO. A descriptor that cannot be read, or names fewer than 2 members, lists nobody (log 29). -/
def readJob (s : State) (k : Nat) : State :=
  match readDesc s k with
  | (s, .hold) => s
  | (s, .fail _ _) => failJob s k 1
  | (s, .ok bs) =>
    let n := min 16384 (le bs 12 2)
    let ms := (List.range n).map (memberAt (bs.drop 64))
    let j := { s.job k with jobId := le bs 0 8, tag := le bs 8 2, leader := le bs 10 2, members := ms }
    if n < 2 || !ms.any (fun m => m.module = s.cfg.moduleId && m.digest = Config.likDigest) then failJob (setJob s k j) k 1
    else if j.leader = s.cfg.moduleId then activate (setJob s k j) k
    else sendKey (setJob s k { j with hello := s.time }) k j.leader 1

/-- A write of JOIN (R347, R362): taken in IDLE only. -/
def writeJoin (s : State) (k : Nat) : State :=
  let j := s.job k
  if j.state ≠ 0 then s else readJob (setJob s k { desc := j.desc, retx := j.retx, state := 1, joinedAt := s.time, hello := s.time }) k

/-- JOIN (R347). -/
def execJoin (slice : Fin 64) (s : State) : Host.Outcome State Fault Refusal := .next (if s.quiet then s else writeJoin s slice)

/-- HELLO_TIMER (R347): 1 ms after the last HELLO; a member whose descriptor could not be read yet reads it. -/
def execHelloTimer (slice : Fin 64) (s : State) : Host.Outcome State Fault Refusal :=
  let j := s.job slice
  .next (if s.quiet || j.state ≠ 1 || j.answered then s
  else
    let s := advanceTo (j.hello + 1000000) s
    let s := setJob s slice { s.job slice with hello := s.time }
    if j.members.isEmpty then readJob s slice else sendKey s slice j.leader 1)

/-- JOIN_TIMEOUT (R347): 30 s after JOIN. -/
def execJoinTimeout (slice : Fin 64) (s : State) : Host.Outcome State Fault Refusal :=
  let j := s.job slice
  .next (if s.quiet || j.state ≠ 1 then s else failJob (advanceTo (j.joinedAt + 30000000000) s) slice 2)

/-! ## Leaving -/

/-- A job is left (R362): its operations and collectives end PEER_LOST, its connections close, its keys are erased, the slot is IDLE. -/
def leaveJob (s : State) (k : Nat) : State :=
  if (s.job k).state = 0 then s
  else
    let s := loseOps s k (fun _ => true)
    let s := loseColls s k (fun _ => true)
    let s := { s with nx := { s.nx with
      conns := s.nx.conns.filter (fun p => p.1 / 16384 ≠ k)
      early := s.nx.early.filter (fun e => e.job ≠ k)
      dead := s.nx.dead.filter (fun d => d.1 ≠ k)
      groups := s.nx.groups.filter (fun g => g.1 % 64 ≠ k)
      cseq := s.nx.cseq.filter (fun p => p.1 / 65536 / 4 ≠ k) } }
    settleAll (setJob s k { desc := (s.job k).desc, retx := (s.job k).retx })

/-- LEAVE (R362). -/
def execLeave (slice : Fin 64) (s : State) : Host.Outcome State Fault Refusal := .next (if s.quiet then s else leaveJob s slice)

/-! ## Keys -/

/-- A write of REKEY (R349, R362): at the leader of an ACTIVE job. -/
def writeRekey (s : State) (k : Nat) : State := if leads s k then startRekey s k else s

/-- REKEY (R349). -/
def execRekey (slice : Fin 64) (s : State) : Host.Outcome State Fault Refusal := .next (if s.quiet then s else writeRekey s slice)

/-- OLD_KEY_ERASE (R349): 100 ms after SWITCH. -/
def execOldKeyErase (slice : Fin 64) (s : State) : Host.Outcome State Fault Refusal :=
  let j := s.job slice
  .next (if s.quiet then s
  else match j.oldKeySince with
    | none => s
    | some (old, t) => setJob (advanceTo (t + 100000000) s) slice { j with keys := j.keys.filter (· ≠ old), oldKeySince := none })

/-- Whether a signature is good and its signer the key a job lists for a module. -/
def listedSigner (j : Job) (module : Nat) (signer : BitVec 384) (sigOk : Bool) : Bool := sigOk && j.members.any (fun m => m.module = module && m.digest = signer)

/-- A KEY_EXCH message for a job slot (R347, R349). A share that does not check fails the join with BAD_SIGNATURE; a message that does not
authenticate under the wrap key or the job key is discarded. -/
def keyMessage (s : State) (k : Nat) (p : NxPkt) (kind : KeyMsg) (signer : BitVec 384) (sigOk : Bool) : State :=
  let j := s.job k
  let from' := p.src.toNat
  let fromLeader : Bool := from' = j.leader
  match kind with
  | .hello => if j.state = 2 && leads s k && listedSigner j from' signer sigOk then sendKey (sendKey s k from' 2) k from' 3 else s
  | .share =>
    if j.state = 1 && fromLeader then (if listedSigner j from' signer sigOk then setJob s k { j with answered := true } else failJob s k 3) else s
  | .jobKey => if j.state = 1 && fromLeader && j.answered && p.auth then activate s k else s
  | .nextKey n =>
    if j.state = 2 && fromLeader && p.auth && n.toNat = (j.keyId + 1) % 4 then sendKey (setJob s k { j with pend := some n.toNat }) k from' 5 else s
  | .ackKey =>
    if j.state = 2 && leads s k && p.auth && j.acks.contains from' then
      let acks := j.acks.filter (· ≠ from')
      let s := setJob s k { j with acks := acks }
      if acks.isEmpty then finishRekey s k else s
    else s
  | .switch => if j.state = 2 && fromLeader && p.auth then switchKey s k else s
  | .askRekey => if p.auth then writeRekey s k else s

/-- KEY_EXCH (R347, R349). It names its job by JOB_TAG, ACTIVE or joining. -/
def execKeyExch (p : NxPkt) (kind : KeyMsg) (signer : BitVec 384) (sigOk : Bool) (s : State) : Host.Outcome State Fault Refusal :=
  .next (if !carries s p.port 0 then s
  else
    let s := countRx s p.port
    if p.dst.toNat ≠ s.cfg.moduleId || !framed s p then s
    else match (List.range 64).find? (fun k => ((s.job k).state = 1 || (s.job k).state = 2) && (s.job k).tag = p.jobTag.toNat && !(s.job k).members.isEmpty) with
      | none => s
      | some k => if (s.conn k p.src.toNat).state = 2 then s else keyMessage s k p kind signer sigOk)

/-! ## Time (R350) -/

/-- The lowest ACTIVE job. -/
def timeJob (s : State) : Option Nat := (List.range 64).find? (fun k => (s.job k).state = 2)

/-- This member's TIME_REQ (R350): the first once the job is ACTIVE, the next 10 ms after it. -/
def askTime (s : State) (k : Nat) : State :=
  let s := match (s.job k).asked with | some t => advanceTo (t + 10000000) s | none => s
  sendUnnumbered (setJob s k { s.job k with asked := some s.time }) k (s.job k).leader 0x31 s.time 0 (leBytes 8 s.time)

/-- TIME_REQ (R350): this member's own to the leader of its lowest ACTIVE job, or a member's, which the leader answers (PRESUMED, log 85). -/
def execTimeReq (slice : Fin 64) (p : Option NxPkt) (s : State) : Host.Outcome State Fault Refusal :=
  .next (if s.quiet then s
  else match p with
    | none => if timeJob s = some slice.val && !leads s slice then askTime s slice else s
    | some p => onControl s p (fun s k =>
        if leads s k then sendUnnumbered s k p.src.toNat 0x32 s.time 0 (leBytes 8 p.addr.toNat ++ leBytes 8 s.time ++ leBytes 8 s.time) else s))

/-- The leader's offset from this module, on a symmetric path (R350): half the sum of what the two directions show, from the payload's three times (this
module's request, its arrival and the answer at the leader) and the present one (PRESUMED, log 85). -/
def timeOffset (now : Nat) (bs : List Byte) : BitVec 64 :=
  BitVec.ofInt 64 (((le bs 8 8 : Int) - (le bs 0 8 : Int) + ((le bs 16 8 : Int) - (now : Int))) / 2)

/-- TIME_RESP (R350): the offset measured is reported; TIME is stepped by it once after ACTIVE, and slewed after that. -/
def execTimeResp (p : NxPkt) (s : State) : Host.Outcome State Fault Refusal :=
  .next (onControl s p (fun s k =>
    let j := s.job k
    if timeJob s ≠ some k || leads s k || p.src.toNat ≠ j.leader then s
    else
      let offset := timeOffset s.time p.payload
      let s := { s with nx := { s.nx with timeErr := offset } }
      if j.stepped then { s with nx := { s.nx with slew := offset.toInt, slewNs := 0 } }
      else setJob { s with time := (s.time + offset.toNat) % timeMod } k { j with stepped := true }))

end Sys2Proof.Machine
end

