-- ==== Sys2Proof/Machine/Slices.lean ====
section
/-!
DEFINITION. Slices (R382–R398): BIND, RESET and UNBIND with work in flight, the unbind's scrubs, the tenant page, the mirror and the
control line.
-/
namespace Sys2Proof.Machine

/-- A slice's regulator loses its tokens and debt (R279, R384, R387). -/
def clearTokens (s : State) (n : Nat) : State := setRegulator s n { s.regulator n with tokens := 0, remainder := 0 }

/-- Whether a core is a hole (R432): retired, or on a site that is disabled, FAILED or RETIRED. -/
def coreHole (s : State) (c : Nat) : Bool :=
  let k := c / 24
  (s.core c).st = .retired || (s.site k).state = 6 || (s.site k).state = 7 ||
    (match s.cfg.sites[k]? with | some r => r.enable ≠ 1 | none => false)

/-! ## In flight (R388) -/

/-- The slice of an initiator's tag: a queue's, a tile mover's core's, a Calender engine's run's, a mirror's. -/
def tagSlice (s : State) (tag : Nat) : Option Nat :=
  if tag < 4096 then sliceOfQueue s tag
  else if 0x10000000 ≤ tag && tag < 0x20000000 then sliceOfQueue s ((tag - 0x10000000) / 65536)
  else if 0x10000 ≤ tag && tag < 0x10000 + 576 then sliceOfCore s ((tag - 0x10000) / 4)
  else if 0x20000 ≤ tag && tag < 0x20008 then (s.runs.find? (fun r => r.mask.getLsbD (tag - 0x20000))).map (·.slice)
  else if 0x68000 ≤ tag && tag < 0x68040 then some (tag - 0x68000)
  else none

/-- Requests of a slice past their meters, its walks' among them, releases and acquires it waits for, and started descriptors. -/
def sliceRequests (s : State) (n : Nat) : Nat :=
  (s.txns.filter (fun t => (t.slice = some n || (t.ini = 206 && t.reg = n)) && (t.charged || t.stage ≠ .queued))).length +
  (s.rops.filter (fun o => o.done.isNone && (match o.target with | .fabric job _ _ => job = n | .host _ _ => tagSlice s o.tag = some n))).length +
  (s.fabOps.filter (fun f => f.slice = n && f.regions ≠ 0)).length +
  ((coresOfSlice s n).map (fun c => ((s.core c).tq.filter (fun p => p.2.q.any (·.started))).length)).sum

/-- Commands of a queue whose record is still to come. -/
def Queue.commands (x : Queue) : Nat := (if x.cmd.isSome then 1 else 0) + x.closing.length

/-- Commands in progress of a slice. -/
def sliceCommands (s : State) (n : Nat) : Nat :=
  match sliceRec s n with
  | none => 0
  | some r => ((s.queues.filter (fun p => r.qFirst ≤ p.1 && p.1 < r.qFirst + r.qCount)).map (fun p => p.2.commands)).sum

/-- Cores of a slice not HALTED; a hole is none (R432). -/
def sliceCores (s : State) (n : Nat) : Nat :=
  ((coresOfSlice s n).filter (fun c => (s.core c).st ≠ .halted && !coreHole s c)).length

/-! ## SLC_CTL (R384, R386) -/

/-- What is wrong with a BIND (R384), 0 if nothing. An undefined slice is NO_SLICE rather than STATE (DEDUCED, log 46). -/
def bindError (s : State) (n pasid : Nat) : Nat :=
  let sl := s.slice n
  let inUse := s.slices.any (fun p => p.1 ≠ n && 1 ≤ p.2.state && p.2.state ≤ 4 && p.2.pasid = pasid)
  if s.chart.state = 4 || s.chart.reload then 1
  else if sl.state = 6 then 3
  else if sl.state ≠ 0 then 2
  else if inUse then 4
  else if !bit (s.ctx n).root 0 then 5
  else if pasid = 0 then 6
  else 0

/-- Whether a mode asks for SQUASH: MODE 0 takes the slice's default. -/
def modeSquash (s : State) (n mode : Nat) : Bool :=
  mode = 2 || (mode = 0 && (match sliceRec s n with | some r => r.squash | none => false))

/-- A RESET or an UNBIND by the state of the slice (R386): the state and ERROR. -/
def resetOrUnbind (s : State) (n : Nat) (unbind squash : Bool) : State × Nat :=
  let sl := s.slice n
  let going := (sl.state = 3 || sl.state = 4) && sl.stage = .drain
  let escalate := going && squash && !sl.squash
  match sl.state with
  | 6 => (s, 3)
  | 2 => (flushIrqs (beginReset s n squash unbind), 0)
  | 3 =>
    let s := if unbind then setSlice s n { sl with unbindNext := true } else s
    if escalate then (squashSlice s n, 0) else (s, if unbind then 0 else 2)
  | 4 => if escalate then (squashSlice s n, 0) else (s, 2)
  | _ => (s, 2)

/-- A write of SLC_CTL (R384, R386, R395): other OPs, and the unnamed MODE 3 (DEDUCED, log 46), are discarded. -/
def writeSlcCtl (s : State) (n op mode pasid : Nat) : State :=
  if op = 0 || op > 3 || (mode = 3 && op ≠ 1) then s
  else
    let (s, e) :=
      if op = 1 then
        let e := bindError s n pasid
        (if e = 0 then setSlice s n { s.slice n with state := 1, stage := .bindInv, pasid := pasid } else s, e)
      else resetOrUnbind s n (op = 3) (modeSquash s n mode)
    setSlice s n { s.slice n with lastOp := op, error := e }

/-- BIND (R384). -/
def execBind (slice : Fin 64) (pasid : BitVec 20) (s : State) : Host.Outcome State Fault Refusal :=
  .next (if s.quiet then s else settleAll (writeSlcCtl s slice 1 0 pasid.toNat))
/-- SLICE_RESET (R386, R387). -/
def execSliceReset (slice : Fin 64) (mode : BitVec 2) (s : State) : Host.Outcome State Fault Refusal :=
  .next (if s.quiet then s else settleAll (writeSlcCtl s slice 2 mode.toNat 0))
/-- UNBIND (R386, R389). -/
def execUnbind (slice : Fin 64) (mode : BitVec 2) (s : State) : Host.Outcome State Fault Refusal :=
  .next (if s.quiet then s else settleAll (writeSlcCtl s slice 3 mode.toNat 0))

/-- BIND_DONE (R384, R196, R443): the context is invalidated, the tenant view and the regulator cleared; a fence that came meanwhile acts. -/
def execBindDone (slice : Fin 64) (s : State) : Host.Outcome State Fault Refusal :=
  let n := slice.val
  .next (if s.quiet || (s.slice n).state ≠ 1 then s
  else match invalidateCtx s n with
    | none => s
    | some s =>
      let sl := s.slice n
      let s := clearTokens { s with noc := { s.noc with tv := Tab.set {} s.noc.tv n {} } } n
      let s := setSlice s n { sl with state := 2, stage := .idle, gen := (sl.gen + 1) % 2 ^ 32, fenceAfterBind := false }
      settleAll (if sl.fenceAfterBind then flushIrqs (beginReset s n true false) else s))

/-! ## The reset's later steps (R387) -/

/-- SLICE_INFLIGHT_ZERO (R387 steps 3 and 4): nothing of the slice is in flight; its cores go through CORE_RESET, its tokens go. -/
def execSliceInflightZero (slice : Fin 64) (s : State) : Host.Outcome State Fault Refusal :=
  let n := slice.val
  let sl := s.slice n
  .next (if s.quiet || sl.stage ≠ .drain || sliceCores s n + sliceCommands s n + sliceRequests s n > 0 then s
  else
    let s := (coresOfSlice s n).foldl (fun s c => if coreHole s c then s else resetCore s c) s
    let s := clearTokens s n
    setSlice s n { s.slice n with stage := .coreReset })

/-! ## The unbind's later steps (R389) -/

/-- Step 2: the context's ROOT and windows lose V, its fault information is cleared. -/
def clearContext (s : State) (n : Nat) : State :=
  let c := s.ctx n
  setCtx s n { c with root := c.root &&& ~~~1#64, faultInfo := 0, win := (List.range 16).foldl (fun t w =>
    Tab.modify {} t w (fun x => { x with hva := x.hva &&& ~~~1#64 })) c.win }

/-- Step 3: the queue pages, the mirror and the control line are at their reset values. -/
def clearQueues (s : State) (n : Nat) : State :=
  let s := (queuesOfSlice s n).foldl (fun s q => setQueue s q {}) s
  setSlice s n { s.slice n with mirror := 0, ctlLine := 0, ctlPend := [] }

/-- Cleans and empties the LOCKED ways of one home slice that meet a condition, and zeroes its SCRATCH ways that do (R59, R166). -/
def emptyWays (s : State) (j reg : Nat) (f : Nat → Bool) : List MaintOp :=
  let locked := ((List.range 16).filter (fun w => wayMode s j w = 1 && f w)).foldl (fun m w => m + 2 ^ w) 0
  let scratch := (List.range 16).filter (fun w => wayMode s j w = 2 && f w)
  (if locked = 0 then [] else [{ op := 3, base := 0, size := 2 ^ 50, ways := locked, reg := reg }]) ++
  scratch.map (fun w => { op := 4, base := scratchBase + j * 0x2000000 + w * 0x200000, size := 0x200000, ways := 2 ^ w, reg := reg })

/-- Regions an unbind zeroes (R389, R390). A REMOTE region holds no memory of the module. -/
def scrubRegions (s : State) (n : Nat) : List Region :=
  s.cfg.regions.filter (fun r => r.scrub && r.interleave ≠ 5 &&
    (if r.sharedRo then r.owner = n
     else r.readMask.getLsbD n && (List.range 64).all (fun m => m = n || !r.readMask.getLsbD m ||
       ((s.slice m).state ≠ 1 && (s.slice m).state ≠ 2 && (s.slice m).state ≠ 3))))

/-- Step 4: the scrubs are queued on the system contexts (R161), the ways' first, charged to the slice, or for a reload's repeat to 68 (R264). -/
def queueScrubs (s : State) (n reg : Nat) : State :=
  let regs := scrubRegions s n
  let ops := fun (j : Nat) => (emptyWays s j reg (fun w => wayOwner s j w = n)).map (fun m => (m, SysFor.wayScrub n)) ++
    regs.map (fun r => (({ op := 4, base := r.base, size := r.size, ways := 0, reg := reg } : MaintOp), SysFor.regionScrub n r.num))
  let total := ((List.range 32).map (fun j => (ops j).length)).sum
  let s := (List.range 32).foldl (fun s j => if (ops j).isEmpty then s else pushSys s j (ops j)) s
  setSlice s n { s.slice n with scrubsLeft := total, scrubFailed := false }

/-- After the reset of an unbind (R389): the job is left, and once the context is invalidated it is cleared and the scrubs begin. -/
def continueUnbind (s : State) (n : Nat) : State :=
  let s := leaveJob s n
  match invalidateCtx s n with
  | none => setSlice s n { s.slice n with stage := .inval }
  | some s =>
    let s := clearQueues (clearContext s n) n
    let s := setSlice s n { s.slice n with state := 5, stage := .scrub, pasid := 0, squash := false }
    queueScrubs s n n

/-- SLICE_RESET_DONE (R387 step 5, R389): the cores are out of RESET; the slice is BOUND again, or its unbind goes on. -/
def execSliceResetDone (slice : Fin 64) (s : State) : Host.Outcome State Fault Refusal :=
  let n := slice.val
  let sl := s.slice n
  .next (if s.quiet then s
  else match sl.stage with
    | .inval => continueUnbind s n
    | .coreReset =>
      if (coresOfSlice s n).any (fun c => (s.core c).st = .reset && !coreHole s c && siteUp s (c / 24)) then s
      else if sl.state = 4 then continueUnbind s n
      else
        let sl := { sl with resets := (sl.resets + 1) % 2 ^ 32, squash := false, unbindNext := false, stage := .idle }
        if (s.slice n).unbindNext then continueUnbind (setSlice s n { sl with state := 4 }) n
        else setSlice s n { sl with state := 2 }
    | _ => s)

/-- SCRUB_DONE (R389): every scrub has ended; one that failed holds the slice in SCRUBBING and raises source 1164 + slice. -/
def execScrubDone (slice : Fin 64) (s : State) : Host.Outcome State Fault Refusal :=
  let n := slice.val
  let sl := s.slice n
  .next (if s.quiet || sl.state ≠ 5 || sl.stage ≠ .scrub || sl.scrubsLeft ≠ 0 then s
  else if sl.scrubFailed then raise (setSlice s n { sl with stage := .idle }) (1164 + n) { slice := n, unit := n }
  else setSlice s n { sl with state := 0, stage := .idle, resets := (sl.resets + 1) % 2 ^ 32 })

/-! ## The tenant page, the mirror and the control line (R391–R394) -/

/-- CEQ_STATUS of a queue (R308). -/
def ceqStatus (s : State) (q : Nat) : Nat :=
  let x := s.queue q
  fld x.cons 63 48 + fld x.prod 47 32 + fld x.nextSeq 31 16 + fld x.refused 15 14 + fld x.reason 13 10 + flag x.heldRecord.isSome 9 +
    flag x.resume.isSome 8 + flag x.dbBad 7 + fld x.state 1 0

/-- The queue QSEL selects, if it is one of the slice's (R392). -/
def tenantQueue (s : State) (n : Nat) : Option Nat :=
  match sliceRec s n with
  | some r => if (s.slice n).qsel < r.qCount then some (r.qFirst + (s.slice n).qsel) else none
  | none => none

/-- Mean board-input power over the last 100 ms: a free value by the interval, 0 before the first one ends (R391, R471) (DESIGN CHOICE, log
65). -/
def modulePower (s : State) : Nat := if s.time < 100000000 then 0 else (Config.power (s.time / 100000000)).toNat

/-- A register of the NOC tenant view of a slice by its offset (R278). -/
def tvReg (s : State) (n off : Nat) : Nat :=
  let v : Tv := Tab.get {} s.noc.tv n
  if off = 0 then v.viewTm else if off = 8 then v.viewQ else if off = 0x50 then v.stamp
  else if 0x10 ≤ off && off < 0x50 then Tab.get 0 v.viewHist ((off - 0x10) / 8) else 0

/-- A register of the tenant page by its offset (R392). -/
def tenantReg (s : State) (n off : Nat) : Nat :=
  let sl := s.slice n
  let ofQueue := fun (f : Nat → Nat) => match tenantQueue s n with | some q => f q | none => 0
  if off = 0 then fld sl.pasid 43 24 + sl.state
  else if off = 8 then timeCoarse s
  else if off = 0x10 then modulePower s / 25 % 65536
  else if 0x20 ≤ off && off ≤ 0x70 then tvReg s n (off - 0x20)
  else if off = 0x80 then sl.qsel
  else if off = 0x88 then ofQueue (ceqStatus s)
  else if off = 0x90 then ofQueue (fun q => (s.queue q).abortResult.toNat)
  else if off = 0xA0 then ofQueue (fun q => (s.queue q).lastElems % 2 ^ 64)
  else if off = 0xA8 then ofQueue (fun q => (s.queue q).lastFail.toNat)
  else 0

/-- The 256 bytes of a mirror (R393). -/
def mirrorBytes (s : State) (n : Nat) : List Byte :=
  (List.range 32).flatMap (fun i => leBytes 8 (
    if i ≤ 2 then tenantReg s n (8 * i)
    else if i = 3 then (s.slice n).ctlAck.toNat
    else if i ≤ 14 || (16 ≤ i && i ≤ 21 && i ≠ 19) then tenantReg s n (8 * i)
    else 0))

/-- A write of SLC_MIRROR: a PERIOD above 11 is discarded (DEDUCED, log 46). -/
def writeMirror (s : State) (n : Nat) (v : Word) : State :=
  if bits v 3 0 > 11 then s else setSlice s n { s.slice n with mirror := keepFields v [(56, 8), (3, 0)], mirrorAt := s.time }

/-- A write of SLC_CTL_LINE: discarded where V is set and the line is not in a region the slice may write (R394). -/
def writeCtlLine (s : State) (n : Nat) (v : Word) : State :=
  let ok : Bool := match s.cfg.regionOf (bits v 49 7 * 128) with | some r => r.writeMask.getLsbD n | none => false
  if bit v 0 && !ok then s else setSlice s n { s.slice n with ctlLine := keepFields v [(49, 7), (0, 0)], ctlPend := [] }

/-- MIRROR_WRITE (R393): a write that faults stops the mirror (DESIGN CHOICE, log 132). -/
def execMirrorWrite (slice : Fin 64) (s : State) : Host.Outcome State Fault Refusal :=
  let n := slice.val
  let p := bits (s.slice n).mirror 3 0
  .next (if s.quiet || p = 0 then s
  else
    let s := advanceTo ((s.slice n).mirrorAt + 10000 * 2 ^ (p - 1)) s
    let e : Eng := { tag := 0x68000 + n, slice := n, port := 8, reg := n, ini := 999 }
    let (s, r) := e.writeSpan 4 s (bits (s.slice n).mirror 56 8 * 256) (mirrorBytes s n)
    let sl := s.slice n
    match r with
    | .ok _ => settleAll (releaseTag (setSlice s n { sl with mirrorAt := s.time }) e.tag)
    | .hold => s
    | .fail _ _ => settleAll (releaseTag (setSlice s n { sl with mirror := sl.mirror &&& ~~~15#64 }) e.tag))

/-- CONTROL_WORD (R394): the oldest word delivered is taken; CTL_ACK shows its NONCE and RESULT. -/
def execControlWord (slice : Fin 64) (w : BitVec 64) (s : State) : Host.Outcome State Fault Refusal :=
  let n := slice.val
  let sl := s.slice n
  let action := bits w 3 0
  .next (if s.quiet || sl.ctlPend.head? ≠ some w then s
  else
    let queue := match sliceRec s n with
      | some r => if bits w 15 4 < r.qCount then some (r.qFirst + bits w 15 4) else none
      | none => none
    let ack := fun (r : Nat) => setSlice s n { sl with ctlPend := sl.ctlPend.drop 1, ctlAck := BitVec.ofNat 64 (fld (bits w 63 48) 63 48 + r) }
    match queue with
    | some q =>
      if bits w 47 16 ≠ 0 || action = 0 || action > 4 || sl.state ≠ 2 then ack 1
      else settleAll (writeCeqCtl (ack 0) q (2 ^ (action - 1)))
    | none => ack 1)

end Sys2Proof.Machine
end

