-- ==== Sys2Proof/Machine/ChartOps.lean ====
section
/-!
DEFINITION. The CHART block (R51–R61): sessions and their ends, the staging window, the commands, and the apply sequencer with what a
reload does.
-/
namespace Sys2Proof.Machine

/-- The path of a session that an access path stands for, if it is one to the CHART block (R51). -/
def chartPath (s : State) (p : Path) : Option ChartPath :=
  if !pathUp s p then none
  else match p with
    | .bar0 => if s.pins.strapBoot = 0 then some .host else none
    | .mgmt n => some (.mgmt n)
    | _ => none

/-- Whether the open session belongs to another path (R51, R52). -/
def otherPath (s : State) (p : ChartPath) : Bool := match s.chart.session with | some q => decide (q ≠ p) | none => false

def discardCmd (s : State) : State := { s with chart := { s.chart with cmdDiscarded := true } }
def discardWin (s : State) : State := { s with chart := { s.chart with winDiscarded := true } }

/-- A command or window write restarts the session's 10 s (R52). -/
def touchSession (s : State) (p : ChartPath) : State :=
  if s.chart.session = some p then { s with chart := { s.chart with lastActivity := s.time } } else s

/-! ## Quiescence (R58) -/

/-- Every condition of a reload. -/
def quiescent (s : State) : Bool :=
  s.slices.all (fun p => p.2.state = 0 || p.2.state = 6 || (p.2.state = 5 && p.2.stage = .idle && p.2.scrubFailed)) &&
  s.queues.all (fun p => p.2.state = 0 && p.2.prod = p.2.cons) &&
  s.cores.all (fun p => p.2.st ≠ .running && p.2.st ≠ .waiting) &&
  s.lla.slices.all (fun p => p.2.mState ≠ 1 && p.2.sys.isEmpty && p.2.sysMore.isEmpty) && s.runs.isEmpty &&
  s.nx.colls.isEmpty &&
  (List.range 64).all (fun k => (s.job k).keys.isEmpty && (s.job k).pend.isNone) && s.rops.all (fun o => o.done.isSome) &&
  s.nx.qps.all (fun p => p.2.state ≠ 1)

/-! ## Commands -/

/-- Accepted states of a command (R53). -/
def chartAccepts (st cmd : Nat) : Bool :=
  match cmd with
  | 1 => st = 0 || st = 3 || st = 5 || st = 6
  | 2 => st = 1
  | 3 => st = 3
  | _ => st ≠ 4

/-- Survey's tests under way are abandoned (R468, R472): a way under test goes back to allocation. -/
def abandonSurvey (s : State) : State :=
  let ways := (s.tel.testing.filter (fun p => p.1.kind = 5)).map (fun p => p.1.unit)
  let s := ways.foldl (fun s u => setHome s (u / 16) { s.home (u / 16) with waysOut := (s.home (u / 16)).waysOut &&& ~~~(1#16 <<< (u % 16)) }) s
  { s with tel := { s.tel with testing := [] }, cores := s.cores.map (fun p => (p.1, { p.2 with survey := false })) }

/-- The sampling of QUIESCENT by an APPLY (R58, R61, R389): a reload suspends Survey and repeats every failed scrub first. -/
def beginApply (s : State) : State :=
  if s.chart.epoch = 0 then { s with chart := { s.chart with state := 4, reload := false } }
  else if !quiescent s then
    { s with chart := { s.chart with state := 6, error := 0x18, errSection := 0xFF, errOffset := 0, session := none, verified := none } }
  else
    let s := s.slices.foldl (fun s p => if p.2.state = 5 then queueScrubs s p.1 68 else s) s
    abandonSurvey { s with chart := { s.chart with state := 4, reload := true, sweeping := false } }

/-- A write of CHART_CTL (R51, R53, R61). -/
def writeChartCtl (s : State) (p : ChartPath) (cmd : Nat) : State :=
  if s.fcu.safe then discardCmd s
  else if cmd = 0 then s
  else if cmd > 4 || otherPath s p || !chartAccepts s.chart.state cmd then touchSession (discardCmd s) p
  else
    let c := s.chart
    match cmd with
    | 1 => { s with chart := { c with state := 1, session := some p, lastPath := (match p with | .host => 0 | .mgmt _ => 1), ended := false,
                                      error := 0, errSection := 0xFF, errOffset := 0, buf := [], lastActivity := s.time, verified := none } }
    | 2 => touchSession { s with chart := { c with state := 2 } } p
    | 3 => touchSession (beginApply s) p
    | _ => { s with chart := { c with state := 0, session := none, ended := false, verified := none } }

def chartRow (path : Path) (cmd : Nat) (s : State) : State :=
  match chartPath s path with
  | some p => settleAll (writeChartCtl s p cmd)
  | none => s

/-- CHART_OPEN (R51). -/
def execChartOpen (path : Path) (s : State) : Host.Outcome State Fault Refusal := .next (chartRow path 1 s)
/-- CHART_VERIFY (R53). -/
def execChartVerify (path : Path) (s : State) : Host.Outcome State Fault Refusal := .next (chartRow path 2 s)
/-- CHART_APPLY (R58). -/
def execChartApply (path : Path) (s : State) : Host.Outcome State Fault Refusal := .next (chartRow path 3 s)
/-- CHART_ABORT (R53). One in VERIFYING returns to IDLE at once, and that verification's outcome is not reported (DESIGN CHOICE, log 141). -/
def execChartAbort (path : Path) (s : State) : Host.Outcome State Fault Refusal := .next (chartRow path 4 s)

/-- A write of the staging window (R51, R61): writable in STAGING from the session's path. -/
def writeWindow (s : State) (p : ChartPath) (off : Nat) (bs : List Byte) : State :=
  if s.fcu.safe || s.chart.state ≠ 1 || otherPath s p then touchSession (discardWin s) p
  else
    let base := s.chart.page * 0x80000 + off
    let buf := bs.zipIdx.foldl (fun t b => Tab.set 0 t (base + b.2) b.1) s.chart.buf
    touchSession { s with chart := { s.chart with buf := buf } } p

/-- CHART_WINDOW_WRITE (R51): an aligned write of 8 bytes, or of 4. -/
def execChartWindowWrite (path : Path) (off : BitVec 19) (wide : Bool) (v : BitVec 64) (s : State) : Host.Outcome State Fault Refusal :=
  let n := if wide then 8 else 4
  .next (match chartPath s path with
  | some p => if off.toNat % n ≠ 0 then s else writeWindow s p off.toNat (leBytes n v.toNat)
  | none => s)

/-- CHART_SESSION_TIMEOUT (R52): 10 s without a command or window write. -/
def execChartSessionTimeout (s : State) : Host.Outcome State Fault Refusal :=
  .next (match s.chart.session with
  | some p => if s.quiet || (s.chart.state ≠ 1 && s.chart.state ≠ 3) then s else endSession (advanceTo (s.chart.lastActivity + 10000000000) s) p
  | none => s)

/-- VERIFY_DONE (R52, R53): the outcome of the checks; a session that ended meanwhile goes to IDLE. The 10 s of the session count from the entry to
VERIFIED (DESIGN CHOICE, log 142). -/
def execVerifyDone (s : State) : Host.Outcome State Fault Refusal :=
  .next (if s.quiet || s.chart.state ≠ 2 then s
  else
    let (e, c) := verifyChart s
    let b := { s.chart with error := e.1, errSection := e.2.1, errOffset := e.2.2 }
    { s with chart :=
      if s.chart.ended then { b with state := 0, session := none, ended := false }
      else if e.1 ≠ 0 then { b with state := 6, session := none }
      else { b with state := 3, verified := c, lastActivity := s.time } })

/-! ## Applying (R54–R60) -/

/-- Steps 1 and 2 of a reload (R59), queued on the system contexts and charged to 68 (R161, R264): CACHE ways, and LOCKED ways that change, are cleaned
and emptied, SCRATCH ways that change zeroed. -/
def reloadArray (s : State) (c : Chart) : State :=
  (List.range 32).foldl (fun s j =>
    let plan : LlaPlan := Tab.get {} c.lla j
    let changed := fun (w : Nat) => wayMode s j w ≠ bits plan.modes (2 * w + 1) (2 * w) || wayOwner s j w ≠ bits plan.owners (8 * w + 7) (8 * w)
    let cache := ((List.range 16).filter (fun w => wayMode s j w = 0)).foldl (fun m w => m + 2 ^ w) 0
    let clean := if cache = 0 then [] else [{ wholeRange with op := 3, ways := cache, reg := 68 }]
    pushSys s j ((clean ++ emptyWays s j 68 changed).map (fun m => (m, SysFor.reload)))) s

/-- Whether an operation of a reload has not ended yet. -/
def sweepRuns (s : State) : Bool := s.lla.slices.any (fun p => p.2.sys.any (fun o => o.2 = .reload) || p.2.sysMore.any (fun o => o.2 = .reload))

/-- The bytes of one channel's span become undefined (R59). -/
def loseSpan (s : State) (ch lo len : Nat) : State :=
  let k := memKey ch lo
  { s with mem := s.mem.filter (fun p => !(k ≤ p.1 && p.1 < k + len)), poison := s.poison.filter (fun l => !(k / 128 ≤ l && l < (k + len) / 128)),
           undef := { lo := k, len := len, gen := s.draws } :: punch k len s.undef }

/-- A region that is new, or whose record changed, has undefined contents (R59). -/
def loseRegion (s : State) (r : Region) : State :=
  if r.interleave = 5 then s
  else
    let c := chanCount r.interleave
    let s := (List.range c).foldl (fun s p => loseSpan s (chanAt r.interleave r.target p) r.baseCh (r.size / c)) s
    { s with draws := s.draws + 1 }

/-- Whether a Chart enables a site. -/
def Chart.enables (c : Chart) (k : Nat) : Bool := match c.sites[k]? with | some r => r.enable = 1 | none => false

/-- A domain is on, or off. A SerDes group or endpoint whose domain comes on again locks its PLL anew (R21) (DESIGN CHOICE, log 137). -/
def setPd (s : State) (d st : Nat) : State :=
  let was := (Tab.get ({} : Pd) s.tel.pd d).state
  let again := 24 ≤ d && d ≤ 32 && was ≤ 1 && st = 2
  { s with tel := { s.tel with pd := Tab.modify {} s.tel.pd d (fun p => { p with state := st }) },
           clk := { s.clk with pllLost := if again then s.clk.pllLost &&& ~~~(1#9 <<< (d - 24)) else s.clk.pllLost } }

/-- Sites switched on or off by a reload (R59): one switched on trains under the bring-up rules, which before the TRAIN step leave it to that step;
one switched off has its traffic resolved. -/
def reloadSite (s : State) (old new : Chart) (k : Nat) : State :=
  let x := s.site k
  if old.enables k = new.enables k || x.state = 7 then s
  else if new.enables k then
    if x.state = 0 && stepDone s 3 && s.clk.rootLock && occupiedSite s k && !s.pins.thermTrip then setPd (setSite s k { x with state := 3, pwrReq := true, clkFwd := true, rstRel := true, train := true }) (8 + k) 2 else s
  else if x.state = 0 then s
  else dropTo (resolveSite s k) k 0 0

/-- Ports that are new, gone, or changed in width or medium (R59); before the TRAIN step they are left to it. -/
def reloadPort (s : State) (old new : Chart) (p : Nat) : State :=
  let find := fun (c : Chart) => c.ports.find? (fun r => r.port = p)
  match find old, find new with
  | _, none => if (s.port p).state = 0 then s else setPort s p { s.port p with state := 0 }
  | none, some _ => if stepDone s 3 && s.clk.rootLock && !s.pins.thermTrip then setPort s p { s.port p with state := 1 } else s
  | some a, some b =>
    if (a.width = b.width && a.medium = b.medium) || !stepDone s 3 || !s.clk.rootLock || s.pins.thermTrip then s
    else setPort s p { s.port p with state := 1 }

/-- Group domains follow the ports configured (R426). -/
def groupPower (s : State) (c : Chart) : State :=
  (List.range 8).foldl (fun s g => if stepDone s 2 then setPd s (24 + g) (if c.ports.any (fun p => p.port / 16 = g) then 2 else 0) else s) s

/-- Step 3 (R54): the settings of the image are in force; the regulators take its rates and lose tokens and debts. -/
def writeSettings (s : State) (c : Chart) : State :=
  let s := { s with chart := { s.chart with applied := some c }, noc := { s.noc with throttled := false, clean := 0, meters := [] } }
  (List.range 70).foldl (fun s n =>
    let r := s.regulator n
    let (w, g) := match c.regs.find? (fun x => x.reg = n) with | some x => (x.weight, x.guar) | none => (1, 0)
    setRegulator s n { r with weight := w, guar := g, next := none, tokens := 0, remainder := 0, demand := 0, demands := [], shares := none, held := false }) s

/-- Sites and ports a reload trains that have not finished (R59). -/
def reloadTraining (s : State) : Bool :=
  (List.range 16).any (fun k => (s.site k).state = 3) || s.cfg.ports.any (fun p => (s.port p.port).state = 1)

/-- STATE becomes APPLIED and a new epoch begins (R55, R383, R411, R414, R422) (DEDUCED, log 129). -/
def finishApply (s : State) (c : Chart) (reload : Bool) : State :=
  let s := { s with chart := { s.chart with state := 5, session := none, ended := false, epoch := (s.chart.epoch + 1) % 2 ^ 32, verified := none,
                                            prior := none, reload := false, sweeping := false, rwl := [], error := 0, errSection := 0xFF, errOffset := 0 } }
  let slices := (List.range 64).foldl (fun t n =>
    Tab.set {} t n ({ state := if c.slices.any (fun x => x.slice = n) then 0 else 6 } : Slice)) ([] : Tab Slice)
  let s := { s with slices := slices, mcs := s.mcs.foldl (fun (t : Tab Mc) (p : Nat × Mc) => Tab.set {} t p.1 { p.2 with pprDone := 0 }) [],
                    glb := { s.glb with chart := true, retiredCores := 0, retiredUnits := 0, retiredFused := 0 } }
  let ev : BitVec 5 := (s.wmk.events &&& 0x18#5) ||| (if s.pcie.dlUp then 1#5 else 0#5)
  let s := { s with wmk := { s.wmk with grantsEpoch := 0, events := ev } }
  let s := dropSessions (if reload then endDebug s else s)
  let closed : Bool := c.sec.mgmtEnable = 0 && s.pins.strapBoot = 0
  settleAll (refilter { s with mgmt := { s.mgmt with closed := closed, sessions := if closed then [] else s.mgmt.sessions } })

/-- A repeated scrub has failed (R389): the reload goes no further, and each slice it failed for raises source 1164 + slice. -/
def rejectReload (s : State) : State :=
  let failed := (s.slices.filter (fun p => p.2.state = 5 && p.2.scrubFailed)).map (·.1)
  let s := failed.foldl (fun s n => raise s (1164 + n) { slice := n, unit := n }) s
  { s with chart := { s.chart with state := 6, error := 0x18, errSection := 0xFF, errOffset := 0, session := none, verified := none, reload := false } }

/-- Steps 3 and 4 of a reload (R59): the settings are written, and sites and ports switched. -/
def reloadSettings (s : State) (c : Chart) : State :=
  let old := s.cfg
  let s := (c.regions.filter (fun r => !old.regions.contains r)).foldl loseRegion s
  let s := writeSettings { s with chart := { s.chart with prior := some old } } c
  let s := (List.range 8).foldl (fun s k => reloadSite s old c k) s
  groupPower ((List.range 128).foldl (fun s p => reloadPort s old c p) s) c

/-- One step of an apply at its end: the first apply ends; a reload waits for the scrubs it repeats, empties the array, writes its settings, switches
sites and ports, and ends when they have trained (DEDUCED, log 128). -/
def applyStep (s : State) (c : Chart) : State :=
  if !s.chart.reload then finishApply (writeSettings s c) c false
  else if s.chart.prior.isSome then (if reloadTraining s then s else finishApply s c true)
  else if s.slices.any (fun p => p.2.state = 5 && p.2.scrubsLeft ≠ 0) then s
  else if s.slices.any (fun p => p.2.state = 5 && p.2.scrubFailed) then rejectReload s
  else
    let s := if s.chart.sweeping then s else reloadArray { s with chart := { s.chart with sweeping := true } } c
    if sweepRuns s then settleAll s
    else
      let s := reloadSettings s c
      if reloadTraining s then settleAll s else finishApply s c true

/-- APPLY_DONE (R54, R55, R59). -/
def execApplyDone (s : State) : Host.Outcome State Fault Refusal :=
  .next (if s.quiet || s.chart.state ≠ 4 then s
  else match s.chart.verified with
    | none => s
    | some c => applyStep s c)

end Sys2Proof.Machine
end

