-- ==== Sys2Proof/Machine/Collective.lean ====
section
/-!
DEFINITION. The collective engines (R353–R359): the start of an instance, what it sends, what it does with the packets that come, the exact
reduction, and its end.
-/
namespace Sys2Proof.Machine

/-! ## An instance's data -/

def Coll.slice (c : Coll) : Nat := c.job
/-- The engine at work: TP11, regulator 67 (R353), under the queue's tag. -/
def Coll.at' (c : Coll) : Eng := { tag := c.queue, slice := c.job, port := 11, reg := 67, ini := 200 + c.eng }

/-- Elements reduced (R355). -/
def Coll.total (c : Coll) : Nat := if c.op = 1 then c.n * c.count else c.count
/-- The elements rank `r` owns: first and one past the last (R355). -/
def Coll.owned (c : Coll) (r : Nat) : Nat × Nat := (r * c.total / c.n, (r + 1) * c.total / c.n)

/-- Whether an output element is final. -/
def Coll.isOut (c : Coll) (k : Nat) : Bool := k < c.written || c.ahead.any (fun a => a.1 ≤ k && k < a.1 + a.2)

/-- Joins spans to the elements final in order; `fuel` bounds the spans. -/
def joinAhead : Nat → Nat → List (Nat × Nat) → Nat × List (Nat × Nat)
  | 0, w, a => (w, a)
  | fuel + 1, w, a =>
    match a.find? (fun p => p.1 ≤ w) with
    | some p => joinAhead fuel (max w (p.1 + p.2)) (a.erase p)
    | none => (w, a)

/-- Output elements `k` to `k + n - 1` are written. -/
def Coll.mark (c : Coll) (k n : Nat) : Coll :=
  let a := (k, n) :: c.ahead
  let (w, a) := joinAhead a.length c.written a
  { c with written := w, ahead := a }

/-- Where an output element lies. -/
def Coll.outAddr (c : Coll) (k : Nat) : Nat := (c.f 0x20 8 + k * c.width) % 2 ^ 64
def Coll.srcAddr (c : Coll) (e : Nat) : Nat := (c.f 0x18 8 + e * c.width) % 2 ^ 64
/-- Where a byte of a row lands (R358). -/
def Coll.rowAddr (c : Coll) (src k off : Nat) : Nat := (c.f 0x20 8 + (src * c.cap + k) * c.rowBytes + off) % 2 ^ 64

/-- Rows this member sends to a rank (R358). -/
def Coll.rowsTo (c : Coll) (r : Nat) : Nat := (c.dest.filter (· = r)).length

/-- The 32 bytes of COLL_CTRL (R338, R354): AXIS, OP, GROUP, CSEQ, OPID, DTYPE, REDOP, RM, COUNT, the root, the rows sent to the receiver
(DESIGN CHOICE, log 30). -/
def Coll.params (c : Coll) (rows : Nat) : List Byte :=
  leBytes 1 c.axis ++ leBytes 1 c.op ++ leBytes 2 c.group ++ leBytes 4 c.cseq ++ leBytes 4 c.opid ++ leBytes 1 (c.f 0x12 1) ++ leBytes 1 (c.f 0x13 1) ++
    leBytes 1 (c.f 0x14 1) ++ [0] ++ leBytes 8 c.count ++ leBytes 2 (if c.op = 3 then c.f 0x30 2 else 0) ++ leBytes 6 rows

/-- Whether two COLL_CTRL bodies name the same instance, and agree in every parameter (R354). -/
def sameInstance (c : Coll) (b : List Byte) : Bool := le b 0 1 = c.axis && le b 2 2 = c.group && le b 4 4 = c.cseq
def sameParams (c : Coll) (b : List Byte) : Bool :=
  le b 1 1 = c.op && sub b 12 3 = sub (c.params 0) 12 3 && le b 16 8 = c.count && le b 24 2 = le (c.params 0) 24 2

/-- COLL_BYTES (R363). -/
def countColl (s : State) (e rx tx : Nat) : State := let x := s.col e; setCol s e { x with rx := x.rx + rx, tx := x.tx + tx }

/-- Sends collective data to a member. -/
def collData (s : State) (c : Coll) (peer phase off : Nat) (bs : List Byte) : State :=
  countColl (sendNumbered s c.job peer 0x10 0 c.opid off phase c.job bs) c.eng 0 bs.length

/-- What one step of an instance did: changed it, could do nothing now, or ended it. -/
inductive CollStep where
  | more (s : State)
  | idle (s : State)
  deriving DecidableEq, Repr

/-- An engine's access failed: the collective ends with the status of R302, naming an output element if one failed. -/
def collFails (s : State) (c : Coll) (st reason : Nat) (fail : Option Nat) : State :=
  collEnd (endFailed s c.queue) c (recordStatus st) reason fail

/-! ## What an instance sends (R355, R358) -/

/-- ALL_TO_ALL: reads the dispatch table, in pieces of up to 4 KiB (R358). A rank at or above N, or ROW_BYTES out of range (log 30), is
BAD_GROUP. -/
def loadTable (s : State) (c : Coll) : CollStep :=
  let idx := c.f 0x30 8
  if c.rowBytes = 0 then
    match c.at'.readSpan 2 s idx 32 with
    | (s, .hold) => .idle s
    | (s, .fail st r) => .more (collFails s c st r none)
    | (s, .ok bs) =>
      let n := le bs 0 4
      if n = 0 || n % 4 ≠ 0 || n > 65536 then .more (collEnd s c 0x11 3 none)
      else .more (setColl s { c with rowBytes := n, cap := le bs 4 4, recv := le bs 8 8 })
  else
    let at' := c.dest.length
    let n := min 2048 (c.count - at')
    match c.at'.readSpan 33 s ((idx + 32 + 2 * at') % 2 ^ 64) (2 * n) with
    | (s, .hold) => .idle s
    | (s, .fail st r) => .more (collFails s c st r none)
    | (s, .ok bs) =>
      let ds := (List.range n).map (fun i => le bs (2 * i) 2)
      if ds.any (fun d => d ≠ 0xFFFF && d ≥ c.n) then .more (collEnd s c 0x11 3 none)
      else .more (setColl s { c with dest := c.dest ++ ds, rowsFrom := Tab.set 0 c.rowsFrom c.rank (({ c with dest := c.dest ++ ds } : Coll).rowsTo c.rank) })

/-- Whether the whole dispatch table has been read. -/
def Coll.tableRead (c : Coll) : Bool := c.op ≠ 4 || (c.rowBytes ≠ 0 && c.dest.length ≥ c.count)

/-- Sends the HEADER to the next member (R354). -/
def sendHeader (s : State) (c : Coll) : CollStep :=
  match c.members[c.sentHeads]? with
  | none => .idle s
  | some m =>
    if c.sentHeads = c.rank then .more (setColl s { c with sentHeads := c.sentHeads + 1 })
    else if !connRoom s c.job m then .idle s
    else .more (setColl (sendNumbered s c.job m 0x11 0 c.opid 0 1 c.job (c.params (c.rowsTo c.sentHeads))) { c with sentHeads := c.sentHeads + 1 })

/-- Elements this member sends to a rank: first and one past the last. In a reduction its own part stays (R355); a BROADCAST is sent by its
root alone. -/
def Coll.sends (c : Coll) (r : Nat) : Nat × Nat :=
  if c.op ≤ 1 then (if r = c.rank then (0, 0) else c.owned r)
  else if c.op = 2 then (0, c.count)
  else if c.rank = c.f 0x30 2 then (0, c.count) else (0, 0)

/-- Output index of an element sent to all (ALL_GATHER, BROADCAST). -/
def Coll.outOf (c : Coll) (e : Nat) : Nat := if c.op = 2 then c.rank * c.count + e else e

/-- Sends the next elements, or copies this member's own part. -/
def sendElems (s : State) (c : Coll) : CollStep :=
  match c.members[c.toRank]? with
  | none => .idle s
  | some m =>
    let (lo, hi) := c.sends c.toRank
    let e := lo + c.toPos
    if e ≥ hi then .more (setColl s { c with toRank := c.toRank + 1, toPos := 0 })
    else if c.toRank ≠ c.rank && !connRoom s c.job m then .idle s
    else
      let n := min (hi - e) (payloadMax s / c.width)
      match c.at'.readSpan 33 s (c.srcAddr e) (n * c.width) with
      | (s, .hold) => .idle s
      | (s, .fail st r) => .more (collFails s c st r none)
      | (s, .ok bs) =>
        let c' := { c with toPos := c.toPos + n }
        if c.op ≤ 1 then .more (setColl (collData s c m 0 e bs) c')
        else if c.toRank ≠ c.rank then .more (setColl (collData s c m 1 (c.outOf e) bs) c')
        else match c.at'.writeSpan 33 s (c.outAddr (c.outOf e)) bs with
          | (s, .hold) => .idle s
          | (s, .fail st r) => .more (collFails s c st r (some (c.outOf e)))
          | (s, .ok _) => .more (setColl s (c'.mark (c.outOf e) n))

/-- A row, or a part of it, is placed here: at its place if below CAP (R358). -/
def placeRow (s : State) (c : Coll) (src k off : Nat) (bs : List Byte) : State × Eres :=
  if k < c.cap then c.at'.writeSpan 33 s (c.rowAddr src k off) bs else (s, .ok [])

/-- A part of a row has come. -/
def Coll.gotRow (c : Coll) (src k n : Nat) : Coll :=
  { c with rowGot := Tab.modify 0 c.rowGot (rowKey src k) (· + n), overflow := c.overflow || k ≥ c.cap }

/-- Sends the next part of the next row (R358); `toRank` is the row, `toPos` the byte (DEDUCED, log 82). -/
def sendRow (s : State) (c : Coll) : CollStep :=
  match c.dest[c.toRank]? with
  | none => .idle s
  | some d =>
    if d = 0xFFFF || c.toPos ≥ c.rowBytes then .more (setColl s { c with toRank := c.toRank + 1, toPos := 0 })
    else
      let m := (c.members[d]?).getD 0
      if d ≠ c.rank && !connRoom s c.job m then .idle s
      else
        let n := min (c.rowBytes - c.toPos) (payloadMax s)
        let k := ((c.dest.take c.toRank).filter (· = d)).length
        match c.at'.readSpan 33 s ((c.f 0x18 8 + c.toRank * c.rowBytes + c.toPos) % 2 ^ 64) n with
        | (s, .hold) => .idle s
        | (s, .fail st r) => .more (collFails s c st r none)
        | (s, .ok bs) =>
          let c' := { c with toPos := c.toPos + n }
          if d ≠ c.rank then .more (setColl (collData s c m 2 (k * c.rowBytes + c.toPos) bs) c')
          else match placeRow s c c.rank k c.toPos bs with
            | (s, .hold) => .idle s
            | (s, .fail st r) => .more (collFails s c st r none)
            | (s, .ok _) => .more (setColl s (c'.gotRow c.rank k n))

/-- Whether everything this member sends is in the transport's hands. -/
def Coll.allSent (c : Coll) : Bool := c.sentHeads ≥ c.n && c.toRank ≥ (if c.op = 4 then c.dest.length else c.n)

/-! ## What comes (R354) -/

/-- Elements of a payload as words. -/
def wordsOf (w : Nat) (bs : List Byte) : List Nat := (List.range (bs.length / w)).map (fun i => le bs (w * i) w)

/-- Raw addends of a rank for elements this member owns. -/
def takeAddends (c : Coll) (src e : Nat) (bs : List Byte) : Coll :=
  let (lo, hi) := c.owned c.rank
  (wordsOf c.width bs).zipIdx.foldl (fun c p =>
    let i := e + p.2
    if lo ≤ i && i < hi then { c with addends := Tab.set none c.addends (i * 65536 + src) (some (BitVec.ofNat 32 p.1)) } else c) c

/-- The rows a payload of ALL_TO_ALL data spells, from an offset in the source's rows: row, offset, bytes. -/
def rowParts (rb : Nat) : Nat → Nat → List Byte → List (Nat × Nat × List Byte)
  | 0, _, _ => []
  | fuel + 1, off, bs =>
    match bs with
    | [] => []
    | _ => let n := min bs.length (rb - off % rb); (off / rb, off % rb, bs.take n) :: rowParts rb fuel (off + n) (bs.drop n)

/-- Places the rows of a payload. -/
def placeRows (src : Nat) : List (Nat × Nat × List Byte) → State → Coll → State × Coll × Eres
  | [], s, c => (s, c, .ok [])
  | (k, off, bs) :: r, s, c =>
    match placeRow s c src k off bs with
    | (s, .ok _) => placeRows src r s (c.gotRow src k bs.length)
    | (s, x) => (s, c, x)

/-- Takes up a packet of the instance from a member. -/
def takePacket (s : State) (c : Coll) (src : Nat) (e : EarlyPkt) : CollStep :=
  let drop := fun (s : State) => { s with nx := { s.nx with early := s.nx.early.erase e } }
  if e.opc = 0x11 then
    if e.aux % 16 = 2 then .more (collEnd (drop s) c 0x11 6 none)
    else if !sameParams c e.payload then .more (collEnd (drop s) c 0x11 2 none)
    else .more (setColl (drop s) { c with
      headers := src :: c.headers, peerOpid := Tab.set 0 c.peerOpid src (le e.payload 8 4)
      rowsFrom := if c.op = 4 then Tab.set 0 c.rowsFrom src (le e.payload 26 6) else c.rowsFrom })
  else
    let s := countColl s c.eng e.payload.length 0
    if c.op = 4 then
      if !c.tableRead then .idle s
      else match placeRows src (rowParts c.rowBytes 4097 e.addr e.payload) s c with
        | (s, c, .ok _) => .more (setColl (drop s) c)
        | (s, _, .hold) => .idle s
        | (s, c, .fail st r) => .more (collFails (drop s) c st r none)
    else if e.aux % 4 = 0 then .more (setColl (drop s) (takeAddends c src e.addr e.payload))
    else
      let n := e.payload.length / c.width
      if e.addr + n > c.outputs then .more (drop s)
      else match c.at'.writeSpan 33 s (c.outAddr e.addr) (e.payload.take (n * c.width)) with
        | (s, .hold) => .idle s
        | (s, .fail st r) => .more (collFails (drop s) c st r (some e.addr))
        | (s, .ok _) => .more (setColl (drop s) (c.mark e.addr n))

/-- The packets of the instance that have come, with their ranks: its HEADERs and ABANDONs, and the data of members whose HEADER has come. -/
def forInstance (c : Coll) (e : EarlyPkt) : Option Nat :=
  if e.job ≠ c.job then none
  else (List.range c.n).find? (fun r => c.members[r]? = some e.peer && r ≠ c.rank &&
    (if e.opc = 0x11 then sameInstance c e.payload && (e.aux % 16 = 2 || !c.headers.contains r) else c.headers.contains r && Tab.get 0 c.peerOpid r = e.opid))

/-- Takes up the next packet. -/
def takeNext (s : State) (c : Coll) : CollStep :=
  match s.nx.early.findSome? (fun e => (forInstance c e).map (fun r => (e, r))) with
  | some (e, r) => takePacket s c r e
  | none => .idle s

/-! ## The end (R358, R359) -/

/-- Whether every output of this member is written. -/
def Coll.allOut (c : Coll) : Bool :=
  if c.op = 4 then (List.range c.n).all (fun r => (r = c.rank || c.headers.contains r) &&
    (List.range (Tab.get 0 c.rowsFrom r)).all (fun k => Tab.get 0 c.rowGot (rowKey r k) ≥ c.rowBytes))
  else c.written ≥ c.outputs

/-- RECV_COUNTS and the end of an instance whose outputs are written and whose data is sent. -/
def finishColl (s : State) (c : Coll) : CollStep :=
  if !c.allSent || !c.allOut then .idle s
  else if c.op = 4 && c.counted < c.n then
    match c.at'.writeSpan 2 s ((c.recv + 4 * c.counted) % 2 ^ 64) (leBytes 4 (Tab.get 0 c.rowsFrom c.counted)) with
    | (s, .hold) => .idle s
    | (s, .fail st r) => .more (collFails s c st r none)
    | (s, .ok _) => .more (setColl s { c with counted := c.counted + 1 })
  else .more (if c.overflow then collEnd s c 0x11 5 none else collEnd s c 0 0 none)

/-- Tries a step, and the next one where it can do nothing. -/
def orElseStep (x : CollStep) (f : State → CollStep) : CollStep := match x with | .more s => .more s | .idle s => f s

/-- One step of an instance. -/
def collStep (s : State) (c : Coll) : CollStep :=
  orElseStep (takeNext s c) (fun s =>
    if !c.tableRead then loadTable s c
    else orElseStep (sendHeader s c) (fun s =>
      orElseStep (if c.sentHeads < c.n then .idle s else if c.op = 4 then sendRow s c else sendElems s c) (fun s => finishColl s c)))

/-- Runs an instance until it can do nothing more now; `fuel` bounds the steps of one command. -/
def runColl (q : Nat) : Nat → State → State
  | 0, s => s
  | fuel + 1, s =>
    match collOf s q with
    | none => s
    | some c => match collStep s c with
      | .more s => runColl q fuel s
      | .idle s => s

/-- Runs every instance of a job. -/
def runColls (s : State) (k : Nat) : State := (s.nx.colls.filter (fun c => c.job = k)).foldl (fun s c => runColl c.queue 4096 s) s

/-! ## The start (R353, R354) -/

/-- The module of each rank of the group (R354). -/
def groupOf (s : State) (axis : Nat) : List Nat :=
  let (sh, w, n) := axisField s axis
  let rest := s.cfg.moduleId - ((s.cfg.moduleId >>> sh) % 2 ^ w) <<< sh
  (List.range n).map (fun r => rest + r <<< sh)

/-- Key of a pair's sequence (R354). -/
def seqKey (job axis group : Nat) : Nat := (job * 4 + axis) * 65536 + group

/-- Starts an instance, or ends its command. While the engine runs another collective the command waits (DEDUCED, log 81). -/
def startColl (s : State) (q : Nat) (c : Cmd) : State :=
  let k := queueSlice s q
  let f := slotLe c.raw
  let e := f 0x15 1
  let axis := f 0x11 1
  let group := f 0x16 2
  let x := s.col e
  let ms := groupOf s axis
  let rank := rankOf s axis s.cfg.moduleId
  let pair := (e * 64 + k, axis * 65536 + group)
  if x.retired then endCmd s q c 7 0 none
  else if (s.job k).state ≠ 2 then endCmd s q c 0x11 1 none
  else if rank ≥ ms.length || ms.any (fun m => !(s.job k).members.any (fun j => j.module = m)) || (f 0x10 1 = 3 && f 0x30 2 ≥ ms.length) then endCmd s q c 0x11 3 none
  else if ms.any (fun m => m ≠ s.cfg.moduleId && (s.conn k m).state = 2) then endCmd s q c 5 0 none
  else if !s.nx.groups.contains pair && (s.nx.groups.filter (fun g => g.1 = pair.1)).length ≥ 64 then endCmd s q c 0x11 4 none
  else if x.running.isSome then s
  else
    let n := Tab.get 0 s.nx.cseq (seqKey k axis group)
    let inst : Coll := { queue := q, raw := c.raw, job := k, eng := e, axis := axis, group := group, cseq := n, opid := s.nx.nextOpid % 2 ^ 32,
                         rank := rank, members := ms }
    let s := setCol s e { x with running := some q, gated := false, lastQueue := q, lastOp := f 0x10 1, flags := 0 }
    let s := { s with nx := { s.nx with
      colls := s.nx.colls ++ [inst], nextOpid := s.nx.nextOpid + 1, cseq := Tab.set 0 s.nx.cseq (seqKey k axis group) ((n + 1) % 2 ^ 32)
      groups := if s.nx.groups.contains pair then s.nx.groups else pair :: s.nx.groups } }
    setCmd s q { c with stage := 1 }

/-- An aborted instance: ABANDON to every member, and the status of the abort (R305, R359). -/
def abandon (s : State) (c : Coll) : State :=
  let s := c.peers.foldl (fun s m => sendNumbered s c.job m 0x11 2 c.opid 0 2 c.job (c.params 0)) s
  collEnd (endFailed s c.queue) c (abortStatus s c.queue) 0 none

/-- A COLLECTIVE of an operation (R353): starts its slot, then its instance, and brings it as far as it can go now. -/
def collOp (op : Nat) (q : Nat) (s : State) : State :=
  if s.quiet then s
  else
    let s := tryStart s q (fun b => slotLe b 0 1 = 0x12 && slotLe b 0x10 1 = op)
    match (s.queue q).cmd with
    | none => s
    | some c =>
      if c.opc ≠ 0x12 || slotLe c.raw 0x10 1 ≠ op || c.result.isSome then s
      else settleAll (match collOf s q with
        | some i => if c.aborting then abandon s i else runColl q 4096 s
        | none => if c.aborting then endCmd s q c (abortStatus s q) 0 none else runColl q 4096 (startColl s q c))

/-- ALL_REDUCE (R353, R355). -/
def execAllReduce (q : Fin 4096) (s : State) : Host.Outcome State Fault Refusal := .next (collOp 0 q s)
/-- REDUCE_SCATTER (R353, R355). -/
def execReduceScatter (q : Fin 4096) (s : State) : Host.Outcome State Fault Refusal := .next (collOp 1 q s)
/-- ALL_GATHER (R353). -/
def execAllGather (q : Fin 4096) (s : State) : Host.Outcome State Fault Refusal := .next (collOp 2 q s)
/-- BROADCAST (R353). -/
def execBroadcast (q : Fin 4096) (s : State) : Host.Outcome State Fault Refusal := .next (collOp 3 q s)
/-- ALL_TO_ALL (R358). -/
def execAllToAll (q : Fin 4096) (s : State) : Host.Outcome State Fault Refusal := .next (collOp 4 q s)

/-! ## The reduction (R355–R357) -/

/-- Format of a DTYPE, for the floating-point ones. -/
def collFmt (dt : Nat) : Fmt := if dt = 1 then bf16 else if dt = 2 then fp16 else fp32

/-- Reduces N addends of an element and rounds once (R356): the bits, and the flags. -/
def reduceAll (dt redop : Nat) (rm : Rm) (vs : List Nat) : Nat × Nat :=
  let f := collFmt dt
  if dt = 5 || dt = 8 then
    let lt := fun (a b : Nat) => if dt = 8 then decide (a < b) else decide (toSigned 32 a < toSigned 32 b)
    (match redop, vs with
      | 0, vs => vs.foldl (fun a v => (a + v) % 2 ^ 32) 0
      | _, [] => 0
      | 1, v :: r => r.foldl (fun a v => if lt v a then v else a) v
      | _, v :: r => r.foldl (fun a v => if lt a v then v else a) v, 0)
  else match redop, vs with
    | 0, vs =>
      let a := vs.foldl (fun (a : Acc) v => a.add (f.decode v)) {}
      let r := f.round rm a.value
      (r.1, r.2 ||| a.flags)
    | _, [] => (0, 0)
    | 1, v :: r => (r.foldl f.fmin v, 0)
    | _, v :: r => (r.foldl f.fmax v, 0)

/-- Rounding of output element `e` (R357). -/
def Coll.rm (c : Coll) (e : Nat) : Rm :=
  if c.f 0x14 1 = 2 then .sr (srWord (BitVec.ofNat 64 (c.f 0x38 8)) (BitVec.ofNat 64 (c.f 0x40 8)) (BitVec.ofNat 64 (c.f 0x48 8 + e))) else .rne

/-- The addends of an element by rank, this member's own among them; none while one is missing. -/
def Coll.addendsOf (c : Coll) (e own : Nat) : Option (List Nat) :=
  (List.range c.n).mapM (fun r => if r = c.rank then some own else (Tab.get none c.addends (e * 65536 + r)).map (·.toNat))

/-- The owner reduces element `e`, writes it to its output, and in an ALL_REDUCE sends it to every member. -/
def reduceElem (s : State) (c : Coll) (e : Nat) : State :=
  let (lo, hi) := c.owned c.rank
  let out := if c.op = 1 then e - lo else e
  if c.op > 1 || e < lo || e ≥ hi || c.isOut out || (c.addendsOf e 0).isNone || c.sentHeads < c.n then s
  else if c.op = 0 && c.peers.any (fun m => !connRoom s c.job m) then s
  else match c.at'.readSpan 2 s (c.srcAddr e) c.width with
    | (s, .hold) => s
    | (s, .fail st r) => collFails s c st r none
    | (s, .ok bs) =>
      let (v, fl) := reduceAll (c.f 0x12 1) (c.f 0x13 1) (c.rm e) ((c.addendsOf e (leNat bs)).getD [])
      match c.at'.writeSpan 2 s (c.outAddr out) (leBytes c.width v) with
      | (s, .hold) => s
      | (s, .fail st r) => collFails s c st r (some out)
      | (s, .ok _) =>
        let s := if c.op = 0 then c.peers.foldl (fun s m => collData s c m 1 e (leBytes c.width v)) s else s
        setColl s ({ c with flags := c.flags ||| fl, addends := c.addends.filter (fun p => p.1 / 65536 ≠ e) }.mark out 1)

/-- COLL_REDUCE (R355, R356): the owner of an element has all its addends. -/
def execCollReduce (col : Fin 2) (element : Nat) (s : State) : Host.Outcome State Fault Refusal :=
  .next (if s.quiet then s
  else match (s.col col).running.bind (collOf s) with
    | none => s
    | some c => settleAll (runColl c.queue 4096 (reduceElem s c element)))

/-! ## Packets -/

/-- Whether a packet belongs to an instance that has ended here: its OPID is dead, or it is the HEADER of a CSEQ passed. -/
def deadPacket (s : State) (e : EarlyPkt) : Bool :=
  s.nx.dead.contains (e.job, e.peer, e.opid) ||
    (e.opc = 0x11 && le e.payload 4 4 < Tab.get 0 s.nx.cseq (seqKey e.job (le e.payload 0 1) (le e.payload 2 2)) &&
      !s.nx.colls.any (fun c => c.job = e.job && sameInstance c e.payload))

/-- A collective packet comes (R354), of an opcode and, for COLL_CTRL, a kind: it is kept until its instance takes it up. The HEADER of an
instance that has ended here makes its OPID dead. -/
def collPacket (opc kind : Nat) (p : NxPkt) (s : State) : State :=
  onPacket s p true (fun s k =>
    let e : EarlyPkt := { job := k, peer := p.src.toNat, opc := opc, opid := p.opid.toNat, addr := p.addr.toNat,
                          aux := if opc = 0x11 then kind else p.aux.toNat, payload := p.payload }
    if deadPacket s e then (if opc = 0x11 then { s with nx := { s.nx with dead := (k, e.peer, le e.payload 8 4) :: s.nx.dead } } else s)
    else runColls { s with nx := { s.nx with early := s.nx.early ++ [e] } } k)

/-- COLL_DATA (R354). -/
def execCollData (p : NxPkt) (s : State) : Host.Outcome State Fault Refusal := .next (collPacket 0x10 0 p s)
/-- COLL_CTRL HEADER (R354). -/
def execCollHeader (p : NxPkt) (s : State) : Host.Outcome State Fault Refusal := .next (collPacket 0x11 1 p s)
/-- COLL_CTRL ABANDON (R359). -/
def execCollAbandon (p : NxPkt) (s : State) : Host.Outcome State Fault Refusal := .next (collPacket 0x11 2 p s)

end Sys2Proof.Machine
end

