-- ==== Sys2Proof/Machine/Roce.lean ====
section
/-!
DEFINITION. RoCE v2 (R351, R352): the responder's operations, queue-pair states, and priority pause.
-/
namespace Sys2Proof.Machine

def State.qp (s : State) (n : Nat) : Qp := Tab.get {} s.nx.qps n
def setQp (s : State) (n : Nat) (q : Qp) : State := { s with nx := { s.nx with qps := Tab.set {} s.nx.qps n q } }

/-- A pair at work: no translation port of R179 is its own (port 12, log 35), regulator 64, the counters of fabric ingest. -/
def roceEng (n slice : Nat) : Eng := { tag := 0x50000 + n, slice := slice % 64, port := 12, reg := 64, ini := 204 }

/-- The base transport header of an answer, in network byte order (R9): opcode by kind, P_Key, the remote queue pair and PSN. The layout is InfiniBand's
(PRESUMED, log 150). -/
def bth (n kind psn : Nat) : List Byte :=
  beBytes 1 (if kind = 1 then 0x10 else if kind = 5 then 0x81 else 0x11) ++ beBytes 1 0 ++ beBytes 2 0xFFFF ++ beBytes 1 0 ++
    beBytes 3 (Config.roceDest n) ++ beBytes 1 0 ++ beBytes 3 psn

/-- Sends an answer, or holds it while its priority is paused (R351). Kinds: 0 ACK, 1 read response, 2 invalid-request NAK, 3
remote-access-error NAK, 4 PSN sequence NAK, 5 CNP. -/
def sendRoce (s : State) (port n kind psn : Nat) (data : List Byte) : State :=
  let q := s.port port
  let prio := (Config.rocePrio n).toNat
  if q.paused.getLsbD prio then setPort s port { q with held := q.held ++ [(prio, n, kind, psn, data)] }
  else emit (setPort s port { q with tx := (q.tx + 1) % 2 ^ 32 }) (.roce n kind psn data (bth n kind psn))

/-- What an operation of a pair gives: not yet, an access error, a bad request, or an answer of a kind with data. -/
inductive RoceRes where
  | hold (s : State)
  | access (s : State)
  | invalid (s : State)
  | ok (s : State) (kind : Nat) (data : List Byte)
  deriving DecidableEq, Repr

/-- A memory key for an access of a pair (R352): allowed if the tag is the key's, the slices agree, the right is held and the span lies
inside. The low byte of an R_Key is its tag, the next twelve bits its number (PRESUMED, log 36). -/
def keyAllows (s : State) (n slice rkey va len right : Nat) : State × Option Bool :=
  match ({ tag := 0x50000 + n } : Hub).read 2 s (bits s.nx.mkt 49 12 * 4096 + rkey / 256 % 4096 * 32) 32 with
  | (s, .hold) => (s, none)
  | (s, .fail _ _) => (s, some false)
  | (s, .ok bs) =>
    let f := fun i => Config.roceKey i (BitVec.ofNat 256 (leNat bs))
    (s, some (f 0 % 64 = slice % 64 && (f 1).testBit right && f 2 % 256 = rkey % 256 && f 3 ≤ va && va + len ≤ f 3 + f 4))

/-- The result of an engine's access. -/
def roceBy (s : State) (r : Eres) (k : List Byte → RoceRes) : RoceRes :=
  match r with
  | .hold => .hold s
  | .fail _ _ => .access s
  | .ok bs => k bs

/-- RDMA WRITE of a packet's payload (R352). -/
def rdmaWrite (s : State) (n slice : Nat) (r : RocePkt) (k : State → RoceRes) : RoceRes :=
  let va := r.va.toNat
  match keyAllows s n slice r.rkey.toNat va r.payload.length 1 with
  | (s, none) => .hold s
  | (s, some false) => .access s
  | (s, some true) =>
    let (s, g) := (roceEng n slice).writeSpan 34 s va r.payload
    roceBy s g (fun _ => k s)

/-- Consumes a receive entry and writes a completion entry (R352): with `data`, the bytes go to the entry's buffer. A message longer than the
buffer is a bad request (PRESUMED, log 36). -/
def roceReceive (s : State) (n : Nat) (ctx : BitVec 512) (imm : Nat) (data : Option (List Byte)) (len : Nat) : RoceRes :=
  let slice := Config.roceQp 0 ctx
  let depth := max 1 (Config.roceQp 4 ctx)
  let q := s.qp n
  let e := roceEng n slice
  let (s, g) := e.readSpan 2 s ((Config.roceQp 3 ctx + q.recvPos % depth * 16) % 2 ^ 64) 16
  roceBy s g (fun bs =>
    let entry := BitVec.ofNat 128 (leNat bs)
    if data.isSome && len > Config.roceRecv 1 entry then .invalid s
    else
      let (s, g) := match data with
        | some d => e.writeSpan 34 s (Config.roceRecv 0 entry % 2 ^ 64) d
        | none => (s, .ok [])
      roceBy s g (fun _ =>
        let (s, g) := e.writeSpan 2 s ((Config.roceQp 5 ctx + q.cplPos % depth * 32) % 2 ^ 64) (leBytes 32 (Config.roceCpl len imm 0).toNat)
        roceBy s g (fun _ => .ok (setQp s n { s.qp n with recvPos := (q.recvPos + 1) % depth, cplPos := (q.cplPos + 1) % depth }) 0 [])))

/-- RDMA READ (R352). -/
def rdmaRead (s : State) (n slice : Nat) (r : RocePkt) : RoceRes :=
  let va := r.va.toNat
  let len := r.len.toNat
  match keyAllows s n slice r.rkey.toNat va len 0 with
  | (s, none) => .hold s
  | (s, some false) => .access s
  | (s, some true) =>
    let (s, g) := (roceEng n slice).readSpan (len / 128 + 2) s va len
    roceBy s g (fun bs => .ok s 1 bs)

/-- An operation of a READY pair (R351, R352): its context is read, its PSN checked, its effect made, its answer sent; a failed access moves the
pair to ERROR. A packet that cannot be served now waits at its port, and its command comes again (log 37). -/
def roceOp (read : Bool) (r : RocePkt) (act : State → BitVec 512 → RoceRes) (s : State) : State :=
  let n := r.qp.toNat
  if !carries s r.port 1 || (s.qp n).state ≠ 1 then s
  else match ({ tag := 0x50000 + n } : Hub).read 2 s (bits s.nx.qpt 49 12 * 4096 + n * 64) 64 with
    | (s, .hold) => s
    | (s, .fail _ _) => setQp (sendRoce (countRx s r.port) r.port n 3 r.psn.toNat []) n { s.qp n with state := 2 }
    | (s, .ok bs) =>
      let ctx := BitVec.ofNat 512 (leNat bs)
      let want := (s.qp n).psn.getD (Config.roceQp 2 ctx % 2 ^ 24)
      let d := (r.psn.toNat + 2 ^ 24 - want) % 2 ^ 24
      let taken := fun (s : State) => let s := countRx s r.port; if r.ecn then sendRoce s r.port n 5 r.psn.toNat [] else s
      if Config.roceQp 1 ctx % 128 ≠ r.port.val then countRx s r.port
      else if d ≥ 2 ^ 23 && !read then sendRoce (taken s) r.port n 0 r.psn.toNat []
      else if 0 < d && d < 2 ^ 23 then sendRoce (taken s) r.port n 4 want []
      else match act s ctx with
        | .hold s => s
        | .access s => setQp (sendRoce (taken s) r.port n 3 r.psn.toNat []) n { s.qp n with state := 2 }
        | .invalid s => setQp (sendRoce (taken s) r.port n 2 r.psn.toNat []) n { s.qp n with state := 2 }
        | .ok s kind data =>
          let s := sendRoce (taken s) r.port n kind r.psn.toNat data
          settleAll (if d = 0 then setQp s n { s.qp n with psn := some ((want + 1) % 2 ^ 24) } else s)

/-- SEND (R351, R352). -/
def execRoceSend (r : RocePkt) (s : State) : Host.Outcome State Fault Refusal :=
  .next (roceOp false r (fun s ctx => roceReceive s r.qp.toNat ctx 0 (some r.payload) r.payload.length) s)
/-- SEND with immediate. -/
def execRoceSendImm (r : RocePkt) (s : State) : Host.Outcome State Fault Refusal :=
  .next (roceOp false r (fun s ctx => roceReceive s r.qp.toNat ctx r.imm.toNat (some r.payload) r.payload.length) s)
/-- RDMA WRITE. -/
def execRoceRdmaWrite (r : RocePkt) (s : State) : Host.Outcome State Fault Refusal :=
  .next (roceOp false r (fun s ctx => rdmaWrite s r.qp.toNat (Config.roceQp 0 ctx) r (fun s => .ok s 0 [])) s)
/-- RDMA WRITE with immediate. -/
def execRoceRdmaWriteImm (r : RocePkt) (s : State) : Host.Outcome State Fault Refusal :=
  .next (roceOp false r (fun s ctx => rdmaWrite s r.qp.toNat (Config.roceQp 0 ctx) r (fun s =>
    roceReceive s r.qp.toNat ctx r.imm.toNat none r.payload.length)) s)
/-- RDMA READ. -/
def execRoceRdmaRead (r : RocePkt) (s : State) : Host.Outcome State Fault Refusal :=
  .next (roceOp true r (fun s ctx => rdmaRead s r.qp.toNat (Config.roceQp 0 ctx) r) s)
/-- An operation that is not supported (R351). -/
def execRoceUnsupported (r : RocePkt) (s : State) : Host.Outcome State Fault Refusal :=
  .next (if !carries s r.port 1 || (s.qp r.qp.toNat).state ≠ 1 then s else sendRoce (countRx s r.port) r.port r.qp.toNat 2 r.psn.toNat [])

/-- A write of NX_ROCE_QPCTL (R352, R360): pair QPN moves to STATE; 3 names none. RESET forgets its positions. -/
def writeQpCtl (s : State) (n st : Nat) : State :=
  let s := { s with nx := { s.nx with qpSel := n } }
  if st = 0 then setQp s n {} else if st ≤ 2 then setQp s n { s.qp n with state := st } else s

/-- QP_STATE_WRITE (R352). -/
def execQpStateWrite (qpn : BitVec 12) (state : BitVec 2) (s : State) : Host.Outcome State Fault Refusal :=
  .next (if s.quiet then s else writeQpCtl s qpn.toNat state.toNat)

/-- PFC_FRAME (R351): a priority of a RoCE port is paused, or goes on with the answers held. -/
def execPfcFrame (port : Fin 128) (prio : Fin 8) (pause : Bool) (s : State) : Host.Outcome State Fault Refusal :=
  .next (if !carries s port 1 then s
  else
    let q := s.port port
    if pause then setPort s port { q with rx := (q.rx + 1) % 2 ^ 32, paused := q.paused ||| (1#8 <<< prio.val) }
    else
      let go := q.held.filter (fun h => h.1 = prio.val)
      let s := setPort s port { q with rx := (q.rx + 1) % 2 ^ 32, paused := q.paused &&& ~~~(1#8 <<< prio.val),
                                       held := q.held.filter (fun h => h.1 ≠ prio.val), tx := (q.tx + go.length) % 2 ^ 32 }
      go.foldl (fun s h => emit s (.roce h.2.1 h.2.2.1 h.2.2.2.1 h.2.2.2.2 (bth h.2.1 h.2.2.1 h.2.2.2.1))) s)

end Sys2Proof.Machine
end

