-- ==== Sys2Proof/Machine/Host.lean ====
section
/-!
DEFINITION. The PCIe host endpoint (R365–R381): BAR4 accesses, the host's answers, ATS, resets and host loss, retrains and link states.
-/
namespace Sys2Proof.Machine

/-- The endpoint's domain is powered: the module is out of POR_N and BOOT_SEL does not leave PD32 off (R425). -/
def endpointOn (s : State) : Bool := s.pins.porN && s.pins.strapBoot ≠ 2 && s.lc ≠ 4

/-- A link-state event in PCIE_EVENTS (R380). -/
def setPcieEvent (s : State) (i : Nat) : State := { s with pcie := { s.pcie with events := s.pcie.events ||| (1#5 <<< i) } }

/-! ## Configuration space (R366–R368) -/

/-- The type-0 header (R366, R368): offset, bytes and value of each field that the spec gives. The three BARs show their kinds, 64-bit and for BAR4
prefetchable, without the addresses that enumeration gives them (DESIGN CHOICE, log 47). -/
def configHeader (s : State) : List (Nat × Nat × Nat) :=
  [(0x00, 2, 0x1F9E), (0x02, 2, 0x5A01), (0x08, 1, s.fuses.stepping), (0x09, 3, 0x120000), (0x0E, 1, 0), (0x10, 4, 4), (0x18, 4, 4), (0x20, 4, 0xC),
   (0x2C, 2, 0x1F9E), (0x2E, 2, s.fuses.variant), (0x34, 1, 0x40), (0x3D, 1, 0)]

/-- The capabilities in order (R367): offset and ID. The first three are the list that the capabilities pointer heads, the others the extended one at
0x100. -/
def capabilities : List (Nat × Nat) :=
  [(0x40, 0x01), (0x50, 0x11), (0x60, 0x10), (0x100, 0x0001), (0x148, 0x0003), (0x158, 0x0015), (0x168, 0x001B), (0x170, 0x000F), (0x180, 0x001E),
   (0x190, 0x0025), (0x1A0, 0x0026), (0x1D0, 0x002A), (0x220, 0x0031), (0x240, 0x002E), (0x260, 0x0030)]

/-- Offset of the capability after the one at an offset, in its own list; 0 after the last. -/
def nextCap (off : Nat) : Nat :=
  (((capabilities.filter (fun p => off < p.1 && (decide (off < 0x100) == decide (p.1 < 0x100)))).head?).map (·.1)).getD 0

/-- The head of each capability, of which the spec gives ID and place: ID, and for an extended one version 1 (PRESUMED, log 47), and the next offset;
with them the serial number of 0x148, and the D-state and the MSI-X enable and mask that State holds. -/
def configCaps (s : State) : List (Nat × Nat × Nat) :=
  capabilities.flatMap (fun p => if p.1 < 0x100 then [(p.1, 1, p.2), (p.1 + 1, 1, nextCap p.1)] else [(p.1, 4, p.2 + 2 ^ 16 + nextCap p.1 * 2 ^ 20)]) ++
  [(0x44, 1, (if s.pcie.d3hot then 3 else 0) + 8), (0x52, 2, 2047 + flag s.pcie.funcMask 14 + flag s.pcie.msixEnable 15),
   (0x54, 4, 0x80000), (0x58, 4, 0x88000), (0x14C, 4, s.fuses.serial.toNat % 2 ^ 32), (0x150, 4, s.fuses.serial.toNat / 2 ^ 32)]

/-- A byte of configuration space; one in no field listed reads 0, as an endpoint without the feature gives it (R366). -/
def configByte (s : State) (off : Nat) : Nat :=
  match (configHeader s ++ configCaps s).find? (fun f => f.1 ≤ off && off < f.1 + f.2.1) with
  | some f => f.2.2 / 256 ^ (off - f.1) % 256
  | none => 0

/-- A configuration read of `n` bytes. -/
def configRead (s : State) (off n : Nat) : Nat := leNat ((List.range n).map (fun i => BitVec.ofNat 8 (configByte s (off + i))))

/-! ## Host loss (R375) -/

def toHost (o : ROp) : Bool := match o.target with | .host _ _ => true | _ => false

/-- Whether a Calender run targets host memory: one of its operands lies there, or a request of one of its engines does. -/
def runTargetsHost (s : State) (r : CalRun) : Bool :=
  (List.range (nOper r.table)).any (fun i =>
    (peekRegion s r.slice [] false (opBase r.table i)).any (fun g => g.interleave = 5 && g.target = 1)) ||
  s.rops.any (fun o => o.done.isNone && toHost o && 0x20000 ≤ o.tag && o.tag < 0x20008 && r.mask.getLsbD (o.tag - 0x20000))

/-- A queue's command in progress with a host-memory target ends HOST_LINK_LOST (R306). -/
def loseCommand (s : State) (q : Nat) (c : Cmd) : State :=
  if c.result.isSome then s
  else if c.opc = 0x11 then
    match s.runs.find? (fun r => r.queue = q) with
    | some r => if runTargetsHost s r then failRun s r 6 0 none else s
    | none => s
  else if !hostTarget s q c then s
  else if c.opc = 0x08 then migrateEnds s q c 6 0
  else match s.nx.colls.find? (fun k => k.queue = q) with
    | some k => collEnd (endFailed s q) k 6 0 none
    | none => endCmd (endFailed s q) q c 6 0 none

/-- The host-owned registers are at their reset values (R373, R380). -/
def resetHostOwned (s : State) : State :=
  { s with
    pcie := { s.pcie with l1IdleUs := 64, l0pIdleUs := 20, l0pMin := 2, bar4Win := 0, bar4Log2 := 36, hwin := [], hwinPasid := [], msix := [], pba := 0,
                          msixEnable := false, funcMask := false, d3hot := false, l1Enable := false, l12Enable := false, ideKeys := [], ats := [],
                          pmState := 0, retraining := false, retrainLong := false }
    mgmt := { s.mgmt with spdmDoe := 0 } }

/-- Host loss (R306, R375, R417): outstanding requests and commands with a host target end HOST_LINK_LOST, inbound writes accepted are
applied and reads forgotten, pending messages are lost, IDE keys erased, a Chart session of the host ends, source 1492 is raised. -/
def loseHost (s : State) : State :=
  let s := (s.queues.filter (fun p => p.2.cmd.isSome)).foldl (fun s p => match (s.queue p.1).cmd with
    | some c => loseCommand s p.1 c
    | none => s) s
  let s := { s with rops := (s.rops.map (fun o => if toHost o && o.done.isNone then { o with done := some 6 } else o)).filter
                              (fun o => o.keep || o.done.isNone),
                    txns := s.txns.filterMap (fun t => if t.src = .host then t.abandon else some t),
                    pcie := { s.pcie with pba := 0, losses := (s.pcie.losses + 1) % 2 ^ 64, ideKeys := [], retraining := false, retrainLong := false } }
  let s := endSession (setPcieEvent s 0) .host
  settleAll (raise s 1492 {})

/-- The data link goes down. -/
def linkDown (s : State) : State := { s with pcie := { s.pcie with dlUp := false, speed := 0, width := 0, pmState := 0 } }

/-- HOST_LOSS (R375): the data link goes down. -/
def execHostLoss (s : State) : Host.Outcome State Fault Refusal :=
  .next (if !s.pins.porN || !s.pcie.dlUp then s else resetHostOwned (loseHost (linkDown s)))

/-- A narrow PERST_N or a hot reset (R373): host loss, and host-owned state resets. -/
def narrowReset (s : State) (event : Nat) : State := resetHostOwned (loseHost (linkDown (setPcieEvent s event)))

/-- HOT_RESET (R373). -/
def execHotReset (s : State) : Host.Outcome State Fault Refusal :=
  .next (if !s.pins.porN || !s.pcie.dlUp then s else narrowReset s 2)

/-- FLR (R373, R381): host-owned state resets with the link up; accesses are refused until it completes. -/
def execFlr (s : State) : Host.Outcome State Fault Refusal :=
  .next (if s.quiet || !s.pcie.dlUp || s.pcie.flrBusy then s
  else
    let s := resetHostOwned (loseHost (setPcieEvent s 3))
    { s with pcie := { s.pcie with flrBusy := true } })

/-- What the host's enumeration enables, which no row of the table does (DESIGN CHOICE, log 47): MSI-X and the link's low-power states. -/
def enumerated (s : State) : State := { s with pcie := { s.pcie with msixEnable := true, l1Enable := true, l12Enable := true } }

/-- FLR_COMPLETE (R373). -/
def execFlrComplete (s : State) : Host.Outcome State Fault Refusal :=
  .next (if s.quiet || !s.pcie.flrBusy then s
  else
    let s := enumerated { s with pcie := { s.pcie with flrBusy := false } }
    settleAll s)

/-- LINK_UP (R365, R376, R414): the data link comes up at a speed and width of R365. -/
def execLinkUp (speed : Fin 7) (width : Fin 17) (s : State) : Host.Outcome State Fault Refusal :=
  .next (if !endpointOn s || s.pcie.dlUp || speed.val = 0 || !([1, 2, 4, 8, 16].contains width.val) then s
  else
    let s := { s with pcie := { s.pcie with dlUp := true, flrBusy := false, speed := speed, width := width, fullWidth := width, pmState := 0 },
                      wmk := { s.wmk with events := s.wmk.events ||| 1 } }
    if s.fcu.safe then s else settleAll (enumerated s))

/-! ## Retrains and link states (R376–R378) -/

/-- RETRAIN (R376). -/
def execRetrain (s : State) : Host.Outcome State Fault Refusal :=
  .next (if !s.pins.porN || !s.pcie.dlUp || s.pcie.retraining then s else { s with pcie := { s.pcie with retraining := true, retrainAt := s.time } })

/-- RETRAIN_LONG (R376): 2 ms after the retrain began. -/
def execRetrainLong (s : State) : Host.Outcome State Fault Refusal :=
  .next (if !s.pins.porN || !s.pcie.retraining || s.pcie.retrainLong then s
  else
    let s := advanceTo (s.pcie.retrainAt + 2000000) s
    setPcieEvent { s with pcie := { s.pcie with retrainLong := true } } 4)

/-- L0_RETURN (R376): what waited goes on. -/
def execL0Return (s : State) : Host.Outcome State Fault Refusal :=
  .next (if !s.pins.porN || !s.pcie.retraining then s
  else
    let s := { s with pcie := { s.pcie with retraining := false, retrainLong := false } }
    if s.fcu.safe then s else settleAll (sendPending s))

/-- L1_ENTRY (R377). -/
def execL1Entry (s : State) : Host.Outcome State Fault Refusal :=
  .next (if s.pins.porN && s.pcie.dlUp && s.pcie.l1Enable && s.pcie.pmState ≤ 1 && !s.pcie.retraining then
    { s with pcie := { s.pcie with pmState := 2 } } else s)

/-- L1_2_ENTRY (R377). -/
def execL12Entry (s : State) : Host.Outcome State Fault Refusal :=
  .next (if s.pins.porN && s.pcie.pmState = 2 && s.pcie.l12Enable then { s with pcie := { s.pcie with pmState := 3 } } else s)

/-- L1_EXIT (R377, R378): requests that waited proceed. -/
def execL1Exit (s : State) : Host.Outcome State Fault Refusal :=
  .next (if !s.pins.porN || s.pcie.pmState < 2 then s
  else
    let s := { s with pcie := { s.pcie with pmState := if s.pcie.width < s.pcie.fullWidth then 1 else 0 } }
    if s.fcu.safe then s else settleAll (sendPending s))

/-- L0P_ENTRY (R377): the width halves, but not below L0P_MIN. -/
def execL0pEntry (s : State) : Host.Outcome State Fault Refusal :=
  let w := s.pcie.width / 2
  .next (if s.pins.porN && s.pcie.dlUp && s.pcie.pmState ≤ 1 && w ≥ s.pcie.l0pMin && w ≥ 1 then
    { s with pcie := { s.pcie with width := w, pmState := 1 } } else s)

/-- L0P_EXIT (R377). -/
def execL0pExit (s : State) : Host.Outcome State Fault Refusal :=
  .next (if s.pins.porN && s.pcie.dlUp && s.pcie.pmState = 1 then { s with pcie := { s.pcie with width := s.pcie.fullWidth, pmState := 0 } } else s)

/-- D3HOT_ENTRY (R378): the host moves the function to D3hot, or back to D0 with all its state. -/
def execD3hotEntry (d3 : Bool) (s : State) : Host.Outcome State Fault Refusal :=
  .next (if s.quiet || !s.pcie.dlUp || s.pcie.flrBusy then s
  else
    let s := wakeLink { s with pcie := { s.pcie with d3hot := d3 } }
    if d3 then s else settleAll (sendPending s))

/-! ## BAR4 (R368–R370) -/

/-- A write of PCIE_BAR4_WIN: BASE aligned to the BAR4 size, its end within the scratch window (R369). -/
def writeBar4Win (s : State) (v : Word) : State :=
  let base := bits v 49 30 * 2 ^ 30
  if base % 2 ^ s.pcie.bar4Log2 ≠ 0 || base + 2 ^ s.pcie.bar4Log2 > remoteBase then s
  else { s with pcie := { s.pcie with bar4Win := keepFields v [(49, 30)] } }

/-- BAR4_WIN_WRITE (R369). -/
def execBar4WinWrite (path : Path) (v : BitVec 64) (s : State) : Host.Outcome State Fault Refusal :=
  .next (if s.quiet || !pathUp s path || path = .smbus || path = .testPort then s else writeBar4Win s v)

/-- Whether a span meets the image range of a Felt boot that is MEASURING or DELIVERING (R435). -/
def feltBusyRange (s : State) (pa n : Nat) : Bool :=
  s.glb.felt.any (fun p => (p.2.state = 1 || p.2.state = 2) && pa < p.2.image.toNat + p.2.len.toNat && p.2.image.toNat < pa + n)

/-- Physical address of a BAR4 offset. -/
def bar4Pa (s : State) (off : Nat) : Nat := bits s.pcie.bar4Win 49 30 * 2 ^ 30 + off

/-- A BAR4 request was served in the epoch (R414). -/
def bar4Served (s : State) : State := { s with wmk := { s.wmk with events := s.wmk.events ||| 2 } }

/-- BAR4_READ (R368–R370, R379): one completion for each line. Past the BAR there is no access. In the safe state, in D3hot and during an
FLR the answer is Unsupported Request. -/
def execBar4Read (off : BitVec 41) (len : BitVec 13) (s : State) : Host.Outcome State Fault Refusal :=
  let pa := bar4Pa s off.toNat
  .next (if !s.pins.porN || !s.pcie.dlUp || off.toNat + len.toNat > 2 ^ s.pcie.bar4Log2 then s
  else if s.fcu.safe || !s.hostUp then emit s (.unsupported pa)
  else
    let s := (spanParts 34 pa len.toNat 0).foldl (fun s (line, o, n, _) =>
      pushTxn s { id := 0, src := .host, opc := 4, addr := line, reg := 65, ini := 205, op0 := o, op1 := n }) (bar4Served (wakeLink s))
    settleAll s)

/-- BAR4_WRITE (R248, R368–R370, R435), `relaxed` that it has Relaxed Ordering: lines at no address are discarded and logged (source 1493); a Felt
image being measured or delivered is not written (DEDUCED, log 122). -/
def execBar4Write (off : BitVec 41) (data : List (BitVec 8)) (relaxed : Bool) (s : State) : Host.Outcome State Fault Refusal :=
  let pa := bar4Pa s off.toNat
  .next (if s.quiet || !s.hostUp || off.toNat + data.length > 2 ^ s.pcie.bar4Log2 then s
  else
    let s := (spanParts 6 pa data.length 0).foldl (fun s (line, o, n, at') =>
      if s.cfg.locate line = .unmapped then raise s 1493 { addr := line }
      else if feltBusyRange s (line + o) n then s
      else pushTxn s { id := 0, src := .host, opc := if n = 128 then 5 else 6, addr := line, reg := 65, ini := 205, relaxed := relaxed,
                       mask := BitVec.ofNat 128 ((2 ^ n - 1) <<< o),
                       data := lineOf (List.replicate o 0 ++ sub data at' n) }) (bar4Served (wakeLink s))
    settleAll s)

/-! ## The host's answers (R371, R372) -/

/-- An ATS translation arrives: the page is held, of at most 1,024, and the request goes out translated (PRESUMED, log 121). -/
def translated (s : State) (o : ROp) (page : Nat) : State :=
  match o.target with
  | .host bus pasid =>
    let window := ((s.cfg.regionOf o.addr).map (·.num)).getD 0
    let e : AtsEntry := { window := window, page := bus / 4096, translated := page }
    let s := { s with pcie := { s.pcie with ats := (e :: s.pcie.ats).take 1024 } }
    let b := page * 4096 + bus % 4096
    let o' : ROp := { o with kind := o.after, target := .host b pasid, done := if o.after = 1 then some 0 else none, sentAt := s.time }
    let s : State := { s with rops := (s.rops.map (fun (r : ROp) => if r.id = o.id then o' else r)).filter (fun r => r.keep || r.done.isNone) }
    sendTlps s o' b
  | _ => s

/-- The old value an atomic returns, sign-extended where ATTR asks. -/
def oldValue (o : ROp) (data : Line) : Line :=
  if o.kind = 2 then
    let v := data.toNat % 2 ^ (8 * o.len)
    BitVec.ofNat 1024 (if o.signed then wrapInt 64 (toSigned (8 * o.len) v) else v)
  else data

/-- HOST_COMPLETION (R372): an answer completes its request with the status of R372. While the link retrains none arrives. -/
def execHostCompletion (id : Nat) (ans : HostAns) (data : BitVec 1024) (s : State) : Host.Outcome State Fault Refusal :=
  .next (if s.quiet || !s.pcie.dlUp || s.pcie.retraining then s
  else match s.rops.find? (fun o => o.id = id && o.done.isNone && toHost o) with
    | none => s
    | some o =>
      let s := wakeLink s
      match ans with
      | .ok =>
        if o.kind = 4 then (if linkBusy s then s else settleAll (translated s o (bits data 63 12)))
        else settleAll (finishRop s id 0 (some (oldValue o data)))
      | .poisoned => settleAll (raise (finishRop s id 2 none) 1493 { addr := o.addr })
      | _ => settleAll (finishRop s id 1 none))

/-- COMPLETION_TIMEOUT (R367, R372, R381): 50 ms after the request went out. -/
def execCompletionTimeout (id : Nat) (s : State) : Host.Outcome State Fault Refusal :=
  .next (if s.quiet then s
  else match s.rops.find? (fun o => o.id = id && o.done.isNone && toHost o) with
    | none => s
    | some o =>
      let s := advanceTo (o.sentAt + 50000000) s
      settleAll (raise (finishRop s id 6 none) 1493 { addr := o.addr }))

/-- ATS_INVALIDATE (R371, R381): honoured once the accesses using the entry have completed. -/
def execAtsInvalidate (window : Fin 16) (page : BitVec 52) (s : State) : Host.Outcome State Fault Refusal :=
  let mine := fun (e : AtsEntry) => e.window = window.val && e.page = page.toNat
  let inUse := s.pcie.ats.any (fun e => mine e && s.rops.any (fun o => o.done.isNone && (match o.target with | .host b _ => b / 4096 = e.translated && o.kind ≠ 4 | _ => false)))
  .next (if s.quiet || inUse then s else { s with pcie := { s.pcie with ats := s.pcie.ats.filter (fun e => !mine e) } })

/-- KEY_PROG (R417): an IDE key delivered in a secure SPDM session over DOE; stream 0 the link's, 1 to 4 selective. -/
def execKeyProg (stream : Fin 5) (s : State) : Host.Outcome State Fault Refusal :=
  .next (if s.quiet || !s.hostUp || s.mgmt.spdmDoe = 0 then s
  else { s with pcie := { s.pcie with ideKeys := if s.pcie.ideKeys.contains stream.val then s.pcie.ideKeys else s.pcie.ideKeys ++ [stream.val] } })

end Sys2Proof.Machine
end

