-- ==== Sys2Proof/Machine/Bringup.lean ====
section
/-!
DEFINITION. Power and resets of the whole module (R32, R373, R374, R425–R429, R480), the root PLL (R23, R24), fuse sensing and logical
numbering (R431, R437), the steps of bring-up (R426–R430), Felt firmware (R435) and HEARTBEAT (R451).
-/
namespace Sys2Proof.Machine

/-! ## POR_N and VIN_MAIN (R32, R480) -/

/-- Contents of every stack are lost (R373, R480). -/
def loseStacks (s : State) : State := (List.range 8).foldl loseStack s

/-- POR_N falls: everything is at reset but the fuses, the memory the retained stacks hold, and the pins (R32, R480). A transition of fuses
being programmed is cut (R406) (DEDUCED, log 24). -/
def porReset (s : State) : State :=
  let s := cutProgramming s
  { State.reset with
    pending := s.pending, fuses := s.fuses, mem := s.mem, poison := s.poison, undef := s.undef, draws := s.draws, out := s.out
    pins := { perstN := s.pins.perstN, refclk := s.pins.refclk, vinMain := s.pins.vinMain, bootSel := s.pins.bootSel, perstScope := s.pins.perstScope } }

/-- POR_N_ASSERT (R32, R480). -/
def execPorNAssert (s : State) : Host.Outcome State Fault Refusal := .next (if s.pins.porN then porReset s else s)

/-- VIN_MAIN_LOSS (R480, R487): with POR_N high the hub acts as though it had fallen; the stacks lose their contents. -/
def execVinMainLoss (s : State) : Host.Outcome State Fault Refusal :=
  .next (if !s.pins.vinMain then s
  else
    let s := loseStacks (if s.pins.porN then porReset s else s)
    { s with pins := { s.pins with vinMain := false } })

/-! ## Sensing and numbering (R402, R431, R437) -/

/-- Fuse errors found at sensing: reserved site codes (R4, R437). -/
def fuseErrorCount (f : Fuses) : Nat := ((List.range 8).filter (fun k => !([0, 1, 2, 8, 9].contains (Tab.get 0 f.codes k)))).length

/-- The numbering of the Mould-class cores (R431), as site × 24 + local core. -/
def numbering (f : Fuses) : List Nat :=
  ((List.range 6).filter (fun k => [1, 8, 9].contains (Tab.get 0 f.codes k))).flatMap (fun k =>
    ((List.range (min 24 (Tab.get 0 f.units k))).filter (fun n => !(Tab.get 0 f.cRetired k).getLsbD n)).map (fun n => 24 * k + n))

/-- The fuses as sensing finds them: a destruction that was cut short goes on to its end (R408), a retirement entry marks its core (R434), a
demotion moves the module to bin 1 (R467). -/
def sensedFuses (f : Fuses) : Fuses :=
  let f := if f.decode 16 = 4 then destroyAll f else if f.decode 17 = 3 then destroyKeys f else f
  let f := { f with bin := if f.demoted then 1 else f.bin }
  f.retire.foldl (fun f c => { f with cRetired := Tab.modify 0 f.cRetired (c / 24) (fun m => m ||| (1#24 <<< (c % 24))) }) f

/-- Sensing: the fuse summary, the keys' states and the numbering (R402, R426 step 1). -/
def sense (s : State) : State :=
  let f := sensedFuses s.fuses
  { s with fuses := f, wmk := { s.wmk with lcBoot := f.decode 16, vaultBoot := f.decode 17 },
           glb := { s.glb with sensed := true, fuseErrors := fuseErrorCount f, logical := if f.decode 16 = 4 then [] else numbering f } }

/-- The domains on after step 1 (R408, R425, R426). -/
def bootDomains (s : State) : State :=
  (([0, 1] ++ (if s.lc = 4 then [] else [43] ++ (if s.pins.strapBoot = 2 then [] else [32])))).foldl (fun s d => setPd s d 2) s

/-- POR_N_RELEASE (R425, R426 step 1, R451, R478, R482): the straps are sampled, the boot domains come on and the fuses are sensed; that TIME
stays at zero meanwhile is the model's (log 50). -/
def execPorNRelease (bootSel : BitVec 2) (perstScope : Bool) (s : State) : Host.Outcome State Fault Refusal :=
  .next (if s.pins.porN then s
  else
    let s := { s with time := 0, pins := { s.pins with porN := true, vinMain := true, refclk := true, bootSel := bootSel, perstScope := perstScope,
                                                       strapBoot := bootSel, strapScope := perstScope } }
    let s := bootDomains (sense s)
    if s.lc = 4 then { s with mgmt := { s.mgmt with closed := true } }
    else
      let s := { s with pins := { s.pins with hbRunning := true } }
      if s.glb.fuseErrors = 0 then s else raise s 3 { unit := s.glb.fuseErrors })

/-! ## PERST_N (R373, R374, R429) -/

/-- A wide PERST_N: host loss; then everything is at reset but AON, the fuses and numbering, TIME, the Watermark unit and the management port.
A tripped domain stays tripped (R464); the fault collector keeps its counts since POR_N (R444, R457) (DEDUCED, log 22). A host loss whose reaction
is the safe state leaves the module in it (R449) (DEDUCED, log 123). -/
def wideReset (s₀ : State) : State :=
  let s := resetHostOwned (loseHost (linkDown (setPcieEvent s₀ 1)))
  if s.fcu.safe then s
  else
  let s := endDebug s
  let pd : Tab Pd := s.tel.pd.filterMap (fun p => if p.2.state = 4 then some (p.1, { p.2 with slack := 0, limitNs := 0 }) else none)
  let t : State := { State.reset with
    pending := s.pending, time := s₀.time, pins := s₀.pins, fuses := s₀.fuses, mem := s.mem, poison := s.poison, undef := s.undef
    draws := s.draws, out := s.out, pcie := s.pcie
    fcu := { drops := s.fcu.drops, seq := s.fcu.seq }
    wmk := { s.wmk with ms := [], grantsEpoch := 0, events := s.wmk.events ||| 16 }
    mgmt := { s.mgmt with closed := false }
    glb := { sensed := true, fuseErrors := s₀.glb.fuseErrors, logical := s₀.glb.logical }
    tel := { pd := pd, tripSensor := s.tel.tripSensor } }
  dropSessions (bootDomains (loseStacks t))

/-- PERST_N (R373, R483): narrow by default, wide where the strap sampled says so; in the safe state the host's own state alone resets, and a
SCRAPPED module has no endpoint (R408, R449) (DEDUCED, log 19). -/
def execPerstN (s : State) : Host.Outcome State Fault Refusal :=
  .next (if !s.pins.porN || s.lc = 4 then s
  else if s.pins.strapScope && !s.fcu.safe then wideReset s
  else if !endpointOn s then s
  else narrowReset s 1)

/-! ## Step status (R426, R428) -/

/-- A step command discarded with an ERROR: 1 ORDER, 2 BUSY. -/
def stepError (s : State) (e : Nat) : State := { s with glb := { s.glb with stepError := e } }

/-- Whether a step runs. TRAIN and LLA_INIT may run together. -/
def stepRunning (s : State) (n : Nat) : Bool := (n = 3 && s.glb.trainRun) || (n = 4 && s.glb.initRun) || (s.glb.step = n && s.glb.stepState = 1)

/-- Whether the step that a step depends on is DONE (R426). -/
def stepReady (s : State) (n : Nat) : Bool :=
  match n with
  | 1 => s.glb.chart
  | 2 => stepDone s 1
  | 3 => stepDone s 2
  | 4 => stepDone s 2
  | _ => stepDone s 3 && stepDone s 4

/-- Whether a step has reached DONE. -/
def stepEnded (s : State) (n : Nat) : Bool := if n = 5 then s.glb.open_ else stepDone s n

/-- A step is DONE; the status shows it where it was the last one written. -/
def endStep (s : State) (n : Nat) : State :=
  { s with glb := { s.glb with doneMask := if n ≤ 4 then s.glb.doneMask ||| (1#4 <<< (n - 1)) else s.glb.doneMask,
                               stepState := if s.glb.step = n then 2 else s.glb.stepState } }

/-- A step FAILED: source 2 (R428). -/
def failStep (s : State) (n e : Nat) : State := raise { s with glb := { s.glb with step := n, stepState := 3, stepError := e } } 2 { unit := n }

/-- A step command: discarded with BUSY or ORDER, or taken. After a CLOCKS or POWER_SITES that failed none is taken until a reset (R428), nor
on a SCRAPPED module, nor once a thermal trip has switched the domains off (R464) (DEDUCED, log 38). -/
def takeStep (s : State) (n : Nat) (go : State → State) : State :=
  let g := s.glb
  let shown := g.stepState = 1 && !((n = 3 && g.step = 4) || (n = 4 && g.step = 3))
  if s.quiet || s.lc = 4 || s.pins.thermTrip || (g.stepState = 3 && g.step ≤ 2) then s
  else if s.chart.state = 4 || shown || stepRunning s n then stepError s 2
  else if stepEnded s n || !stepReady s n then stepError s 1
  else go { s with glb := { g with step := n, stepState := 1, stepError := 0, stepAt := s.time } }

/-! ## Step 4, CLOCKS, and the root PLL (R23, R24) -/

def clocksDone (s : State) : State := endStep { s with glb := { s.glb with clocks := true } } 1

def stepClocks (s : State) : State :=
  takeStep s 1 (fun s =>
    if s.clk.rootLock then clocksDone s
    else if s.clk.rootEn then s
    else { s with clk := { s.clk with rootEn := true } })

/-- STEP_CLOCKS (R426). -/
def execStepClocks (s : State) : Host.Outcome State Fault Refusal := .next (stepClocks s)

/-- A write of ROOT_EN (R23). -/
def writeRootEn (s : State) (v : Bool) : State :=
  if v then (if s.clk.rootEn then s else { s with clk := { s.clk with rootEn := true } })
  else if s.clk.rootLock then s
  else { s with clk := { s.clk with rootEn := false } }

/-- ROOT_EN_WRITE (R23, R24). -/
def execRootEnWrite (v : Bool) (s : State) : Host.Outcome State Fault Refusal := .next (if s.quiet then s else writeRootEn s v)

/-- ROOT_LOCK (R22, R24, R426): the PLL locks, and the divided clocks run; a CLOCKS step that waits is DONE. -/
def execRootLock (s : State) : Host.Outcome State Fault Refusal :=
  .next (if s.quiet || !s.clk.rootEn || s.clk.rootLock || !s.pins.refclk then s
  else
    let s := { s with clk := { s.clk with rootLock := true } }
    settleAll (if s.glb.step = 1 && s.glb.stepState = 1 then clocksDone s else s))

/-- ROOT_LOCK_TIMEOUT (R24, R428): 200 µs without lock. -/
def execRootLockTimeout (s : State) : Host.Outcome State Fault Refusal :=
  .next (if s.quiet || s.clk.rootLock || s.glb.step ≠ 1 || s.glb.stepState ≠ 1 then s
  else failStep (advanceTo (s.glb.stepAt + 200000) s) 1 4)

/-- ROOT_LOCK_LOST (R23): LOCK_LOST, and the safe state (source 5). -/
def execRootLockLost (s : State) : Host.Outcome State Fault Refusal :=
  .next (if !s.pins.porN || !s.clk.rootLock then s
  else raise { s with clk := { s.clk with rootLock := false, lockLost := true } } 5 {})

/-! ## Step 5, POWER_SITES -/

/-- The domains the step switches on beside the sites' (R426): fields, engines, arrays, and groups with a configured port. -/
def stepDomains (s : State) : List Nat :=
  (List.range 48).filter (fun d => (2 ≤ d && d ≤ 7) || (33 ≤ d && d ≤ 42) || 44 ≤ d ||
    (24 ≤ d && d ≤ 31 && s.cfg.ports.any (fun p => p.port / 16 = d - 24)))

/-- Sites the Chart enables. -/
def enabledSites (s : State) : List Nat := (List.range 16).filter (fun k => s.cfg.enables k && occupiedSite s k)

def stepPowerSites (s : State) : State :=
  takeStep s 2 (fun s =>
    let s := (stepDomains s).foldl (fun s d => setPd s d 1) s
    ((enabledSites s).filter (fun k => (s.site k).state = 0)).foldl (fun s k => setPd (setSite s k { s.site k with pwrReq := true }) (8 + k) 1) s)

/-- STEP_POWER_SITES (R426). -/
def execStepPowerSites (s : State) : Host.Outcome State Fault Refusal := .next (stepPowerSites s)

/-- POWER_SITES_DONE (R426, R428): the domains are on and the enabled sites HELD, or 2 ms have passed. -/
def execPowerSitesDone (ok : Bool) (s : State) : Host.Outcome State Fault Refusal :=
  .next (if s.quiet || s.pins.thermTrip || s.glb.step ≠ 2 || s.glb.stepState ≠ 1 then s
  else if !ok then failStep (advanceTo (s.glb.stepAt + 2000000) s) 2 3
  else
    let s := (stepDomains s).foldl (fun s d => setPd s d 2) s
    let s := ((enabledSites s).filter (fun k => (s.site k).state ≤ 1)).foldl (fun s k =>
      setPd (setSite s k { s.site k with state := 2, pwrReq := true, clkFwd := true }) (8 + k) 2) s
    settleAll (endStep { s with glb := { s.glb with engines := true } } 2))

/-! ## Step 6, TRAIN -/

def stepTrain (s : State) : State :=
  takeStep s 3 (fun s =>
    let s := ((enabledSites s).filter (fun k => (s.site k).state = 2 && (s.site k).stopAt.isNone)).foldl (fun s k =>
      let x := s.site k
      setSite s k { x with state := 3, rstRel := true, train := true, dk := { snoopTimeout := x.dk.snoopTimeout } }) s
    let s := s.cfg.ports.foldl (fun s p => if (s.port p.port).state = 0 then setPort s p.port { s.port p.port with state := 1 } else s) s
    { s with glb := { s.glb with trainRun := true, trainAt := s.time } })

/-- STEP_TRAIN (R426). -/
def execStepTrain (s : State) : Host.Outcome State Fault Refusal := .next (stepTrain s)

/-- TRAIN_DONE (R426): no enabled site and no configured port still trains (DEDUCED, log 39). -/
def execTrainDone (s : State) : Host.Outcome State Fault Refusal :=
  .next (if s.quiet || !s.glb.trainRun || (enabledSites s).any (fun k => (s.site k).state = 3) || s.cfg.ports.any (fun p => (s.port p.port).state = 1) then s
  else endStep { s with glb := { s.glb with trainRun := false } } 3)

/-! ## Step 7, LLA_INIT, and step 9, OPEN -/

def stepLlaInit (s : State) : State := takeStep s 4 (fun s => { s with glb := { s.glb with initRun := true }, lla := { s.lla with state := 3 } })

/-- STEP_LLA_INIT (R168, R426): LLA_INIT_DONE ends it. -/
def execStepLlaInit (s : State) : Host.Outcome State Fault Refusal := .next (stepLlaInit s)

/-- Whether a site is ready (R40, R436). -/
def siteReady (s : State) (k : Nat) : Bool :=
  (s.site k).state = 4 || ((s.site k).state = 5 && (match s.cfg.sites[k]? with | some r => r.degradedOk = 1 | none => false))

/-- The numbered cores of a site that did not become ready at OPEN are holes for the epoch (R430, R432), not retirements of it (DEDUCED, log 162). -/
def holeCores (s : State) (k : Nat) : State := (numberedCores s k).foldl (fun s c => setCore s c { s.core c with st := .retired }) s

/-- OPEN (R430): sites that did not become ready are left FAILED. -/
def openStep (s : State) : State :=
  let g := s.glb
  if !(g.chart && g.clocks && g.lla && g.dir && g.engines) then failStep s 5 5
  else
    let bad := (enabledSites s).filter (fun k => !siteReady s k && (s.site k).state ≠ 6 && (s.site k).state ≠ 7)
    let s := bad.foldl (fun s k => failSite s k false) s
    let s := ((enabledSites s).filter (fun k => (s.site k).state = 6)).foldl holeCores s
    settleAll (endStep { s with glb := { s.glb with open_ := true }, tel := { s.tel with surveyOn := true } } 5)

def stepOpen (s : State) : State := takeStep s 5 openStep

/-- STEP_OPEN (R426, R430). -/
def execStepOpen (s : State) : Host.Outcome State Fault Refusal := .next (stepOpen s)

/-- A write of GLB_STEP_CTL (R436). -/
def writeStepCtl (s : State) (n : Nat) : State :=
  match n with
  | 1 => stepClocks s
  | 2 => stepPowerSites s
  | 3 => stepTrain s
  | 4 => stepLlaInit s
  | 5 => stepOpen s
  | _ => s

/-! ## Felt firmware (R435) -/

def felt (s : State) (h : Nat) : Felt := Tab.get {} s.glb.felt h
def setFelt (s : State) (h : Nat) (f : Felt) : State := { s with glb := { s.glb with felt := Tab.set {} s.glb.felt h f } }

/-- STATE FAILED with an ERROR: 1 SITE, 2 DIR, 3 RANGE, 4 POISON, 5 NO_ACK. -/
def failFelt (s : State) (h e : Nat) : State := setFelt s h { felt s h with state := 4, error := e }

/-- Whether the image lies in one region of HBM that the site may read, with a length of 1 line to 64 MiB. -/
def imageOk (s : State) (h : Nat) : Bool :=
  let f := felt s h
  let (a, n) := (f.image.toNat, f.len.toNat)
  0 < n && n ≤ 67108864 && n % 128 = 0 &&
    (match s.cfg.regionOf a with | some r => r.interleave ≠ 5 && r.hostAccess.testBit (2 * h) && a + n ≤ r.base + r.size | none => false)

/-- A GO (R435): taken in IDLE and FAILED (DEDUCED, log 48). -/
def feltGo (s : State) (h : Nat) : State :=
  let f := felt s h
  if f.state ≠ 0 && f.state ≠ 4 then s
  else if !siteUp s (6 + h) then failFelt s h 1
  else if !s.glb.dir then failFelt s h 2
  else if !imageOk s h then failFelt s h 3
  else setFelt s h { f with state := 1, error := 0 }

/-- FELT_GO (R435). -/
def execFeltGo (h : Fin 2) (s : State) : Host.Outcome State Fault Refusal := .next (if s.quiet then s else feltGo s h)

/-- FELT_MEASURE_DONE (R435, R438): slot MSh takes the image, and the four sideband writes go out. A line that cannot be read for another reason
than poison ends it as RANGE (DEDUCED, log 51). -/
def execFeltMeasureDone (h : Fin 2) (s : State) : Host.Outcome State Fault Refusal :=
  let f := felt s h
  let tag := 0x66002 + h.val
  .next (if s.quiet || f.state ≠ 1 then s
  else if !siteUp s (6 + h) then failFelt s h 1
  else match ({ tag := tag } : Hub).read (f.len.toNat / 128 + 1) s f.image.toNat f.len.toNat with
    | (s, .hold) => s
    | (s, .fail 2 _) => failFelt (releaseTag s tag) h 4
    | (s, .fail _ _) => failFelt (releaseTag s tag) h 3
    | (s, .ok bs) =>
      let s := setFelt (extendSlot s h bs) h { f with state := 2 }
      [(0, f.image), (8, f.len), (16, f.entry), (24, 1)].foldl (fun s (p : Nat × Word) => emit s (.sideband (6 + h) p.1 p.2)) s)

/-- FELT_DELIVER_DONE (R435). -/
def execFeltDeliverDone (h : Fin 2) (s : State) : Host.Outcome State Fault Refusal :=
  let f := felt s h
  .next (if s.quiet || f.state ≠ 2 then s
  else if !siteUp s (6 + h) then failFelt s h 1
  else
    let s := setFelt s h { f with state := 3 }
    { s with glb := { s.glb with feltReady := s.glb.feltReady ||| (1#2 <<< h.val) } })

/-- FELT_NO_ACK (R435): a sideband write not completed within 1 ms (DEDUCED, log 49). -/
def execFeltNoAck (h : Fin 2) (s : State) : Host.Outcome State Fault Refusal :=
  .next (if s.quiet || (felt s h).state ≠ 2 then s else failFelt s h 5)

/-! ## HEARTBEAT (R451) -/

/-- HEARTBEAT_EDGE (R451): every 500 µs, driven from REFCLK (DEDUCED, log 133). -/
def execHeartbeatEdge (s : State) : Host.Outcome State Fault Refusal :=
  .next (if s.pins.porN && s.pins.hbRunning && s.pins.refclk then { s with pins := { s.pins with heartbeat := !s.pins.heartbeat } } else s)

end Sys2Proof.Machine
end

