-- ==== Sys2Proof/Machine/Power.lean ====
section
/-!
DEFINITION. Retirement of units (R282, R434), power gating (R461), base sensors (R462–R464), ageing (R465–R467) and Survey (R468–R472); and the
fault collector's self-check, squelch and queue base (R445, R448, R449) and lost PLLs (R440).
-/
namespace Sys2Proof.Machine

/-! ## Retirement (R282, R325, R359, R434) -/

/-- A retirement counted in the epoch (R436). -/
def countUnit (s : State) : State := { s with glb := { s.glb with retiredUnits := s.glb.retiredUnits + 1 } }

/-- A command on a copy engine that is retired ends UNIT_RETIRED (R282): a LAUNCH halts its cores, a CAL_RUN stops at its chunk boundaries, a MIGRATE
names the page it stands at (R200). -/
def retireCommand (s : State) (q : Nat) (c : Cmd) : State :=
  if c.result.isSome then s
  else if c.opc = 0x08 then migrateEnds s q c 7 0
  else match s.runs.find? (fun r => r.queue = q), s.nx.colls.find? (fun k => k.queue = q) with
    | some r, _ => failRun s r 7 0 none
    | none, some k => collEnd (endFailed s q) k 7 0 none
    | none, none => endCmd (endFailed (if c.opc = 0x10 && c.stage > 0 then haltLaunched s q else s) q) q c 7 0 none

/-- Retires copy engine `e`: its queues pass on, its commands end. -/
def retireCe (s : State) (e : Nat) : State :=
  let s := countUnit (setCe s e { s.ce e with retired := true, gated := false })
  let s := s.queues.foldl (fun s p => match (s.queue p.1).cmd with
    | some c => if c.eng = e then retireCommand s p.1 c else s
    | none => s) s
  raise s (1024 + e) { unit := e }

/-- Retires Calender engine `k`: the run that holds it fails, and its chunk writes wholly or not at all (R325, R328). -/
def retireCal (s : State) (k : Nat) : State :=
  let x := s.cal k
  let s := countUnit (setCal s k { x with retired := true, gated := false })
  let s := match (if x.running then runOn s k else none) with
    | none => s
    | some r =>
      let s := failRun s r 7 0 none
      (match runOn s k with
        | none => s
        | some r =>
          (match Tab.get none r.cur k with
            | some ch => if ch.phase < 2 then setRun (endWork s (calTag k)) { r with cur := Tab.set none r.cur k none } else s
            | none => s))
  raise s (1072 + k) { unit := 48 + k }

/-- Retires collective engine `c`. -/
def retireCol (s : State) (c : Nat) : State :=
  let s := countUnit (setCol s c { s.col c with retired := true, gated := false })
  let s := match s.nx.colls.find? (fun k => k.eng = c) with
    | some k => collEnd (endFailed s k.queue) k 7 0 none
    | none => s
  raise s (1080 + c) { unit := 56 + c }

/-- Whether an engine, walker or TLB slice is retired. -/
def engineRetired (s : State) : EngineUnit → Bool
  | .ce e => (s.ce e).retired
  | .cal k => (s.cal k).retired
  | .col c => (s.col c).retired
  | .walker w => s.tel.walkersOut.getLsbD w
  | .tlb t => s.tel.tlbsOut.getLsbD t

/-- Retires an engine, walker or TLB slice in place (R434, R440) (DEDUCED, log 58). -/
def retireEngine (s : State) (u : EngineUnit) : State :=
  if engineRetired s u then s
  else settleAll (match u with
    | .ce e => retireCe s e
    | .cal k => retireCal s k
    | .col c => retireCol s c
    | .walker w => raise (countUnit { s with tel := { s.tel with walkersOut := s.tel.walkersOut ||| (1#64 <<< w.val) } }) (1082 + w) { unit := w }
    | .tlb t => raise (countUnit { s with tel := { s.tel with tlbsOut := s.tel.tlbsOut ||| (1#16 <<< t.val) } }) (1146 + t) { unit := t })

/-- ENGINE_RETIRE (R282, R434, R440). -/
def execEngineRetire (u : EngineUnit) (s : State) : Host.Outcome State Fault Refusal := .next (if s.quiet then s else retireEngine s u)

/-- Retires a core after a failure found in service (R434): a standard core's retirement is fused. -/
def retireInService (s : State) (c : Nat) : State := settleAll (siteRetired (retireCore s c (!customerDie s (c / 24))) (c / 24))

/-- CORE_RETIRE (R434) (DEDUCED, log 59). -/
def execCoreRetire (core : Fin 144) (s : State) : Host.Outcome State Fault Refusal :=
  .next (match coreOf s core with
  | none => s
  | some c => if s.quiet || !s.glb.open_ then s else retireInService s c)

/-! ## Power gating (R461) -/

/-- The register files of a core hold undefined values (R64): `gen` names the event (DEDUCED, log 57). -/
def Core.lostRegs (x : Core) (gen : Nat) : Core :=
  { x with
    x := ((List.range 31).map (fun i => (i + 1, Config.freeBits 64 gen (i + 1)))).filter (fun p => p.2 ≠ 0)
    v := ((List.range 64).map (fun i => (i, Config.freeBits 8192 gen (0x100 + i)))).filter (fun p => p.2 ≠ 0)
    p := ((List.range 8).map (fun i => (i, Config.freeBits 256 gen (0x200 + i)))).filter (fun p => p.2 ≠ 0)
    w := ((List.range 65536).map (fun i => (i, Config.freeBits 8 gen (0x10000 + i)))).filter (fun p => p.2 ≠ 0)
    ws := ((List.range 16384).map (fun i => (i, Config.freeBits 8 gen (0x20000 + i)))).filter (fun p => p.2 ≠ 0)
    acc := ((List.range 65536).map (fun i => (i, Config.freeBits 32 gen (0x30000 + i)))).filter (fun p => p.2 ≠ 0) }

/-- A HALTED core of the module's own, not under test: one that Survey may take and that may gate. -/
def coreIdle (s : State) (c : Nat) : Bool :=
  (s.core c).st = .halted && !(s.core c).survey && siteUp s (c / 24) && siteCode s (c / 24) = 1

/-- POWER_GATE (R461, R312): a block idle for 50 µs. A core keeps its memories and loses its registers; a walker and a lane keep all that
state holds of them (DEDUCED, log 56). -/
def execPowerGate (u : GateUnit) (s : State) : Host.Outcome State Fault Refusal :=
  .next (if s.quiet then s
  else match u with
    | .core n =>
      (match coreOf s n with
        | none => s
        | some c =>
          if coreIdle s c && !(s.core c).gated then
            let s' := setCore s c { (s.core c).lostRegs s.draws with gated := true }
            { s' with draws := s.draws + 1 }
          else s)
    | .ce e => if ceActive s e = 0 && !(s.ce e).retired then setCe s e { s.ce e with gated := true } else s
    | .cal k => if !(s.cal k).running && !(s.cal k).retired then setCal s k { s.cal k with gated := true } else s
    | .col c => if (s.col c).running.isNone && !(s.col c).retired then setCol s c { s.col c with gated := true } else s
    | .walker _ => s
    | .lane _ => s)

/-! ## Base sensors (R462–R464) -/

/-- BASE_SENSOR_READ (R463, R464): the sensor's state follows its reading; a chiplet's limit halves as the first sensor under it turns HOT; 125 °C
trips. -/
def execBaseSensorRead (sensor : Fin 96) (temp : BitVec 8) (s : State) : Host.Outcome State Fault Refusal :=
  let n := sensor.val
  let k := n / 4
  let x : Sensor := Tab.get {} s.tel.therm n
  let st := thermState x.state temp.toNat [95, 105, 125]
  .next (if !s.pins.porN || s.lc = 4 then s
  else
    let before := ivrLimit s (8 + k)
    let s := { s with tel := { s.tel with therm := Tab.set {} s.tel.therm n { state := st, temp := temp.toNat } } }
    let after := ivrLimit s (8 + k)
    let s := if n < 32 && after ≠ before && st ≥ 2 && siteUp s k && !s.fcu.safe then settleAll (post s k { cls := 5, opc := 2, addr := after }) else s
    if st = 3 then thermTrip s n else s)

/-! ## Ageing (R465–R467) -/

/-- Domains with a voltage range (R25, R466). -/
def ageing (d : Nat) : Bool := (2 ≤ d && d ≤ 15) || (33 ≤ d && d ≤ 42) || (44 ≤ d && d ≤ 47)

/-- Whether a domain is measured: on, and with monitors, which customer dies have not (R465, R466). -/
def measured (s : State) (d : Nat) : Bool :=
  let p : Pd := Tab.get {} s.tel.pd d
  ageing d && (p.state = 2 || p.state = 3) && !(8 ≤ d && d ≤ 15 && customerDie s (d - 8))

/-- The margin, in steps, and the target of a domain. -/
def marginOf (s : State) (d : Nat) : Nat := Tab.get 0 s.fuses.margin d
def targetOf (s : State) (d : Nat) : Nat := Tab.get 0 s.fuses.target d

/-- A domain exhausted (R467): a demotion, or the end of its margin. -/
def exhaust (s : State) (d : Nat) : State :=
  let s := { s with tel := { s.tel with pd := Tab.modify {} s.tel.pd d (fun p => { p with exhausted := true }) } }
  if ((8 ≤ d && d ≤ 15) || (33 ≤ d && d ≤ 42)) && s.fuses.bin = 0 then { s with fuses := { s.fuses with demoted := true } }
  else { s with tel := { s.tel with endOfMargin := true } }

/-- One domain's worst slack: its margin rises by T − S, at most 4, never above 16 (R466). -/
def measureDomain (s : State) (d slack : Nat) : State :=
  let t := targetOf s d
  let m := marginOf s d
  let s := { s with tel := { s.tel with pd := Tab.modify {} s.tel.pd d (fun p => { p with slack := slack }) } }
  if slack ≥ t then s
  else if m ≥ 16 then exhaust s d
  else { s with fuses := { s.fuses with margin := Tab.set 0 s.fuses.margin d (min 16 (m + min 4 (t - slack))) } }

/-- AGEING_MEASUREMENT (R465–R467): at OPEN and every 24 hours, the worst slack of each domain measured. -/
def execAgeingMeasurement (slacks : List (Fin 48 × BitVec 8)) (s : State) : Host.Outcome State Fault Refusal :=
  .next (if s.quiet || !s.glb.open_ then s
  else
    let s := (slacks.filter (fun p => measured s p.1)).foldl (fun s p => measureDomain s p.1 p.2.toNat) s
    { s with tel := { s.tel with ageCount := (s.tel.ageCount + 1) % 65536, ageLast := s.time } })

/-! ## Survey (R468–R472) -/

/-- A unit under test, by KIND and number: a bank is core × 32 + bank, an engine its place in class 16, a TLB slice has no test, a way is slice ×
16 + way, a link net × 192 + router (DESIGN CHOICE, log 61). -/
def surveyUnit : SurveyKind → SurveyUnit
  | .core c => { kind := 1, unit := c }
  | .bank c b => { kind := 2, unit := c * 32 + b.toNat }
  | .engine (.ce e) => { kind := 3, unit := e }
  | .engine (.cal k) => { kind := 3, unit := 48 + k }
  | .engine (.col c) => { kind := 3, unit := 56 + c }
  | .engine (.walker w) => { kind := 4, unit := w }
  | .engine (.tlb t) => { kind := 7, unit := t }
  | .way j w => { kind := 5, unit := j * 16 + w }
  | .link n r => { kind := 6, unit := n * 192 + r }

/-- UNIT of TEL_SURVEY_FAIL: a bank names its core, a link its router (R440, R471). -/
def failUnit (u : SurveyUnit) : Nat := if u.kind = 2 then u.unit / 32 else if u.kind = 6 then u.unit % 192 else u.unit

/-- Everything a round covers (R468): cores of standard sites that are in service and their banks, engines and walkers in service, CACHE ways in
allocation, links. -/
def surveyAll (s : State) : List SurveyUnit :=
  let cores := (List.range 144).filter (fun n => match coreOf s n with | some c => siteCode s (c / 24) = 1 && (s.core c).st ≠ .retired && siteUp s (c / 24) | none => false)
  cores.map (fun n => { kind := 1, unit := n }) ++
  cores.flatMap (fun n => (List.range 32).map (fun b => { kind := 2, unit := n * 32 + b })) ++
  ((List.range 48).filter (fun e => !(s.ce e).retired)).map (fun e => { kind := 3, unit := e }) ++
  ((List.range 8).filter (fun k => !(s.cal k).retired)).map (fun k => { kind := 3, unit := 48 + k }) ++
  ((List.range 2).filter (fun c => !(s.col c).retired)).map (fun c => { kind := 3, unit := 56 + c }) ++
  ((List.range 64).filter (fun w => !s.tel.walkersOut.getLsbD w)).map (fun w => { kind := 4, unit := w }) ++
  (List.range 32).flatMap (fun j => (cacheWays s j).map (fun w => { kind := 5, unit := j * 16 + w })) ++
  (List.range 1344).map (fun i => { kind := 6, unit := i })

/-- Survey runs: after OPEN, not in a reload, not in the safe state. -/
def surveyRuns (s : State) : Bool := s.glb.open_ && s.tel.surveyOn && s.chart.state ≠ 4 && !s.quiet

def underTest (s : State) (u : SurveyUnit) : Bool := s.tel.testing.any (fun p => p.1 = u)
def stopTest (s : State) (u : SurveyUnit) : State := { s with tel := { s.tel with testing := s.tel.testing.filter (fun p => p.1 ≠ u) } }
def putTest (s : State) (u : SurveyUnit) : State := { stopTest s u with tel := { s.tel with testing := s.tel.testing.filter (fun p => p.1 ≠ u) ++ [(u, 0)] } }

/-- Whether an engine is idle. -/
def engineIdle (s : State) : EngineUnit → Bool
  | .ce e => ceActive s e = 0
  | .cal k => !(s.cal k).running
  | .col c => (s.col c).running.isNone
  | .walker _ => true
  | .tlb _ => false

/-- A CACHE way is cleaned and emptied for Survey, its write-backs charged to 68 and counted in set 207 (R264, R277, R468): the state, and whether every
line could go. -/
def emptyForSurvey (s : State) (j w : Nat) : State × Bool :=
  let (t, ok) := sweepAll s j 68 true (fun p => p.2.2.1 = w)
  ((List.range ((t.home j).writebacks - (s.home j).writebacks)).foldl (fun s _ => countRequest s 207 none) t, ok)

/-- A test starts (R468): a core's registers are overwritten; a CACHE way is cleaned and leaves allocation, one of a home slice at a time. An engine past
its deadline pauses for it at its next boundary (R469). -/
def startTest (s : State) (k : SurveyKind) : State :=
  let u := surveyUnit k
  match k with
  | .core n =>
    (match coreOf s n with
      | none => s
      | some c =>
        if !coreIdle s c then s
        else
          let s' := putTest (setCore s c { (s.core c).lostRegs s.draws with survey := true }) u
          { s' with draws := s.draws + 1 })
  | .bank n _ => (match coreOf s n with | none => s | some c => if siteUp s (c / 24) && siteCode s (c / 24) = 1 && (s.core c).st ≠ .retired then putTest s u else s)
  | .engine e => if (engineIdle s e || s.tel.late.contains u) && !engineRetired s e then putTest s u else s
  | .way j w =>
    if !(cacheWays s j).contains w.val || s.tel.testing.any (fun p => p.1.kind = 5 && p.1.unit / 16 = j.val) then s
    else
      let (s, ok) := emptyForSurvey s j w
      if ok then putTest (setHome s j { s.home j with waysOut := (s.home j).waysOut ||| (1#16 <<< w.val) }) u else s
  | .link _ _ => putTest s u

/-- SURVEY_TEST_START (R468, R472). -/
def execSurveyTestStart (k : SurveyKind) (s : State) : Host.Outcome State Fault Refusal :=
  .next (if !surveyRuns s then s else if underTest s (surveyUnit k) then s else startTest s k)

/-- Segments of a whole test (R468): 64 of a core, 96 chunks of 16 lines of a bank; one of what R468 counts by the segment, way or flit
(DESIGN CHOICE, log 60). -/
def segments (k : SurveyKind) : Nat := match k with | .core _ => 64 | .bank _ _ => 96 | _ => 1

/-- Whether a test still holds its unit: work that took it back has abandoned the segment (R468, R472), but of an engine past its deadline (R469). -/
def testHolds (s : State) : SurveyKind → Bool
  | .core n => (match coreOf s n with | some c => (s.core c).survey && (s.core c).st = .halted | none => false)
  | .engine e => engineIdle s e || s.tel.late.contains (surveyUnit (.engine e))
  | _ => true

/-- The unit is released at the end of its test. -/
def release (s : State) (k : SurveyKind) : State :=
  match k with
  | .core n => (match coreOf s n with | some c => setCore s c { s.core c with survey := false } | none => s)
  | .way j w => setHome s j { s.home j with waysOut := (s.home j).waysOut &&& ~~~(1#16 <<< w.val) }
  | _ => s

/-- The unit has been tested: it counts for the round, which ends when every unit has been covered. -/
def endTest (s : State) (u : SurveyUnit) : State :=
  let s := stopTest s u
  let tested := if s.tel.tested.contains u then s.tel.tested else u :: s.tel.tested
  let s := { s with tel := { s.tel with tested := tested, late := s.tel.late.filter (fun x => x ≠ u) } }
  if (surveyAll s).all (fun x => tested.contains x) then { s with tel := { s.tel with tested := [], rounds := (s.tel.rounds + 1) % 65536 } } else s

/-- TEL_SURVEY_FAIL takes the first failure (R471). -/
def noteFail (s : State) (u : SurveyUnit) : State :=
  if s.tel.surveyFail.getLsbD 63 then s
  else { s with tel := { s.tel with surveyFail := BitVec.ofNat 64 (2 ^ 63 + u.kind * 2 ^ 32 + failUnit u) } }

/-- What a failure does (R470): a core and an engine are retired, a way stays out, a link raises its network's source. -/
def failTest (s : State) (k : SurveyKind) : State :=
  match k with
  | .core n => (match coreOf s n with | some c => retireInService s c | none => s)
  | .bank n _ => (match coreOf s n with | some c => retireInService s c | none => s)
  | .engine e => retireEngine s e
  | .way _ _ => s
  | .link n r => raise s (1494 + n) { unit := r }

/-- SURVEY_SEGMENT_DONE (R468, R470, R472). -/
def execSurveySegmentDone (k : SurveyKind) (pass : Bool) (s : State) : Host.Outcome State Fault Refusal :=
  let u := surveyUnit k
  .next (if !surveyRuns s || !underTest s u then s
  else if !testHolds s k then stopTest s u
  else if !pass then failTest (endTest (noteFail s u) u) k
  else
    let done := ((s.tel.testing.find? (fun p => p.1 = u)).map (·.2)).getD 0 + 1
    if done ≥ segments k then endTest (settleAll (release s k)) u
    else { s with tel := { s.tel with testing := s.tel.testing.map (fun p => if p.1 = u then (u, done) else p) } })

/-- SURVEY_DEADLINE (R469): 24 hours since the unit's last complete test. It is overdue, and its test starts at its first chance. A way has no
deadline. -/
def execSurveyDeadline (k : SurveyKind) (s : State) : Host.Outcome State Fault Refusal :=
  let u := surveyUnit k
  .next (if !surveyRuns s || underTest s u || u.kind = 5 || u.kind = 7 || !(surveyAll s).contains u then s
  else startTest (if s.tel.late.contains u then s else { s with tel := { s.tel with late := u :: s.tel.late } }) k)

/-! ## The fault collector (R445, R448, R449) and PLLs (R440) -/

/-- FCU_SELF_CHECK (R448): a mismatch. -/
def execFcuSelfCheck (s : State) : Host.Outcome State Fault Refusal := .next (if !s.pins.porN || s.lc = 4 then s else raise s 6 {})

/-- SAFE_SQUELCH (R449): 100 µs after entry every transmitter of a configured port goes to electrical idle. -/
def execSafeSquelch (s : State) : Host.Outcome State Fault Refusal :=
  .next (if !s.pins.porN || !s.fcu.safe || s.fcu.squelched then s
  else
    let s := advanceTo (s.fcu.safeTime + 100000) s
    let s := ((List.range 128).filter (fun p => (s.port p).state ≠ 0)).foldl (fun s p => emit s (.squelch p)) s
    { s with fcu := { s.fcu with squelched := true } })

/-- A write of FCU_Q_BASE (R445, R457): V from 0 to 1 empties the queue. -/
def writeQBase (s : State) (v : Word) : State :=
  let f := s.fcu
  let b := keepFields v [(49, 18), (0, 0)]
  if bit v 0 && !bit f.qBase 0 then { s with fcu := { f with qBase := b, prod := 0, cons := 0 } } else { s with fcu := { f with qBase := b } }

/-- FCU_Q_BASE_WRITE (R445, R457): in the safe state through the management port. -/
def execFcuQBaseWrite (v : BitVec 64) (s : State) : Host.Outcome State Fault Refusal := .next (if !s.pins.porN || s.lc = 4 then s else writeQBase s v)

/-- PLL_LOCK_LOST (R21, R440): of a SerDes group, or of the PCIe endpoint, whose domain is on. -/
def execPllLockLost (pll : Fin 9) (s : State) : Host.Outcome State Fault Refusal :=
  let d := if pll.val = 8 then 32 else 24 + pll.val
  let p : Pd := Tab.get {} s.tel.pd d
  .next (if s.pins.porN && (p.state = 2 || p.state = 3) then
    raise { s with clk := { s.clk with pllLost := s.clk.pllLost ||| (1#9 <<< pll.val) } } (8 + pll) { unit := pll } else s)

end Sys2Proof.Machine
end

