-- ==== Sys2Proof/Machine/RegRead.lean ====
section
/-!
DEFINITION. Reads of the register space (R10–R12): one function per block, by the offset of an aligned 8-byte register in the block. A read has
no effect. Reserved fields and undefined offsets read zero (R12).
-/
namespace Sys2Proof.Machine

/-- A table of registers by offset: the first one that is listed. -/
def regAt (off : Nat) (t : List (Nat × Nat)) : Nat := ((t.find? (fun p => p.1 = off)).map (·.2)).getD 0

/-- Eight bytes of a digest, by 8-byte word (R50). -/
def digestWord (d : BitVec 384) (i : Nat) : Nat := leNat (sub (digestBytes d) (8 * i) 8)

/-- A field of at most all ones. -/
def cap (max v : Nat) : Nat := if v > max then max else v

/-! ## GLB, FUSE, CLK (R23, R380, R435–R437) -/

/-- GLB_READY (R436): a group is ready while its PLL is locked (R21) and its ports have finished training. -/
def glbReady (s : State) : Nat :=
  let g := s.glb
  let sites := (List.range 16).foldl (fun a k => a + flag (siteReady s k) k) 0
  let groups := (List.range 8).foldl (fun a h =>
    let ps := s.cfg.ports.filter (fun p => p.port / 16 = h)
    a + flag (!ps.isEmpty && stepDone s 2 && !s.clk.pllLost.getLsbD h && ps.all (fun p => (s.port p.port).state ≠ 0 && (s.port p.port).state ≠ 1)) (16 + h)) 0
  flag g.open_ 63 + flag (g.feltReady.getLsbD 1) 30 + flag (g.feltReady.getLsbD 0) 29 + flag g.engines 28 + flag g.dir 27 + flag g.lla 26 +
    flag g.clocks 25 + flag g.chart 24 + groups + sites

/-- A GLB_FELT page (R435). -/
def feltRead (s : State) (h off : Nat) : Nat :=
  let f := felt s h
  regAt off [(0, f.image.toNat), (8, f.len.toNat), (0x10, f.entry.toNat), (0x20, fld f.error 15 8 + fld f.state 2 0)]

/-- GLB_LCOREn (R432, R436). -/
def lcoreRead (s : State) (n : Nat) : Nat :=
  match coreOf s n with
  | none => 0
  | some c => flag true 15 + flag (coreHole s c) 14 + fld (c / 24) 10 8 + fld (c % 24) 4 0

/-- PCIE_STATUS (R380): the LTSSM code of a link that is up is the PCIe specification's. -/
def pcieStatus (s : State) : Nat :=
  let p := s.pcie
  let lt := if !p.dlUp then 0 else (Config.ltssm (if p.retraining then 4 else p.pmState)).toNat
  fld lt 39 32 + fld p.speed 23 20 + fld p.width 19 15 + fld (if p.d3hot then 4 else p.pmState) 10 8 + flag s.pins.strapScope 1 + flag p.dlUp 0

/-- The endpoint registers (R380) (DEDUCED, log 120). -/
def pcieRead (s : State) (off : Nat) : Nat :=
  let p := s.pcie
  if 0x100 ≤ off && off < 0x200 then
    (if off % 16 = 0 then (Tab.get 0 p.hwin ((off - 0x100) / 16)).toNat else (Tab.get 0 p.hwinPasid ((off - 0x100) / 16)).toNat)
  else regAt off [(0, pcieStatus s), (8, p.events.toNat), (0x10, p.losses), (0x18, fld p.l0pMin 36 32 + fld p.l0pIdleUs 31 16 + fld p.l1IdleUs 15 0),
                  (0x20, p.bar4Win.toNat)]

/-- The GLB block (R380, R435, R436). -/
def glbRead (s : State) (off : Nat) : Nat :=
  let g := s.glb
  if 0x100 ≤ off && off < 0x180 then feltRead s ((off - 0x100) / 64) (off % 64)
  else if 0x1000 ≤ off && off < 0x1000 + 144 * 8 then lcoreRead s ((off - 0x1000) / 8)
  else if 0x4000 ≤ off && off < 0x4200 then pcieRead s (off - 0x4000)
  else regAt off [
    (0, fld 0x5A01 47 32 + fld 0x1F9E 31 16 + fld s.fuses.stepping 15 8 + fld s.fuses.variant 3 0),
    (8, flag s.pins.strapScope 3 + s.pins.strapBoot.toNat),
    (0x18, fld g.stepError 31 24 + fld g.stepState 19 16 + fld g.step 7 4 + g.doneMask.toNat),
    (0x20, glbReady s),
    (0x28, fld g.retiredFused 47 40 + fld g.retiredUnits 31 16 + fld g.retiredCores 7 0)]

/-- An entry of the MSI-X table, 16 bytes, or a word of the pending bits (R367). -/
def msixRead (s : State) (off : Nat) : Nat :=
  if off < 0x8000 then
    let e : MsixEntry := Tab.get {} s.pcie.msix (off / 16)
    if off % 16 = 0 then e.addr.toNat else e.data.toNat + flag e.mask 32
  else if off < 0x8100 then (s.pcie.pba.toNat >>> (8 * (off - 0x8000))) % 2 ^ 64
  else 0

/-- Lanes of a site marked failed at manufacture, summed over its modules and both directions: data lanes, and clock, valid and track lanes with
their spares, 255 standing for more (DEDUCED, log 135). -/
def Fuses.laneCounts (f : Fuses) (k : Nat) : Nat × Nat :=
  let ms := (f.lanes.filter (fun p => p.1 / 16 = k)).map (·.2)
  (min 255 (ms.map (fun m => ones 64 m.outLanes.toNat + ones 64 m.inLanes.toNat)).sum, min 255 (ms.map (fun m => ones 12 m.ctl.toNat)).sum)

/-- The FUSE block (R437). -/
def fuseRead (s : State) (off : Nat) : Nat :=
  let f := s.fuses
  if !s.glb.sensed then 0
  else if 0x18 ≤ off && off < 0x48 then (Tab.get 0 f.cRetired ((off - 0x18) / 8)).toNat
  else if 0x58 ≤ off && off < 0xD8 then
    let l := f.laneCounts ((off - 0x58) / 8)
    fld l.2 15 8 + fld l.1 7 0
  else regAt off [
    (0, fld s.glb.fuseErrors 15 8 + 1),
    (8, (List.range 8).foldl (fun a k => a + fld (Tab.get 0 f.codes k) (4 * k + 3) (4 * k)) 0),
    (0x10, (List.range 6).foldl (fun a k => a + fld (Tab.get 0 f.units k) (5 * k + 4) (5 * k)) 0),
    (0x48, (List.range 4).foldl (fun a j => a + fld (Tab.get 0 f.ppr j) (16 * j + 8) (16 * j)) 0),
    (0x50, (List.range 4).foldl (fun a j => a + fld (Tab.get 0 f.ppr (j + 4)) (16 * j + 8) (16 * j)) 0),
    (0xD8, 64 - f.retire.length)]

/-- The CLK registers (R23): no site receives clocks without the root PLL (R449), and while POR_N is low REFCLK_OK is at its reset value
(DEDUCED, log 136). -/
def clkRead (s : State) (off : Nat) : Nat :=
  regAt off [
    (0, fld s.fuses.bin 11 8 + flag (s.clk.rootLock && (List.range 16).any (fun k => (s.site k).clkFwd)) 3 + flag s.clk.lockLost 2 +
        flag s.clk.rootLock 1 + flag (s.pins.refclk && s.pins.porN) 0),
    (8, flag s.clk.rootEn 0)]

/-! ## SITE, MC, LLA (R28–R31, R88, R163, R173, R229) -/

/-- Units fitted at a site (R29). -/
def unitsFitted (s : State) (k : Nat) : Nat := if !occupiedSite s k then 0 else if k < 6 then 16 else if k < 8 then 6 else 32

/-- A Deckle port's registers (R229); those of an empty site read zero. -/
def dkRead (s : State) (k off : Nat) : Nat :=
  let d := (s.site k).dk
  let snoops := (s.txns.filter (fun t => t.stage = .snooping && t.wait.contains k)).length
  regAt off [
    (0, if d.siteInit then fld 8 63 56 + fld d.granted.time 55 48 + fld d.granted.dat 47 32 + fld d.granted.rsp 31 16 + fld d.granted.snp 15 0 else 0),
    (8, flag d.caching 8 + fld d.units 4 0), (0x10, fld d.snoopTimeout 15 0), (0x18, d.err.toNat), (0x20, d.errCount),
    (0x28, fld snoops 63 32 + fld d.outstanding.length 31 0), (0x30, d.txFlits), (0x38, d.rxFlits)]

/-- STATE of R84. -/
def CoreSt.code : CoreSt → Nat
  | .reset => 0
  | .halted => 1
  | .running => 2
  | .waiting => 3
  | .retired => 4

/-- A core row of a C-site page (R88). -/
def coreRead (s : State) (c off : Nat) : Nat :=
  let x := s.core c
  match logicalOf s c with
  | none => if off = 0 then fld 0xFF 23 16 else 0
  | some n => regAt off [
      (0, fld n 23 16 + fld ((sliceOfCore s c).getD 0) 13 8 + flag x.survey 4 + flag x.trapValid 3 + (if coreHole s c then 4 else x.st.code)),
      (0x10, x.trapPc.toNat), (0x18, flag x.trapAsync 63 + fld x.trapCause 62 56 + x.trapVal.toNat % 2 ^ 48)]

/-- A site page (R29). -/
def siteRead (s : State) (k off : Nat) : Nat :=
  let x := s.site k
  if 0x100 ≤ off && off < 0x140 && k < 8 then (if occupiedSite s k then dkRead s k (off - 0x100) else 0)
  else if 0x800 ≤ off && off < 0xB00 && k < 6 then
    (if siteCode s k = 1 || customerDie s k then coreRead s (24 * k + (off - 0x800) / 32) (off % 32) else 0)
  else regAt off [
    (0, flag x.train 3 + flag x.rstRel 2 + flag x.clkFwd 1 + flag x.pwrReq 0),
    (8, flag x.linkErr 32 + fld x.lanesRepaired 31 24 + fld (unitsFitted s k) 23 16 + fld x.unitsUp 15 8 + fld x.state 6 4 +
        (if k < 8 then fld (siteCode s k) 3 0 else 0))]

/-- A controller's page, and a stack's (R173). -/
def mcRead (s : State) (i off : Nat) : Nat :=
  let m := s.mc i
  regAt off [(0, fld m.recals 31 16 + fld m.ch1 3 2 + fld m.ch0 1 0), (8, fld m.ce 63 32 + fld m.ue 31 16), (0x10, m.errAddr.toNat), (0x18, fld m.pprDone 15 0)]

/-- A stack's page (R173): PPR_LEFT is read off the fuses once they are sensed. -/
def stackRead (s : State) (k off : Nat) : Nat :=
  let x : Stack := Tab.get {} s.hstacks k
  let up := ((List.range 32).filter (fun i => chanState s (32 * k + i) = 1 || chanState s (32 * k + i) = 2)).length
  regAt off [(0, (if s.glb.sensed then fld (256 - Tab.get 0 s.fuses.ppr k) 40 32 else 0) + fld up 23 16 + fld x.therm 10 8 + fld x.temp 7 0), (8, x.throttleNs)]

/-- One bit per home slice. -/
def homeMask (s : State) (f : HomeSlice → Bool) : Nat := (List.range 32).foldl (fun a j => a + flag (f (s.home j)) j) 0

/-- A home slice's page (R163): WAYMODE and WAYOWNER hold the plan. -/
def homeRead (s : State) (j off : Nat) : Nat :=
  let h := s.home j
  let p : LlaPlan := Tab.get {} s.cfg.lla j
  let modes := if s.chart.applied.isSome then p.modes.toNat else 0
  let owners := if s.chart.applied.isSome then p.owners.toNat else 2 ^ 128 - 1
  regAt off [(0, modes), (8, owners % 2 ^ 64), (0x10, owners / 2 ^ 64), (0x40, h.mBase), (0x48, h.mSize), (0x50, fld h.mWays 63 48 + fld h.mReg 46 40),
    (0x58, fld h.lines 63 32 + fld (cap 0xFFFFF h.notPlaced) 31 12 + fld h.mError 11 4 + fld h.mState 3 0), (0x60, h.lfsr.toNat),
    (0x80, h.hits), (0x88, h.misses), (0x90, h.writebacks)]

/-- The LLA block (R163): the broadcast page reads zero. -/
def llaRead (s : State) (off : Nat) : Nat :=
  if 0x10000 ≤ off && off < 0x30000 then homeRead s ((off - 0x10000) / 0x1000) (off % 0x1000)
  else
    let busy := homeMask s (fun h => h.mState = 1)
    let sys := homeMask s (fun h => !h.sys.isEmpty)
    regAt off [(0, flag s.lla.enable 0), (8, flag s.lla.initDone 2 + fld s.lla.state 1 0), (0x10, flag (busy ≠ 0) 32 + busy), (0x18, flag (sys ≠ 0) 32 + sys)]

/-! ## NOC and GTU (R187, R194, R204, R275–R278) -/

/-- A regulator's page (R276): page 69 reads WEIGHT 1 and GUAR 0. -/
def regPage (s : State) (n off : Nat) : Nat :=
  let r := s.regulator n
  let m := regMax s n
  regAt off [
    (0, if n = 69 then fld 1 63 48 else fld r.weight 63 48 + fld r.guar 31 0), (8, fld m.1 63 48 + fld m.2 31 0),
    (0x10, flag r.rejected 2 + flag (s.noc.exhausted.getLsbD n) 1 + flag (s.noc.meters.any (fun q => q.reg = n && !q.released)) 0),
    (0x18, if s.cfg.strict then fixedRate s n % 2 ^ 32 else 0), (0x20, r.lines), (0x28, r.urgent), (0x30, r.floor)]

/-- A counter set (R277): a hole's reads zero. -/
def iniPage (s : State) (i off : Nat) : Nat :=
  let c : IniCnt := Tab.get {} s.noc.ini i
  let hole := i < 144 && (match coreOf s i with | some c => coreHole s c | none => true)
  if hole then 0 else if 0x10 ≤ off && off < 0x50 then Tab.get 0 c.hist ((off - 0x10) / 8) else regAt off [(0, c.bytes), (8, c.reqs)]

/-- The NOC block (R275): the routers are up while the fields are on. -/
def nocRead (s : State) (off : Nat) : Nat :=
  let c := s.cfg
  let n := s.noc
  if 0x10000 ≤ off && off < 0x10000 + 70 * 0x40 then regPage s ((off - 0x10000) / 0x40) (off % 0x40)
  else if 0x20000 ≤ off && off < 0x20000 + 208 * 0x80 then iniPage s ((off - 0x20000) / 0x80) (off % 0x80)
  else if 0x40000 ≤ off && off < 0x40000 + 64 * 0x100 then tvReg s ((off - 0x40000) / 0x100) (off % 0x100)
  else if 0x40 ≤ off && off < 0x80 then
    (List.range 16).foldl (fun a k => a + fld (s.mc (16 * ((off - 0x40) / 8) + k)).ql (4 * k + 2) (4 * k)) 0
  else
    let on := (List.range 6).all (fun d => (Tab.get ({} : Pd) s.tel.pd (d + 2)).state ≥ 2)
    regAt off [
      (0, fld c.ageLimitNs 63 44 + fld c.slackNs 40 24 + fld c.throttleLevel 10 8 + flag c.strict 0),
      (8, (if on then fld 192 39 32 else 0) + fld n.maxQl 10 8 + flag (n.exhausted ≠ 0) 1 + flag n.throttled 0), (0x10, n.throttleNs), (0x18, n.strictLate),
      (0x80, n.exhausted.toNat % 2 ^ 64), (0x88, n.exhausted.toNat / 2 ^ 64)]

/-- A context's page (R187). -/
def ctxRead (s : State) (n off : Nat) : Nat :=
  let c := s.ctx n
  let w : HvWin := Tab.get {} c.win ((off - 0x100) / 32)
  if 0x100 ≤ off && off < 0x300 then regAt (off % 32) [(0, w.hva.toNat), (8, w.size.toNat), (0x10, w.delta.toNat)]
  else regAt off [
    (0, c.root.toNat), (8, fld c.pinLimit 12 0), (0x10, c.faultAddr.toNat), (0x18, c.faultInfo.toNat),
    (0x20, (s.gtu.tlb.filter (fun e => e.slice = n && e.pinned)).length), (0x28, c.walks), (0x30, c.prewalks)]

/-- The site access filter's page of an H-site (R204). -/
def safRead (s : State) (h off : Nat) : Nat :=
  let f : Saf := Tab.get {} s.gtu.saf h
  regAt off [(0, f.ctl.toNat), (8, f.denied), (0x10, f.first.toNat), (0x18, f.scratch.toNat)]

/-- The GTU block (R187, R194, R204). -/
def gtuRead (s : State) (off : Nat) : Nat :=
  let g := s.gtu
  if 0x10000 ≤ off && off < 0x50000 then ctxRead s ((off - 0x10000) / 0x1000) (off % 0x1000)
  else if 0x8000 ≤ off && off < 0x8200 then safRead s ((off - 0x8000) / 0x100) (off % 0x100)
  else regAt off [
    (0, if s.glb.engines then 64 - ones 64 s.tel.walkersOut.toNat else 0), (0x10, fld g.invCtlSeq 47 32 + fld g.invCtlSlice 13 8),
    (0x18, g.invAddr.toNat), (0x20, g.invSize.toNat), (0x28, flag g.discarded 48 + fld g.doneSeq 47 32 + fld g.invq.length 4 0)]

/-! ## Engines (R308, R309, R327, R363) -/

def ceRead (s : State) (e off : Nat) : Nat :=
  let x := s.ce e
  let n := ceActive s e
  let st := if x.retired then 3 else if n > 0 then 1 else if x.gated then 2 else 0
  regAt off [(0, fld x.lastQueue 31 20 + fld x.lastOpc 15 8 + fld n 7 3 + st), (8, x.bytes), (0x10, x.cmds)]

def ceqRead (s : State) (q off : Nat) : Nat :=
  let x := s.queue q
  regAt off [(0, x.ring.toNat), (8, x.cpl.toNat), (0x10, x.dbLine.toNat), (0x20, ceqStatus s q), (0x28, x.abortResult.toNat), (0x30, x.irq.toNat),
    (0x38, x.irqAddr.toNat), (0x40, x.irqData.toNat), (0x48, x.records), (0x50, x.lastElems), (0x58, x.lastFail.toNat)]

/-- The CE block: engines, then queues. -/
def copyRead (s : State) (off : Nat) : Nat :=
  if off < 48 * 0x100 then ceRead s (off / 0x100) (off % 0x100)
  else if 0x100000 ≤ off && off < 0x200000 then ceqRead s ((off - 0x100000) / 0x100) (off % 0x100)
  else 0

def calRead (s : State) (off : Nat) : Nat :=
  if off < 0x8000 then
    let k := off / 0x1000
    let x := s.cal k
    let st := if x.retired then 3 else if x.running then 1 else if x.gated then 2 else 0
    regAt (off % 0x1000) [(0, fld x.queue 47 32 + fld (Tab.get ({} : Stack) s.hstacks k).therm 9 8 + st), (8, x.elems), (0x10, x.busy), (0x18, fld x.flags 5 0)]
  else
    let busy := (List.range 8).foldl (fun a k => a + flag (s.cal k).running k) 0
    regAt off [(0x8000, fld busy 15 8 + cap 255 (s.runs.filter (fun r => !r.started)).length)]

def colRead (s : State) (off : Nat) : Nat :=
  if off ≥ 0x2000 then 0
  else
    let x := s.col (off / 0x1000)
    let st := if x.retired then 3 else if x.running.isSome then 1 else if x.gated then 2 else 0
    regAt (off % 0x1000) [(0, fld (x.running.getD x.lastQueue) 47 32 + fld x.lastOp 7 4 + st), (8, fld (x.rx / 65536) 63 32 + fld (x.tx / 65536) 31 0),
      (0x10, x.ops), (0x18, fld x.flags 5 0)]

/-! ## The fabric (R360–R362) -/

/-- Operations outstanding to the peer NX_PEER_SEL names. -/
def peerOps (s : State) (k m : Nat) : Nat :=
  (s.rops.filter (fun o => o.done.isNone && (match o.target with | .fabric j p _ => j = k && p = m | _ => false))).length

def nxRead (s : State) (off : Nat) : Nat :=
  let x := s.nx
  let c := s.cfg
  let k := bits x.peerSel 19 14
  let m := bits x.peerSel 13 0
  let n := s.conn k m
  if 0x40 ≤ off && off < 0x60 then (Tab.get 0 x.axis ((off - 0x40) / 8)).toNat
  else if 0x1000 ≤ off && off < 0x1100 then
    (if off % 16 = 0 then (Tab.get 0 x.rwinCtl ((off - 0x1000) / 16)).toNat else (Tab.get 0 x.rwinBase ((off - 0x1000) / 16)).toNat)
  else regAt off [
    (0, fld c.moduleId 63 50 + fld c.ethertype 49 34 + fld c.keepaliveMs 33 27 + fld x.rto 26 16 + fld x.pcp 15 13 + flag x.vlan 12 + fld x.payloadMax 11 10),
    (8, x.timeErr.toNat), (0x10, x.peerSel.toNat), (0x18, fld (peerOps s k m) 63 32 + fld n.reason 7 4 + fld n.state 1 0), (0x2000, x.qpt.toNat),
    (0x2008, x.mkt.toNat), (0x2010, fld (s.qp x.qpSel).state 13 12 + fld x.qpSel 11 0)]

/-- Width of a port in lanes, as its PORTS record gives it (R47, R361) (DESIGN CHOICE, log 64). -/
def portRead (s : State) (p off : Nat) : Nat :=
  let x := s.port p
  let w := ((s.cfg.ports.find? (fun r => r.port = p)).map (·.width)).getD 0
  regAt off [(0, fld x.linkUps 63 32 + fld w 7 4 + fld x.state 2 0), (8, fld x.fecUncorr 63 32 + fld x.fecCorr 31 0), (0x10, fld x.rx 63 32 + fld x.tx 31 0),
    (0x18, x.authFail)]

def jobRead (s : State) (k off : Nat) : Nat :=
  let j := s.job k
  regAt off [(0, j.desc.toNat), (0x10, fld j.retx 63 32 + fld j.error 15 8 + fld j.keyId 7 6 + fld j.state 2 0)]

def fabricRead (s : State) (off : Nat) : Nat :=
  if off < 0x8000 then portRead s (off / 0x100) (off % 0x100)
  else if 0x10000 ≤ off && off < 0x20000 then nxRead s (off - 0x10000)
  else if 0x20000 ≤ off && off < 0x24000 then jobRead s ((off - 0x20000) / 0x100) (off % 0x100)
  else 0

/-! ## Slices (R392, R395) -/

def sliceMask (s : State) (f : Slice → Bool) : Nat := (List.range 64).foldl (fun a n => a + flag (f (s.slice n)) n) 0

def slcRead (s : State) (off : Nat) : Nat :=
  if 0x40000 ≤ off && off < 0x80000 then tenantReg s ((off - 0x40000) / 0x1000) (off % 0x1000)
  else if 0x10000 ≤ off && off < 0x14000 then
    let n := (off - 0x10000) / 0x100
    let x := s.slice n
    regAt (off % 0x100) [
      (8, fld x.pasid 43 24 + fld x.error 23 16 + fld x.lastOp 11 8 + fld x.state 2 0),
      (0x10, fld (sliceCores s n) 63 56 + fld (sliceCommands s n) 47 32 + fld (sliceRequests s n) 31 0), (0x18, fld x.resets 63 32 + fld x.gen 31 0),
      (0x20, x.mirror.toNat), (0x28, x.ctlLine.toNat)]
  else regAt off [
    (0, sliceMask s (fun x => x.state = 2)), (8, sliceMask s (fun x => x.state = 1 || x.state = 3 || x.state = 4 || x.state = 5)),
    (0x10, sliceMask s (fun x => x.state ≠ 6))]

/-! ## FCU, WMK, TEL (R423, R457, R471) -/

/-- FCU_SUMMARY (R441). -/
def fcuSummary (s : State) : Nat :=
  (List.range 27).foldl (fun a c => a + flag ((List.range 1536).any (fun n => s.fcu.sticky.getLsbD n && faultClass n = some c)) c) 0

/-- A quarantine entry (R457). -/
def quarRead (s : State) (e : Nat) : Nat :=
  match Tab.get none s.fcu.quar e with
  | none => 0
  | some q => flag true 63 + fld (ones 32 q.left.toNat) 62 56 + fld q.owner 55 50 + q.page * 4096 % 2 ^ 50

def fcuRead (s : State) (off : Nat) : Nat :=
  let f := s.fcu
  if 0x80 ≤ off && off < 0xC0 then leNat ((List.range 8).map (fun b => BitVec.ofNat 8 ((s.cfg.react)[off - 0x80 + b]?.getD 0)))
  else if 0x100 ≤ off && off < 0x280 then (f.sticky.toNat >>> (32 * ((off - 0x100) / 8))) % 2 ^ 32
  else if 0x400 ≤ off && off < 0x800 then (match f.hist[(off - 0x400) / 64]? with | some r => le r.bytes (off % 64) 8 | none => 0)
  else if 0x800 ≤ off && off < 0x1000 then quarRead s ((off - 0x800) / 8)
  else regAt off [
    (0, fld f.safeSource 47 32 + flag s.pins.hbRunning 3 + flag ((f.prod + 2 ^ 32 - f.cons) % 2 ^ 32 ≥ 4096) 2 + flag f.selfFault 1 + flag f.safe 0),
    (8, f.safeTime), (0x10, f.qBase.toNat), (0x18, f.prod), (0x20, f.cons), (0x28, f.drops), (0x30, f.seq), (0x38, f.irq.toNat), (0x40, f.irqAddr.toNat),
    (0x48, f.irqData.toNat), (0x50, fcuSummary s), (0x58, flag f.irqPending 0), (0x60, (f.quar.filter (fun p => p.2.isSome)).length)]

/-- WMK_STATUS (R423). OWNER_SLOT is zero where no slot is active. -/
def wmkStatus (s : State) : Nat :=
  let (u, t) := partialOf s
  fld t 26 24 + fld u 23 16 + flag (bootCaOk s) 15 + flag (activeOwner s).isSome 14 + fld ((activeOwner s).getD 0) 13 12 + flag s.keysReady 9 +
    flag (s.fuses.testPort ≠ 0) 8 + fld s.vault 6 4 + fld s.lc 2 0

def wmkRead (s : State) (off : Nat) : Nat :=
  let w := s.wmk
  let word := fun (base : Nat) (d : BitVec 384) => digestWord d ((off - base) / 8)
  if 0x40 ≤ off && off < 0x70 then (match activeOwner s with | some i => word 0x40 (s.owner i).digest | none => 0)
  else if 0x70 ≤ off && off < 0xA0 then (if s.linkReady then word 0x70 Config.likDigest else 0)
  else if 0xA0 ≤ off && off < 0xD0 then word 0xA0 w.stage
  else if 0x100 ≤ off && off < 0x120 then (w.nonce.toNat >>> (64 * ((off - 0x100) / 8))) % 2 ^ 64
  else regAt off [
    (0, wmkStatus s), (8, (List.range 16).foldl (fun a k => a + fld (s.siteLc k) (4 * k + 2) (4 * k)) 0), (0x18, fld w.result 15 8 + flag w.busy.isSome 0),
    (0x20, s.fuses.serial.toNat), (0xE0, w.measAddr.toNat), (0xE8, fld w.measLen 63 32 + fld w.measSlot 2 0), (0xF0, fld w.measResult 15 8 + flag w.measBusy 0),
    (0x128, fld (match w.dbgUntil with | some t => (t - s.time) / 1000000000 | none => 0) 63 32 + fld w.tokenResult 15 8), (0x130, (rightsNow s).toNat),
    (0x138, (sitesNow s).toNat), (0x140, fld w.grantsPor 63 32 + fld w.grantsEpoch 31 0)]

/-- Set voltage of a domain in millivolts: the nominal plus its margin where it has a range (R25, R466); half a millivolt is dropped (DESIGN CHOICE,
log 138). -/
def setMilliVolts (s : State) (d : Nat) : Nat := if d = 0 then 800 else milliVolts d + (if ageing d then marginOf s d * 5 / 2 else 0)

/-- A domain's registers (R471): its current is what its blocks draw, a free value by millisecond. -/
def pdRead (s : State) (d off : Nat) : Nat :=
  let p : Pd := Tab.get {} s.tel.pd d
  let on := p.state = 2 || p.state = 3
  regAt off [
    (0, fld (marginOf s d) 39 32 + (if on || p.state = 1 then fld (setMilliVolts s d) 31 16 else 0) + flag p.exhausted 3 + fld p.state 2 0),
    (8, if on then (Config.power (2 ^ 64 * (d + 1) + s.time / 1000000)).toNat else 0), (0x10, p.limitNs), (0x18, fld (targetOf s d) 15 8 + fld p.slack 7 0)]

/-- Ways Survey has withdrawn: those out of allocation and not under test (R470, R471) (DEDUCED, log 62). -/
def waysWithdrawn (s : State) (j : Nat) : Nat :=
  (List.range 16).foldl (fun a w => a + flag ((s.home j).waysOut.getLsbD w && !underTest s { kind := 5, unit := 16 * j + w }) w) 0

/-- TEL_POWER's PEAK_W (R471): at least the present mean; a free value beyond that. -/
def peakPower (s : State) : Nat := max (modulePower s) (if s.time < 100000000 then 0 else (Config.power (2 ^ 72 + s.time / 100000000)).toNat)

def telRead (s : State) (off : Nat) : Nat :=
  let t := s.tel
  if 0x400 ≤ off && off < 0x500 then waysWithdrawn s ((off - 0x400) / 8)
  else if 0x1000 ≤ off && off < 0x1600 then pdRead s ((off - 0x1000) / 32) (off % 32)
  else if 0x2000 ≤ off && off < 0x2300 then
    let x : Sensor := Tab.get {} t.therm ((off - 0x2000) / 8)
    fld x.state 9 8 + fld x.temp 7 0
  else regAt off [
    (0, fld (peakPower s) 47 32 + fld (modulePower s) 15 0), (8, fld t.ageCount 47 32 + flag t.endOfMargin 2 + flag s.fuses.demoted 1), (0x10, t.ageLast),
    (0x18, match t.tripSensor with | some n => flag true 63 + fld n 7 0 | none => 0),
    (0x20, fld t.rounds 63 48 + fld t.late.length 47 32 + fld (100 * t.tested.length / max 1 (surveyAll s).length) 23 16 + flag (t.surveyOn && !surveyRuns s) 0),
    (0x28, t.surveyFail.toNat)]

/-! ## CHART (R51, R53–R55) and the whole space -/

/-- The CHART block (R51): VERSION and HASH are those of the last image that reached APPLIED; QUIESCENT has its reset value while POR_N is low
(DEDUCED, log 136). -/
def chartRead (s : State) (off : Nat) : Nat :=
  let c := s.chart
  let a := if c.epoch = 0 then none else (if c.state = 4 && c.prior.isSome then c.prior else c.applied)
  if 0x80000 ≤ off then leNat ((List.range 8).map (fun i => Tab.get 0 c.buf (c.page * 0x80000 + off - 0x80000 + i)))
  else if 0x20 ≤ off && off < 0x50 then (match a with | some x => digestWord x.hash ((off - 0x20) / 8) | none => 0)
  else regAt off [
    (8, fld c.errSection 63 56 + fld c.errOffset 55 32 + fld c.error 23 16 + fld c.lastPath 8 8 + flag (s.pins.porN && quiescent s) 7 + flag c.cmdDiscarded 6 +
        flag c.winDiscarded 5 + fld c.state 3 0),
    (0x10, c.epoch), (0x18, match a with | some x => x.version.toNat | none => 0), (0x50, c.page)]

/-- The register at an aligned address of the 64 MiB space: block by block. -/
def regValue (s : State) (a : Nat) : Nat :=
  if a < 0x80000 then glbRead s a
  else if a < 0x100000 then msixRead s (a - 0x80000)
  else if a < 0x200000 then chartRead s (a - 0x100000)
  else if a < 0x300000 then fuseRead s (a - 0x200000)
  else if a < 0x400000 then clkRead s (a - 0x300000)
  else if a < 0x410000 then siteRead s ((a - 0x400000) / 0x1000) (a % 0x1000)
  else if a < 0x800000 then 0
  else if a < 0x880000 then mcRead s ((a - 0x800000) / 0x1000) (a % 0x1000)
  else if a < 0x888000 then stackRead s ((a - 0x880000) / 0x1000) (a % 0x1000)
  else if a < 0xC00000 then 0
  else if a < 0x1000000 then llaRead s (a - 0xC00000)
  else if a < 0x1400000 then nocRead s (a - 0x1000000)
  else if a < 0x1800000 then gtuRead s (a - 0x1400000)
  else if a < 0x2000000 then copyRead s (a - 0x1800000)
  else if a < 0x2400000 then calRead s (a - 0x2000000)
  else if a < 0x2800000 then colRead s (a - 0x2400000)
  else if a < 0x3000000 then fabricRead s (a - 0x2800000)
  else if a < 0x3400000 then slcRead s (a - 0x3000000)
  else if a < 0x3800000 then fcuRead s (a - 0x3400000)
  else if a < 0x3C00000 then wmkRead s (a - 0x3800000)
  else if a < 0x4000000 then telRead s (a - 0x3C00000)
  else 0

/-- The registers that a write reaches: on the broadcast page of the LLA block, those of every home slice (R163). -/
def regTargets (a : Nat) : List Nat :=
  if 0xC08000 ≤ a && a < 0xC09000 then (List.range 32).map (fun j => 0xC10000 + 0x1000 * j + a % 0x1000) else [a]

/-- Fields that RWL lets a write set, in the registers that hold one (R11) (DEDUCED, log 66). -/
def rwlFields (a : Nat) : List (Nat × Nat) :=
  if 0xC10000 ≤ a && a < 0xC30000 then
    (if a % 0x1000 = 0 then [(31, 0)] else if a % 0x1000 = 8 || a % 0x1000 = 0x10 then [(63, 0)] else [])
  else if a = 0x1000000 then [(63, 44), (40, 24), (10, 8), (0, 0)]
  else if 0x1010000 ≤ a && a < 0x1010000 + 70 * 0x40 then (if a % 0x40 = 8 then [(63, 48), (31, 0)] else [])
  else if a = 0x2810000 then [(63, 27)]
  else if 0x3400080 ≤ a && a < 0x34000C0 then [(63, 0)]
  else []

/-- A register read: while an apply runs an RWL field reads what software last wrote to it in that apply (R11, R54) (DEDUCED, log 71). -/
def regRead (s : State) (a : Nat) : Word :=
  let v := BitVec.ofNat 64 (regValue s a)
  if s.chart.state ≠ 4 then v
  else match s.chart.rwl.find? (fun p => p.1 = a) with
    | none => v
    | some p => (v &&& ~~~(BitVec.ofNat 64 (fieldMask (rwlFields a)))) ||| p.2

/-- What a read by a path returns (R10, R51): where BOOT_SEL does not select the PCIe host, BAR0 reads the CHART block, its window included, as
zero. -/
def readBy (s : State) (p : Path) (a : Nat) : Word :=
  if p = .bar0 && s.pins.strapBoot ≠ 0 && 0x100000 ≤ a && a < 0x200000 then 0 else regRead s a

end Sys2Proof.Machine
end

