-- ==== Sys2Proof/Machine/RegWrite.lean ====
section
/-!
DEFINITION. Writes of the register space (R10–R12): one function per block. An action or a write-1-to-clear bit acts where the written part
has a one, a field keeps its value outside the written part, and reserved fields and undefined offsets take nothing.
-/
namespace Sys2Proof.Machine

/-- A write of a register or of one half of it: the bits of the written part, its value in place, and the register as it reads with that
part replaced. -/
structure RegVal where
  mask : Nat
  put : Nat
  whole : Nat
  deriving DecidableEq, Repr

/-- The value a register keeps in the half that a write leaves alone (R10): what it reads, but for a regulator's rate what was last written. -/
def keptValue (s : State) (a : Nat) : Nat :=
  if 0x1010000 ≤ a && a < 0x1010000 + 70 * 0x40 && a % 0x40 = 0 then (rateWritten s ((a - 0x1010000) / 0x40)).toNat else regValue s a

/-- The write a command makes of the register at `a` (R10). -/
def regVal (s : State) (a : Nat) (half : RegHalf) (v : BitVec 64) : RegVal :=
  let (m, w) := match half with
    | .full => (2 ^ 64 - 1, v.toNat)
    | .low => (2 ^ 32 - 1, v.toNat % 2 ^ 32)
    | .high => (2 ^ 64 - 2 ^ 32, v.toNat % 2 ^ 32 * 2 ^ 32)
  { mask := m, put := w, whole := (keptValue s a &&& ((2 ^ 64 - 1) ^^^ m)) ||| w }

def RegVal.word (x : RegVal) : Word := BitVec.ofNat 64 x.whole
/-- The RW fields of the register after the write. -/
def RegVal.keep (x : RegVal) (fs : List (Nat × Nat)) : Word := keepFields x.word fs
/-- A field after the write. -/
def RegVal.field (x : RegVal) (hi lo : Nat) : Nat := bits x.word hi lo
/-- Whether the write has a one at a bit. -/
def RegVal.one (x : RegVal) (i : Nat) : Bool := x.put.testBit i
/-- A register with W1C bits cleared as the write asks (R11). -/
def RegVal.clear (x : RegVal) (old : Word) (bs : List Nat) : Word :=
  bs.foldl (fun v i => if x.one i then v &&& ~~~(1#64 <<< i) else v) old

/-- The next state of a row that a register write performs. -/
def nextOf (s : State) : Host.Outcome State Fault Refusal → State
  | .next t => t
  | _ => s

/-! ## GLB, CLK, SITE (R23, R29–R31, R88, R229, R367, R371, R380, R435, R436) -/

/-- PCIE_PM: an L0P_MIN other than 2, 4 or 8 keeps the old one (DEDUCED, log 53). -/
def pmWrite (s : State) (x : RegVal) : State :=
  let l := x.field 36 32
  { s with pcie := { s.pcie with l0pMin := if l = 2 || l = 4 || l = 8 then l else s.pcie.l0pMin, l0pIdleUs := x.field 31 16, l1IdleUs := x.field 15 0 } }

def pcieWrite (s : State) (off : Nat) (x : RegVal) : State :=
  let p := s.pcie
  if off = 8 then { s with pcie := { p with events := p.events &&& ~~~(BitVec.ofNat 5 x.put) } }
  else if off = 0x18 then pmWrite s x
  else if off = 0x20 then writeBar4Win s x.word
  else if 0x100 ≤ off && off < 0x200 then
    let r := (off - 0x100) / 16
    if off % 16 = 0 then { s with pcie := { p with hwin := Tab.set 0 p.hwin r (x.keep [(63, 12), (2, 0)]) } }
    else { s with pcie := { p with hwinPasid := Tab.set 0 p.hwinPasid r (x.keep [(19, 0)]) } }
  else s

def feltWrite (s : State) (h off : Nat) (x : RegVal) : State :=
  if off = 0 then setFelt s h { felt s h with image := x.keep [(49, 7)] }
  else if off = 8 then setFelt s h { felt s h with len := x.keep [(26, 7)] }
  else if off = 0x10 then setFelt s h { felt s h with entry := x.keep [(49, 0)] }
  else if off = 0x18 && x.one 0 then feltGo s h
  else s

def glbWrite (s : State) (off : Nat) (x : RegVal) : State :=
  if off = 0x10 then writeStepCtl s (x.put % 16)
  else if 0x100 ≤ off && off < 0x180 then feltWrite s ((off - 0x100) / 64) (off % 64) x
  else if 0x4000 ≤ off && off < 0x4200 then pcieWrite s (off - 0x4000) x
  else s

/-- The MSI-X table (R367): a vector that is unmasked with its pending bit set is sent (DEDUCED, log 70). -/
def msixWrite (s : State) (off : Nat) (x : RegVal) : State :=
  if off ≥ 0x8000 then s
  else
    let n := off / 16
    let e : MsixEntry := Tab.get {} s.pcie.msix n
    let e := if off % 16 = 0 then { e with addr := x.word } else { e with data := BitVec.ofNat 32 (x.field 31 0), mask := x.field 32 32 = 1 }
    let s := { s with pcie := { s.pcie with msix := Tab.set {} s.pcie.msix n e } }
    if !e.mask && s.pcie.pba.getLsbD n && s.pcie.msixEnable && !s.pcie.funcMask then
      sendMsix { s with pcie := { s.pcie with pba := s.pcie.pba &&& ~~~(1#2048 <<< n) } } n
    else s

def clkWrite (s : State) (off : Nat) (x : RegVal) : State :=
  if off = 0 then { s with clk := { s.clk with lockLost := s.clk.lockLost && !x.one 2 } }
  else if off = 8 && x.mask.testBit 0 then writeRootEn s (x.one 0)
  else s

/-- SITE_CTL (R29–R31): SITE_RESET, or the lowest bit cleared, or the one bit set; setting two bits at once skips a step (DEDUCED, log 68). -/
def siteCtl (s : State) (k : Fin 16) (x : RegVal) : State :=
  let c := s.site k
  let old := [c.pwrReq, c.clkFwd, c.rstRel, c.train]
  let new := (List.range 4).map (fun i => decide (x.field i i = 1))
  let set := (List.range 4).filter (fun i => !(old[i]?.getD false) && new[i]?.getD false)
  let cleared := (List.range 3).filter (fun i => old[i]?.getD false && !(new[i]?.getD false))
  if x.one 8 then nextOf s (execSiteReset k s)
  else match cleared with
    | 0 :: _ => nextOf s (execSiteCtlClear k 0 s)
    | 1 :: _ => nextOf s (execSiteCtlClear k 1 s)
    | _ :: _ => nextOf s (execSiteCtlClear k 2 s)
    | [] => match set with
      | [0] => nextOf s (execSitePwrReq k s)
      | [1] => nextOf s (execSiteClkFwd k s)
      | [2] => nextOf s (execSiteRstRel k s)
      | [3] => nextOf s (execSiteTrain k s)
      | _ => s

/-- A site page (R29–R31, R88, R229): on an empty site the Deckle registers take no write. One write that asks a core to halt and to reset halts it first
(DESIGN CHOICE, log 156). -/
def siteWrite (s : State) (k : Fin 16) (off : Nat) (x : RegVal) : State :=
  let c := s.site k
  if off = 0 then siteCtl s k x
  else if off = 8 then setSite s k { c with linkErr := c.linkErr && !x.one 32 }
  else if off = 0x110 && k.val < 8 && occupiedSite s k then setDk s k { c.dk with snoopTimeout := x.field 15 0 }
  else if off = 0x118 && k.val < 8 && occupiedSite s k then setDk s k { c.dk with err := x.clear c.dk.err [63] }
  else if 0x800 ≤ off && off < 0xB00 && off % 32 = 8 && k.val < 6 then
    let n := 24 * k.val + (off - 0x800) / 32
    let s := if x.one 0 then writeHaltReq s n else s
    if x.one 1 then writeCoreReset s n else s
  else s

/-! ## MC, LLA (R163, R173) -/

def mcWrite (s : State) (i off : Nat) (x : RegVal) : State :=
  if off = 0x10 then { s with mcs := Tab.modify {} s.mcs i (fun m => { m with errAddr := x.clear m.errAddr [63] }) } else s

/-- A home slice's page, or one of the broadcast's slices (R163). -/
def homeWrite (s : State) (j off : Nat) (x : RegVal) : State :=
  if off = 0x40 then setHome s j { s.home j with mBase := (x.keep [(49, 7)]).toNat }
  else if off = 0x48 then setHome s j { s.home j with mSize := (x.keep [(50, 7)]).toNat }
  else if off = 0x50 then maintCtl s j (x.put % 16) (x.field 63 48) (x.field 46 40)
  else s

def llaWrite (s : State) (off : Nat) (half : RegHalf) (v : BitVec 64) (x : RegVal) : State :=
  if off = 0 && x.mask.testBit 0 then nextOf s (if x.one 0 then execLlaEnable s else execLlaDisable s)
  else if 0x10000 ≤ off && off < 0x30000 then homeWrite s ((off - 0x10000) / 0x1000) (off % 0x1000) x
  else if 0x8000 ≤ off && off < 0x9000 then
    (List.range 32).foldl (fun s j => homeWrite s j (off % 0x1000) (regVal s (0xC10000 + 0x1000 * j + off % 0x1000) half v)) s
  else s

/-! ## NOC, GTU (R187, R194, R204, R275, R276) -/

def nocWrite (s : State) (off : Nat) (x : RegVal) : State :=
  if off = 0x20 && x.one 0 then nextOf s (execNocCntClear s)
  else if 0x10000 ≤ off && off < 0x10000 + 70 * 0x40 then
    let n := (off - 0x10000) / 0x40
    if off % 0x40 = 0 then writeRegRate s n x.word
    else if off % 0x40 = 0x10 && x.one 2 then setRegulator s n { s.regulator n with rejected := false }
    else s
  else s

/-- GTU_CTX_CFG: at most 4,096, and 32,768 in the module. -/
def pinLimitWrite (s : State) (n v : Nat) : State :=
  let total := (List.range 64).foldl (fun a k => a + (if k = n then v else (s.ctx k).pinLimit)) 0
  if v > 4096 || total > 32768 then s else setCtx s n { s.ctx n with pinLimit := v }

def ctxWrite (s : State) (n off : Nat) (x : RegVal) : State :=
  let c := s.ctx n
  if off = 0 then writeCtxRoot s n x.word
  else if off = 8 then pinLimitWrite s n (x.field 12 0)
  else if off = 0x18 then setCtx s n { c with faultInfo := x.clear c.faultInfo [63, 62] }
  else if 0x100 ≤ off && off < 0x300 then
    let i := (off - 0x100) / 32
    let w : HvWin := Tab.get {} c.win i
    let w : HvWin :=
      if off % 32 = 0 then { w with hva := x.keep [(63, 21), (0, 0)] }
      else if off % 32 = 8 then { w with size := x.keep [(56, 21)] }
      else if off % 32 = 0x10 then { w with delta := x.keep [(63, 21)] }
      else w
    setCtx s n { c with win := Tab.set {} c.win i w }
  else s

def safWrite (s : State) (h off : Nat) (x : RegVal) : State :=
  let f : Saf := Tab.get {} s.gtu.saf h
  let f : Saf :=
    if off = 0 then { f with ctl := x.keep [(1, 0)] }
    else if off = 0x10 then { f with first := x.clear f.first [63] }
    else if off = 0x18 then { f with scratch := x.word }
    else f
  { s with gtu := { s.gtu with saf := Tab.set {} s.gtu.saf h f } }

def gtuWrite (s : State) (off : Nat) (x : RegVal) : State :=
  let g := s.gtu
  if off = 0x10 then writeInvCtl s (x.put % 16) (x.field 13 8) (x.field 47 32)
  else if off = 0x18 then { s with gtu := { g with invAddr := x.keep [(56, 12)] } }
  else if off = 0x20 then { s with gtu := { g with invSize := x.keep [(56, 12)] } }
  else if off = 0x28 then { s with gtu := { g with discarded := g.discarded && !x.one 48 } }
  else if 0x8000 ≤ off && off < 0x8200 then safWrite s ((off - 0x8000) / 0x100) (off % 0x100) x
  else if 0x10000 ≤ off && off < 0x50000 then ctxWrite s ((off - 0x10000) / 0x1000) (off % 0x1000) x
  else s

/-! ## CE queues (R284, R286, R305, R307, R308) -/

/-- REFUSED with the ones of the write cleared, bit by bit (R11, R308). -/
def clearRefused (old : Nat) (x : RegVal) : Nat := old &&& (3 ^^^ ((x.put >>> 14) % 4))

def ceqWrite (s : State) (q off : Nat) (x : RegVal) : State :=
  let c := s.queue q
  if off = 0 then writeRing s q x.word
  else if off = 8 then (if c.state = 0 then setQueue s q { c with cpl := x.keep [(56, 12)] } else s)
  else if off = 0x10 then (if c.state = 0 then setQueue s q { c with dbLine := x.keep [(49, 7), (0, 0)] } else s)
  else if off = 0x18 then settleAll (writeCeqCtl s q (x.put % 16))
  else if off = 0x20 then setQueue s q { c with dbBad := c.dbBad && !x.one 7, refused := clearRefused c.refused x }
  else if off = 0x28 then setQueue s q { c with abortResult := x.clear c.abortResult [63] }
  else if off = 0x30 then setQueue s q { c with irq := x.keep [(55, 48), (47, 32), (31, 30), (10, 0)] }
  else if off = 0x38 then setQueue s q { c with irqAddr := x.keep [(56, 3)] }
  else if off = 0x40 then setQueue s q { c with irqData := x.word }
  else s

def copyWrite (s : State) (off : Nat) (x : RegVal) : State :=
  if 0x100000 ≤ off && off < 0x200000 then ceqWrite s ((off - 0x100000) / 0x100) (off % 0x100) x else s

/-! ## The fabric (R346, R352, R360, R362) -/

/-- NX_AXIS and NX_RWIN take a write only while every job slot is IDLE. -/
def jobsIdle (s : State) : Bool := s.nx.jobs.all (fun p => p.2.state = 0)

/-- NX_CFG (R360): a PAYLOAD_MAX of 3 keeps the old one (DEDUCED, log 67). -/
def nxCfgWrite (s : State) (x : RegVal) : State :=
  let m := x.field 11 10
  { s with nx := { s.nx with rto := x.field 26 16, pcp := x.field 15 13, vlan := x.field 12 12 = 1, payloadMax := if m = 3 then s.nx.payloadMax else m } }

def nxWrite (s : State) (off : Nat) (x : RegVal) : State :=
  let n := s.nx
  if off = 0 then nxCfgWrite s x
  else if off = 0x10 then { s with nx := { n with peerSel := x.keep [(19, 0)] } }
  else if off = 0x20 then (if x.one 0 then writeUnfence s else s)
  else if 0x40 ≤ off && off < 0x60 then
    (if jobsIdle s then { s with nx := { n with axis := Tab.set 0 n.axis ((off - 0x40) / 8) (x.keep [(30, 16), (11, 8), (3, 0)]) } } else s)
  else if 0x1000 ≤ off && off < 0x1100 then
    let r := (off - 0x1000) / 16
    if !jobsIdle s then s
    else if off % 16 = 0 then { s with nx := { n with rwinCtl := Tab.set 0 n.rwinCtl r (x.keep [(63, 63), (55, 48), (13, 0)]) } }
    else { s with nx := { n with rwinBase := Tab.set 0 n.rwinBase r (x.keep [(49, 30)]) } }
  else if off = 0x2000 then { s with nx := { n with qpt := x.keep [(49, 12)] } }
  else if off = 0x2008 then { s with nx := { n with mkt := x.keep [(49, 12)] } }
  else if off = 0x2010 && x.mask.testBit 0 then writeQpCtl s (x.field 11 0) (x.field 13 12)
  else s

/-- NX_JOB_CTL: JOIN, LEAVE, REKEY in this order (DESIGN CHOICE, log 53). -/
def jobCtl (s : State) (k : Nat) (x : RegVal) : State :=
  let s := if x.one 0 then writeJoin s k else s
  let s := if x.one 1 then leaveJob s k else s
  if x.one 2 then writeRekey s k else s

def fabricWrite (s : State) (off : Nat) (x : RegVal) : State :=
  if 0x10000 ≤ off && off < 0x20000 then nxWrite s (off - 0x10000) x
  else if 0x20000 ≤ off && off < 0x24000 then
    let k := (off - 0x20000) / 0x100
    if off % 0x100 = 0 then (if (s.job k).state = 0 then setJob s k { s.job k with desc := x.keep [(49, 6)] } else s)
    else if off % 0x100 = 8 then jobCtl s k x
    else s
  else s

/-! ## Slices (R392–R395) -/

/-- A tenant page (R392). -/
def tenantWrite (s : State) (n off : Nat) (x : RegVal) : State :=
  if off = 0x80 then setSlice s n { s.slice n with qsel := x.field 11 0 }
  else if off = 0x98 then
    match tenantQueue s n with
    | some q => if (s.slice n).state = 2 then settleAll (writeCeqCtl s q (x.put % 16)) else s
    | none => s
  else s

def slcWrite (s : State) (off : Nat) (x : RegVal) : State :=
  if 0x10000 ≤ off && off < 0x14000 then
    let n := (off - 0x10000) / 0x100
    if off % 0x100 = 0 then settleAll (writeSlcCtl s n (x.put % 16) (x.field 9 8) (x.field 43 24))
    else if off % 0x100 = 0x20 then writeMirror s n x.word
    else if off % 0x100 = 0x28 then writeCtlLine s n x.word
    else s
  else if 0x40000 ≤ off && off < 0x80000 then tenantWrite s ((off - 0x40000) / 0x1000) (off % 0x1000) x
  else s

/-! ## FCU, WMK, TEL (R423, R457, R471) -/

def fcuWrite (s : State) (off : Nat) (x : RegVal) : State :=
  let f := s.fcu
  if off = 0x10 then writeQBase s x.word
  else if off = 0x20 then
    let c := x.field 31 0
    if (f.prod + 2 ^ 32 - c) % 2 ^ 32 > 4096 then s else { s with fcu := { f with cons := c } }
  else if off = 0x38 then { s with fcu := { f with irq := x.keep [(31, 30), (10, 0)] } }
  else if off = 0x40 then { s with fcu := { f with irqAddr := x.keep [(49, 3)] } }
  else if off = 0x48 then { s with fcu := { f with irqData := x.word } }
  else if off = 0x58 then { s with fcu := { f with irqPending := f.irqPending && !x.one 0 } }
  else if 0x100 ≤ off && off < 0x280 then
    { s with fcu := { f with sticky := f.sticky &&& ~~~(BitVec.ofNat 1536 (x.put % 2 ^ 32) <<< (32 * ((off - 0x100) / 8))) } }
  else s

/-- WMK_TOKEN_CTL: PRESENT uses the nonce outstanding before the write (R424); LOCK comes last (DEDUCED, log 69). -/
def tokenCtl (s : State) (x : RegVal) : State :=
  let s := if x.one 1 then presentToken s else s
  let s := if x.one 0 then genNonce s else s
  if x.one 2 then endDebug s else s

/-- The bytes of a write: offset in the register and value. -/
def RegVal.bytes (x : RegVal) : List (Nat × Byte) :=
  ((List.range 8).filter (fun i => x.mask.testBit (8 * i))).map (fun i => (i, BitVec.ofNat 8 (x.put >>> (8 * i))))

/-- A word of a staged digest, whose byte 0 is highest (R410, R423). -/
def stageWrite (s : State) (i : Nat) (x : RegVal) : State :=
  let bs := splice (digestBytes s.wmk.stage) (8 * i) (leBytes 8 x.whole)
  { s with wmk := { s.wmk with stage := BitVec.ofNat 384 (beNat bs) } }

def wmkRegWrite (s : State) (p : Path) (off : Nat) (x : RegVal) : State :=
  let w := s.wmk
  if off = 0x10 then (if x.mask.testBit 0 then writeLcCtl s p ((x.put >>> 8) % 256) (x.put % 8) else s)
  else if 0xA0 ≤ off && off < 0xD0 then (if wmkWrite s p then stageWrite s ((off - 0xA0) / 8) x else s)
  else if off = 0xD0 then (if wmkWrite s p then writeOwnerCtl s (x.put % 16) else s)
  else if s.lc ≥ 4 then s
  else if off = 0xE0 then { s with wmk := { w with measAddr := x.keep [(49, 0)] } }
  else if off = 0xE8 then
    (if x.one 7 then writeMeasCtl s (x.field 63 32) (x.field 2 0) else { s with wmk := { w with measLen := x.field 63 32, measSlot := x.field 2 0 } })
  else if off = 0x120 then (if wmkWrite s p then tokenCtl s x else s)
  else if 0x800 ≤ off && off < 0x938 then
    (if wmkWrite s p then { s with wmk := { w with token := x.bytes.foldl (fun t b => Tab.set 0 t (off - 0x800 + b.1) b.2) w.token } } else s)
  else s

/-! ## CHART (R51) and the whole space -/

def chartWrite (s : State) (p : Path) (off : Nat) (half : RegHalf) (x : RegVal) : State :=
  match chartPath s p with
  | none => s
  | some c =>
    if off = 0 then settleAll (writeChartCtl s c (x.put % 16))
    else if off = 8 then
      { s with chart := { s.chart with cmdDiscarded := s.chart.cmdDiscarded && !x.one 6, winDiscarded := s.chart.winDiscarded && !x.one 5 } }
    else if off = 0x50 then { s with chart := { s.chart with page := x.field 2 0 } }
    else if 0x80000 ≤ off then
      (match half with
       | .full => writeWindow s c (off - 0x80000) (leBytes 8 x.put)
       | .low => writeWindow s c (off - 0x80000) (leBytes 4 x.put)
       | .high => writeWindow s c (off - 0x80000 + 4) (leBytes 4 (x.put / 2 ^ 32)))
    else s

/-- What the RWL fields of a register keep of a write made while a Chart is applied: the sequencer overwrites it before APPLIED (R11, R54). -/
def rwlPut (x : RegVal) (s : State) (a : Nat) : State :=
  let fs := rwlFields a
  if fs.isEmpty || s.chart.state ≠ 4 then s
  else
    let old := regRead s a
    let m := BitVec.ofNat 64 x.mask
    let new := ((old &&& ~~~m) ||| (BitVec.ofNat 64 x.put &&& m)) &&& BitVec.ofNat 64 (fieldMask fs)
    { s with chart := { s.chart with rwl := (s.chart.rwl.filter (fun q => q.1 ≠ a)) ++ [(a, new)] } }

/-- The RWL fields that a write reaches, on every home slice's page where it is one of the broadcast page. -/
def rwlWrite (s : State) (a : Nat) (x : RegVal) : State := (regTargets a).foldl (rwlPut x) s

/-- Blocks whose registers take a write in the safe state (R449, R457; that the others take none is DEDUCED, log 54). -/
def safeWritable (a : Nat) : Bool := (0x100000 ≤ a && a < 0x200000) || (0x3400000 ≤ a && a < 0x3C00000)

/-- A write of one register by a path that reaches it: the fields it sets and what it starts. -/
def regWriteAt (s : State) (p : Path) (a : Nat) (half : RegHalf) (v : BitVec 64) : State :=
  let x := regVal s a half v
  let s := rwlWrite s a x
  if a < 0x80000 then glbWrite s a x
  else if a < 0x100000 then msixWrite s (a - 0x80000) x
  else if a < 0x200000 then chartWrite s p (a - 0x100000) half x
  else if a < 0x300000 then s
  else if a < 0x400000 then clkWrite s (a - 0x300000) x
  else if a < 0x410000 then siteWrite s (Fin.ofNat 16 ((a - 0x400000) / 0x1000)) (a % 0x1000) x
  else if a < 0x800000 then s
  else if a < 0x880000 then mcWrite s ((a - 0x800000) / 0x1000) (a % 0x1000) x
  else if a < 0xC00000 then s
  else if a < 0x1000000 then llaWrite s (a - 0xC00000) half v x
  else if a < 0x1400000 then nocWrite s (a - 0x1000000) x
  else if a < 0x1800000 then gtuWrite s (a - 0x1400000) x
  else if a < 0x2000000 then copyWrite s (a - 0x1800000) x
  else if a < 0x2800000 then s
  else if a < 0x3000000 then fabricWrite s (a - 0x2800000) x
  else if a < 0x3400000 then slcWrite s (a - 0x3000000) x
  else if a < 0x3800000 then fcuWrite s (a - 0x3400000) x
  else if a < 0x3C00000 then wmkRegWrite s p (a - 0x3800000) x
  else if a = 0x3C00028 then { s with tel := { s.tel with surveyFail := x.clear s.tel.surveyFail [63] } }
  else s

/-- A write of an aligned register by a path (R10–R12, R369, R449, R485): discarded where the path does not reach it, and over the SMBus but
for a retry of a transition. -/
def regWrite (s : State) (p : Path) (a : Nat) (half : RegHalf) (v : BitVec 64) : State :=
  if !pathUp s p || a % 8 ≠ 0 || s.lc = 4 then s
  else if s.fcu.safe && !safeWritable a then s
  else if p = .testPort && !(0x3800000 ≤ a && a < 0x3C00000) then s
  else if p = .smbus then (if a = 0x3800010 && half = .full then regWriteAt s p a half v else s)
  else regWriteAt s p a half v

/-- A host write of a register waits for the BAR4 writes before it (R369, R377; log 37): the command then comes again. -/
def hostWritesOpen (s : State) : Bool := s.txns.any (fun t => t.src = .host && (t.opc = 5 || t.opc = 6) && t.active)

/-- REGISTER_WRITE (R10–R12). -/
def execRegisterWrite (path : Path) (addr : BitVec 26) (half : RegHalf) (v : BitVec 64) (s : State) : Host.Outcome State Fault Refusal :=
  .next (if path = .bar0 then
      (if !pathUp s path then s else if hostWritesOpen s then wakeLink s else regWrite (wakeLink s) path addr.toNat half v)
    else regWrite s path addr.toNat half v)

end Sys2Proof.Machine
end

