-- ==== Sys2Proof/Machine/Mgmt.lean ====
section
/-!
DEFINITION. The management port and its requests (R411, R412), SPDM and measurements (R413–R415), and the SMBus sideband (R485).
-/
namespace Sys2Proof.Machine

/-! ## Link and sessions (R411) -/

/-- MGMT_AUTONEG (R411): a link forms, or 200 ms have passed without one and the port tries the other of 1000BASE-X and SGMII. -/
def execMgmtAutoneg (link : Bool) (s : State) : Host.Outcome State Fault Refusal :=
  .next (if !s.pins.porN || !s.glb.sensed || s.lc = 4 || s.mgmt.link then s
  else if link then { s with mgmt := { s.mgmt with link := true } }
  else
    let s := advance 200000000 s
    { s with mgmt := { s.mgmt with sgmii := !s.mgmt.sgmii } })

/-- MGMT_SESSION_OPEN (R411): a client whose chain ends at the management anchor, at most four at once. -/
def execMgmtSessionOpen (anchor : BitVec 384) (s : State) : Host.Outcome State Fault Refusal :=
  .next (if !s.pins.porN || !s.keysReady || !s.mgmt.link || s.mgmt.closed || s.mgmt.sessions.length ≥ 4 || mgmtAnchor s ≠ some anchor then s
  else { s with mgmt := { s.mgmt with sessions := s.mgmt.sessions ++ [{ id := s.mgmt.nextId, anchor := anchor }], nextId := s.mgmt.nextId + 1 } })

/-- MGMT_SESSION_CLOSE (R52, R411) (DEDUCED, log 75). -/
def execMgmtSessionClose (session : Nat) (s : State) : Host.Outcome State Fault Refusal :=
  .next (if !s.mgmt.sessions.any (fun m => m.id = session) then s
  else
    let s := endSession s (.mgmt session)
    { s with mgmt := { s.mgmt with sessions := s.mgmt.sessions.filter (fun m => m.id ≠ session) } })

/-! ## Requests (R412): STATUS 0 OK, 1 DENIED, 2 MALFORMED -/

/-- The header of a response (R412): OP, STATUS, TAG echoed, LEN of the payload, and ADDR, 0 in a response (DESIGN CHOICE, log 161). -/
def mgmtHeader (op status : Nat) (tag : BitVec 16) (len : Nat) : List Byte :=
  leBytes 1 op ++ leBytes 1 status ++ leBytes 2 tag.toNat ++ leBytes 4 len ++ leBytes 8 0

/-- A response: header and payload. -/
def mgmtAnswer (s : State) (session op status : Nat) (tag : BitVec 16) (data : List Byte) : State :=
  emit s (.mgmt session op status tag.toNat (mgmtHeader op status tag data.length ++ data))

/-- Blocks whose registers are read in the safe state over the SMBus, and with CHART through the management port (R449, R485). -/
def sideReadable (a : Nat) : Bool :=
  a < 0x80000 || (0x400000 ≤ a && a < 0x1000000) || (0x1800000 ≤ a && a < 0x2000000) || (0x3400000 ≤ a && a < 0x3C00000)

/-- Whether a register request is well formed: 1 to 512 registers, aligned, inside the space (DEDUCED, log 77). -/
def regSpan (addr n : Nat) : Bool := 1 ≤ n && n ≤ 512 && addr % 8 = 0 && addr + 8 * n ≤ 0x4000000

/-- Whether a register request is out of reach in the safe state (R449; the STATUS is DEDUCED, log 54). -/
def regShut (s : State) (addr n : Nat) : Bool :=
  s.fcu.safe && (List.range n).any (fun i => !sideReadable (addr + 8 * i) && !(0x100000 ≤ addr + 8 * i && addr + 8 * i < 0x200000))

/-- REG_READ (R412). -/
def execRegRead (session : Nat) (tag : BitVec 16) (len : BitVec 32) (addr : BitVec 64) (s : State) : Host.Outcome State Fault Refusal :=
  let (a, n) := (addr.toNat, len.toNat)
  .next (if !pathUp s (.mgmt session) then s
  else if !regSpan a n then mgmtAnswer s session 1 2 tag []
  else if regShut s a n then mgmtAnswer s session 1 1 tag []
  else mgmtAnswer s session 1 0 tag ((List.range n).flatMap (fun i => leBytes 8 (readBy s (.mgmt session) (a + 8 * i)).toNat)))

/-- REG_WRITE (R412): the registers in ascending order, each as a 64-bit write (DEDUCED, log 73). -/
def execRegWrite (session : Nat) (tag : BitVec 16) (addr : BitVec 64) (vals : List (BitVec 64)) (s : State) : Host.Outcome State Fault Refusal :=
  let a := addr.toNat
  .next (if !pathUp s (.mgmt session) then s
  else if !regSpan a vals.length then mgmtAnswer s session 2 2 tag []
  else if regShut s a vals.length then mgmtAnswer s session 2 1 tag []
  else mgmtAnswer (vals.zipIdx.foldl (fun s v => regWrite s (.mgmt session) (a + 8 * v.2) .full v.1) s) session 2 0 tag [])

/-- The check of a memory request before it is made: the STATUS that refuses it, if any (R412, R449) (DEDUCED, log 74). -/
def memStatus (s : State) (pa n : Nat) : Option Nat :=
  if n = 0 || n > 65536 then some 2
  else if s.fcu.safe then some 1
  else
    let outside : Option Bool := match s.cfg.locate pa with
      | .hbm r _ _ => some (pa + n > r.base + r.size)
      | .scratch _ _ _ => some (pa + n > remoteBase)
      | _ => none
    match outside with
    | none => some 1
    | some true => some 2
    | some false => if (spanLinesOf pa n).any (lineOccupied s) then some 1 else none

/-- The port's requests to memory, charged to regulator 65. -/
def mgmtHub : Hub := { tag := 0x67000, reg := 65 }

/-- The port served a memory request in the epoch (R414). -/
def memServed (s : State) : State := { s with wmk := { s.wmk with events := s.wmk.events ||| 4 } }

/-- MEM_READ (R412): a line that does not read answers DENIED. A request that must wait comes again (log 37). -/
def execMemRead (session : Nat) (tag : BitVec 16) (len : BitVec 32) (addr : BitVec 64) (s : State) : Host.Outcome State Fault Refusal :=
  let (pa, n) := (addr.toNat, len.toNat)
  .next (if !pathUp s (.mgmt session) then s
  else match memStatus s pa n with
    | some st => mgmtAnswer s session 3 st tag []
    | none => match mgmtHub.read (n / 128 + 2) (memServed s) pa n with
      | (s, .ok bs) => mgmtAnswer s session 3 0 tag bs
      | (s, .fail _ _) => mgmtAnswer (releaseTag s 0x67000) session 3 1 tag []
      | (s, .hold) => s)

/-- MEM_WRITE (R412, R435): a Felt image being measured or delivered is not written. -/
def execMemWrite (session : Nat) (tag : BitVec 16) (addr : BitVec 64) (data : List (BitVec 8)) (s : State) : Host.Outcome State Fault Refusal :=
  let (pa, n) := (addr.toNat, data.length)
  .next (if !pathUp s (.mgmt session) then s
  else match memStatus s pa n with
    | some st => mgmtAnswer s session 4 st tag []
    | none =>
      if feltBusyRange s pa n then mgmtAnswer s session 4 0 tag []
      else match mgmtHub.write (n / 128 + 2) (memServed s) pa data with
        | (s, .ok _) => settleAll (mgmtAnswer s session 4 0 tag [])
        | (s, .fail _ _) => mgmtAnswer (releaseTag s 0x67000) session 4 1 tag []
        | (s, .hold) => s)

/-! ## SPDM and measurements (R413–R415) -/

/-- Whether a binding reaches the responder: DOE through the endpoint, or a management session. -/
def spdmUp (s : State) : SpdmBind → Bool
  | .doe => s.pins.porN && s.glb.sensed && s.hostUp && !s.fcu.safe && s.lc ≠ 4
  | .mgmt n => pathUp s (.mgmt n)

def isDoe : SpdmBind → Bool
  | .doe => true
  | .mgmt _ => false

/-- Secure sessions of a binding, and with another number of them. -/
def spdmSessions (s : State) (b : SpdmBind) : Nat := if isDoe b then s.mgmt.spdmDoe else s.mgmt.spdmMgmt
def setSpdm (s : State) (b : SpdmBind) (n : Nat) : State :=
  if isDoe b then { s with mgmt := { s.mgmt with spdmDoe := n } } else { s with mgmt := { s.mgmt with spdmMgmt := n } }

/-- The responder's answer and the sessions it leaves (R413; the response codes are DMTF's, PRESUMED, log 55). Certificate slot 0 alone is
held; without keys nothing is signed; a fifth session is refused. -/
def spdmAnswer (keys : Bool) (n : Nat) : SpdmReq → Nat × Nat
  | .getVersion => (0x04, n)
  | .getCapabilities => (0x61, n)
  | .negotiate => (0x63, n)
  | .getDigests => (if keys then 0x01 else 0x7F, n)
  | .getCertificate k => (if keys && k = 0 then 0x02 else 0x7F, n)
  | .challenge k => (if keys && k = 0 then 0x03 else 0x7F, n)
  | .keyExchange => (if keys && n < 4 then 0x64 else 0x7F, n)
  | .finish => if keys && n < 4 then (0x65, n + 1) else (0x7F, n)
  | .endSession => if n > 0 then (0x6C, n - 1) else (0x7F, n)
  | .other _ => (0x7F, n)

/-- SPDM (R413). -/
def execSpdm (binding : SpdmBind) (req : SpdmReq) (s : State) : Host.Outcome State Fault Refusal :=
  .next (if !spdmUp s binding then s
  else
    let (code, n) := spdmAnswer s.keysReady (spdmSessions s binding) req
    let s := if isDoe binding then wakeLink s else s
    emit (setSpdm s binding n) (.spdm (isDoe binding) code))

/-- The Chart of the epoch reported: while one is applied, that of the epoch before (R415). -/
def reportedChart (s : State) : Option Chart :=
  if s.chart.epoch = 0 then none else if s.chart.state = 4 && s.chart.prior.isSome then s.chart.prior else s.chart.applied

/-- Block 3, 32 bytes. -/
def stateBlock (s : State) : List Byte :=
  leBytes 1 s.lc ++ leBytes 1 s.vault ++ leBytes 1 (if s.fuses.testPort ≠ 0 then 1 else 0) ++
    leBytes 1 (match reportedChart s with | some c => c.sec.debugPolicy | none => 0xFF) ++
    leBytes 8 ((List.range 16).foldl (fun a k => a + fld (s.siteLc k) (4 * k + 2) (4 * k)) 0) ++ leBytes 8 (rightsNow s).toNat ++
    leBytes 4 s.wmk.grantsEpoch ++ leBytes 4 s.wmk.grantsPor ++ leBytes 1 ((activeOwner s).getD 0xFF) ++ leBytes 3 0

/-- Block 4, 64 bytes. -/
def chartBlock (s : State) : List Byte :=
  match reportedChart s with
  | none => leBytes 60 0 ++ [0xFF] ++ leBytes 3 0
  | some c => digestBytes c.hash ++ leBytes 8 c.version.toNat ++ leBytes 4 s.chart.epoch ++ leBytes 1 (if c.strict then 1 else 0) ++ leBytes 3 0

/-- Block 11, 512 bytes. -/
def sliceTable (s : State) : List Byte :=
  (List.range 64).flatMap (fun n => leBytes 8 (fld (s.slice n).gen 63 32 + fld (s.slice n).pasid 27 8 + fld (s.slice n).state 2 0))

/-- Block 12, 16 bytes. -/
def epochEvents (s : State) : List Byte := leBytes 4 s.wmk.events.toNat ++ leBytes 4 s.pcie.losses ++ leBytes 8 s.time

/-- The fuses block 2 covers (R414): site codes, bad cores, repairs. -/
def fuseList (f : Fuses) : List Nat :=
  (List.range 8).map (fun k => Tab.get 0 f.codes k) ++ (List.range 6).map (fun k => (Tab.get 0 f.cRetired k).toNat) ++ f.retire ++
    (List.range 16).flatMap (fun k => [(f.laneCounts k).1, (f.laneCounts k).2]) ++ (List.range 8).map (fun j => Tab.get 0 f.ppr j)

/-- A measurement block by its index. -/
def measBlock (s : State) (i : Nat) : List Byte :=
  if i = 1 then digestBytes Config.romDigest
  else if i = 2 then digestBytes (Config.fuseDigest (fuseList s.fuses))
  else if i = 3 then stateBlock s
  else if i = 4 then chartBlock s
  else if i = 11 then sliceTable s
  else if i = 12 then epochEvents s
  else digestBytes (Tab.get 0 s.wmk.ms (i - 5))

/-- GET_MEASUREMENTS (R413–R415): one block, or all of them from one state; index 0 asks how many there are. A signature needs the attestation
key, which is that of the states at the last sensing (R402). -/
def execGetMeasurements (binding : SpdmBind) (index : Option (Fin 13)) (sign : Bool) (nonce : BitVec 256) (s : State) : Host.Outcome State Fault Refusal :=
  .next (if !spdmUp s binding then s
  else
    let s := if isDoe binding then wakeLink s else s
    if sign && !s.keysReady then emit s (.spdm (isDoe binding) 0x7F)
    else
      let is := match index with | none => (List.range 12).map (· + 1) | some i => if i.val = 0 then [] else [i.val]
      let blocks := is.map (fun i => (i, measBlock s i))
      emit s (.measurements (isDoe binding) blocks (if sign then some (Config.akSign s.wmk.lcBoot s.wmk.vaultBoot nonce (blocks.flatMap (·.2))) else none)))

/-! ## SMBus (R485) -/

/-- Whether a read over the sideband is answered: on a SCRAPPED module of WMK_STATUS alone (R408). -/
def smbusReads (s : State) (a : Nat) : Bool := if s.lc = 4 then a = 0x3800000 else sideReadable a

/-- SET_OFFSET (R485): 8-byte aligned (DEDUCED, log 72). -/
def execSetOffset (off : BitVec 32) (s : State) : Host.Outcome State Fault Refusal :=
  .next (if off.toNat % 8 ≠ 0 then s else { s with pins := { s.pins with sbOffset := off } })

/-- READ64 (R485). -/
def execRead64 (s : State) : Host.Outcome State Fault Refusal :=
  let a := s.pins.sbOffset.toNat
  .next (if smbusReads s a then emit s (.smbus (readBy s .smbus a)) else s)

/-- WRITE64 (R485): a retry through WMK_LC_CTL; anything else is not acknowledged. -/
def execWrite64 (off : BitVec 32) (v : BitVec 64) (s : State) : Host.Outcome State Fault Refusal :=
  .next (regWrite s .smbus off.toNat .full v)

end Sys2Proof.Machine
end

