-- ==== Sys2Proof/Machine/Prefetch.lean ====
section
/-!
DEFINITION. Stream prefetch (R190): the streams of a slice, of its commands, its tile movers and its Calender runs, and the walk ahead of them.
-/
namespace Sys2Proof.Machine

/-- A stream: its requester's tag and side, the windows of an HVA, its depth, its runs, bytes of a run and of a tile, and bytes done. -/
structure Stream where
  tag : Nat
  hv : Option (Tab HvWin)
  depth : Nat
  runs : Nat
  len : Nat
  tile : Nat
  done : Nat
  run : Nat → Nat

/-- The page at an address of a stream, converted where it is an HVA. -/
def Stream.pageAt (st : Stream) (addr : Nat) : Option Nat :=
  match st.hv with
  | none => some (addr % 2 ^ 64 / 4096)
  | some win => (hostView win (addr % 2 ^ 64)).map (· / 4096)

/-- Whether bytes `lo` to `hi - 1` of a stream touch a page. -/
def Stream.touches (st : Stream) (lo hi page : Nat) : Bool :=
  let first := lo / st.len
  (List.range (min st.runs ((hi + st.len - 1) / st.len) - first)).any (fun i =>
    let k := first + i
    let a := st.run k + (max lo (k * st.len) - k * st.len)
    let n := min hi ((k + 1) * st.len) - max lo (k * st.len)
    n > 0 && (List.range ((a % 4096 + n + 4095) / 4096)).any (fun j => st.pageAt (a / 4096 * 4096 + j * 4096) = some page))

/-- The tile, among those a stream runs ahead to, that a page is part of. -/
def Stream.tileAhead (st : Stream) (page : Nat) : Option Nat :=
  ((List.range (if st.depth = 0 then 4 else st.depth)).map (fun i => st.done / st.tile + 1 + i)).find? (fun t => st.touches (t * st.tile) ((t + 1) * st.tile) page)

/-- Bytes of a tile: E1 runs, or 64 KiB where E2 and E3 are 1. -/
def tileBytesOf (e0 e1 e2 e3 : Nat) : Nat := if e2 = 1 && e3 = 1 then 0x10000 else e0 * e1

/-- A side of a command as a stream. -/
def cmdStream (q : Nat) (c : Cmd) (dst : Bool) (runs len tile : Nat) (run : Nat → Nat) : Stream :=
  { tag := q + (if dst then 2 ^ 62 else 0), hv := if slotFlag c.raw (if dst then 4 else 3) then some c.win else none, depth := slotLe c.raw 4 1, runs := runs,
    len := len, tile := tile, done := c.elems * len + c.pos, run := run }

/-- The streams of a copy command: its runs, or the linear side of an indexed copy, or the pages of a stash (DEDUCED, log 157). -/
def cmdStreams (q : Nat) (c : Cmd) : List Stream :=
  let f := slotLe c.raw
  let e0 := f 0x20 4
  let tile := tileBytesOf e0 (f 0x24 4) (f 0x28 4) (f 0x2C 4)
  let linear := fun (dst : Bool) (n len : Nat) => cmdStream q c dst n len 0x10000 (fun k => f (if dst then 0x18 else 0x10) 8 + k * len)
  match c.opc with
  | 0x01 => [cmdStream q c false (elemTotal c) e0 tile (cmdRun c.raw 0x10 0x30), cmdStream q c true (elemTotal c) e0 tile (cmdRun c.raw 0x18 0x48)]
  | 0x02 => [cmdStream q c true (elemTotal c) e0 tile (cmdRun c.raw 0x18 0x48)]
  | 0x04 => [linear true (elemTotal c) (f 0x2C 4)]
  | 0x05 => [linear false (elemTotal c) (f 0x2C 4)]
  | 0x06 => [linear false (elemTotal c) 4096, linear true (elemTotal c) (if f 0x28 1 = 0 then 4096 else 2048)]
  | 0x07 => [linear false (elemTotal c) (if f 0x28 1 = 0 then 4096 else 2048), linear true (elemTotal c) 4096]
  | _ => []

/-- The stream of a descriptor that has started. -/
def descStream (c q : Nat) (d : TmDesc) : List Stream :=
  let f := descF d.raw
  if d.started && d.fail.isNone && (f.op = 1 || f.op = 2) then
    [{ tag := tmTag c q, hv := none, depth := f.prefetch, runs := f.total, len := f.e0, tile := tileBytesOf f.e0 f.e1 f.e2 f.e3, done := d.bytes,
       run := fun k => wrapInt 64 (runAddr f.g f.gs f.e1 f.e2 k) }]
  else []

/-- The operands of a started CAL_RUN as streams (R312): tiles of 64 KiB, the depth of the command header, as far as the furthest stack has come
(DEDUCED, log 157). -/
def calStreams (s : State) (r : CalRun) : List Stream :=
  let reached := (List.range 8).foldl (fun a m => max a (Tab.get 0 r.next m)) 0
  if r.started then (List.range (nOper r.table)).map (fun i =>
    let w := calWidth (opFmt r.table i)
    { tag := 2 ^ 61 + 8 * r.queue + i, hv := none, depth := r.field s 4 1, runs := 1, len := r.count s * w, tile := 0x10000, done := 64 * reached * w,
      run := fun _ => opBase r.table i })
  else []

/-- The streams of a slice under way. -/
def streamsOf (s : State) (slice : Nat) : List Stream :=
  ((s.queues.filter (fun p => queueSlice s p.1 = slice)).flatMap (fun p => match p.2.cmd with
    | some c => if c.result.isNone then cmdStreams p.1 c else []
    | none => [])) ++
  (s.runs.filter (fun r => r.slice = slice)).flatMap (calStreams s) ++
  (coresOfSlice s slice).flatMap (fun c => (List.range 4).flatMap (fun q => match tmHead s c q with | some d => descStream c q d | none => []))

/-- PREFETCH_WALK (R190): a page of the tiles a stream of the slice runs ahead to, which the shared TLB does not hold, is walked and installed there,
without a fault; at most 256 pages ahead. -/
def execPrefetchWalk (slice : Fin 64) (dva : BitVec 57) (s : State) : Host.Outcome State Fault Refusal :=
  let page := dva.toNat / 4096
  .next (match (streamsOf s slice).findSome? (fun st => (st.tileAhead page).map (fun t => (st.tag, t, st.done / st.tile))) with
    | none => s
    | some (tag, tile, now) =>
      let kept := s.gtu.ahead.filter (fun p => p.1 ≠ tag || p.2.1 > now)
      let new := !kept.contains (tag, tile, page)
      if s.quiet || (tlbFind s slice dva.toNat).isSome || (new && (kept.filter (fun p => p.1 = tag)).length ≥ 256) then s
      else
        let s := { s with gtu := { s.gtu with ahead := if new then (tag, tile, page) :: kept else kept } }
        settleAll (lookupOrWalk s (2 ^ 60 + slice * 2 ^ 46 + page) slice dva.toNat true).1)

end Sys2Proof.Machine
end

