-- ==== Sys2Proof/Machine/Dispatch.lean ====
section
/-!
DEFINITION. The meaning of every command: one arm per constructor, each a direct call of its meaning.
-/
namespace Sys2Proof.Machine

def exec (i : Instr) (s : State) : Host.Outcome State Fault Refusal :=
  match i with
  | .porNAssert => Sys2Proof.Machine.execPorNAssert s
  | .porNRelease bootSel perstScope => Sys2Proof.Machine.execPorNRelease bootSel perstScope s
  | .vinMainLoss => Sys2Proof.Machine.execVinMainLoss s
  | .rootEnWrite v => Sys2Proof.Machine.execRootEnWrite v s
  | .rootLock => Sys2Proof.Machine.execRootLock s
  | .rootLockTimeout => Sys2Proof.Machine.execRootLockTimeout s
  | .rootLockLost => Sys2Proof.Machine.execRootLockLost s
  | .sitePwrReq site => Sys2Proof.Machine.execSitePwrReq site s
  | .sitePowered site => Sys2Proof.Machine.execSitePowered site s
  | .siteClkFwd site => Sys2Proof.Machine.execSiteClkFwd site s
  | .siteHeld site => Sys2Proof.Machine.execSiteHeld site s
  | .siteRstRel site => Sys2Proof.Machine.execSiteRstRel site s
  | .siteTrain site => Sys2Proof.Machine.execSiteTrain site s
  | .siteTrainingDone site mods chFailed => Sys2Proof.Machine.execSiteTrainingDone site mods chFailed s
  | .siteReset site => Sys2Proof.Machine.execSiteReset site s
  | .siteResetResolved site => Sys2Proof.Machine.execSiteResetResolved site s
  | .siteCtlClear site bit => Sys2Proof.Machine.execSiteCtlClear site bit s
  | .siteLinkLost site => Sys2Proof.Machine.execSiteLinkLost site s
  | .ivrLimitReached pd => Sys2Proof.Machine.execIvrLimitReached pd s
  | .undervolt pd => Sys2Proof.Machine.execUndervolt pd s
  | .chartOpen path => Sys2Proof.Machine.execChartOpen path s
  | .chartVerify path => Sys2Proof.Machine.execChartVerify path s
  | .verifyDone => Sys2Proof.Machine.execVerifyDone s
  | .chartApply path => Sys2Proof.Machine.execChartApply path s
  | .applyDone => Sys2Proof.Machine.execApplyDone s
  | .chartAbort path => Sys2Proof.Machine.execChartAbort path s
  | .chartWindowWrite path off wide v => Sys2Proof.Machine.execChartWindowWrite path off wide v s
  | .chartSessionTimeout => Sys2Proof.Machine.execChartSessionTimeout s
  | .add core slot rd rs1 rs2 => Sys2Proof.Machine.execAdd core slot rd rs1 rs2 s
  | .sub core slot rd rs1 rs2 => Sys2Proof.Machine.execSub core slot rd rs1 rs2 s
  | .and core slot rd rs1 rs2 => Sys2Proof.Machine.execAnd core slot rd rs1 rs2 s
  | .or core slot rd rs1 rs2 => Sys2Proof.Machine.execOr core slot rd rs1 rs2 s
  | .xor core slot rd rs1 rs2 => Sys2Proof.Machine.execXor core slot rd rs1 rs2 s
  | .sll core slot rd rs1 rs2 => Sys2Proof.Machine.execSll core slot rd rs1 rs2 s
  | .srl core slot rd rs1 rs2 => Sys2Proof.Machine.execSrl core slot rd rs1 rs2 s
  | .sra core slot rd rs1 rs2 => Sys2Proof.Machine.execSra core slot rd rs1 rs2 s
  | .slt core slot rd rs1 rs2 => Sys2Proof.Machine.execSlt core slot rd rs1 rs2 s
  | .sltu core slot rd rs1 rs2 => Sys2Proof.Machine.execSltu core slot rd rs1 rs2 s
  | .seq core slot rd rs1 rs2 => Sys2Proof.Machine.execSeq core slot rd rs1 rs2 s
  | .min core slot rd rs1 rs2 => Sys2Proof.Machine.execMin core slot rd rs1 rs2 s
  | .max core slot rd rs1 rs2 => Sys2Proof.Machine.execMax core slot rd rs1 rs2 s
  | .minu core slot rd rs1 rs2 => Sys2Proof.Machine.execMinu core slot rd rs1 rs2 s
  | .maxu core slot rd rs1 rs2 => Sys2Proof.Machine.execMaxu core slot rd rs1 rs2 s
  | .addi core slot rd rs1 imm => Sys2Proof.Machine.execAddi core slot rd rs1 imm s
  | .andi core slot rd rs1 imm => Sys2Proof.Machine.execAndi core slot rd rs1 imm s
  | .ori core slot rd rs1 imm => Sys2Proof.Machine.execOri core slot rd rs1 imm s
  | .xori core slot rd rs1 imm => Sys2Proof.Machine.execXori core slot rd rs1 imm s
  | .slli core slot rd rs1 imm => Sys2Proof.Machine.execSlli core slot rd rs1 imm s
  | .srli core slot rd rs1 imm => Sys2Proof.Machine.execSrli core slot rd rs1 imm s
  | .srai core slot rd rs1 imm => Sys2Proof.Machine.execSrai core slot rd rs1 imm s
  | .slti core slot rd rs1 imm => Sys2Proof.Machine.execSlti core slot rd rs1 imm s
  | .sltiu core slot rd rs1 imm => Sys2Proof.Machine.execSltiu core slot rd rs1 imm s
  | .seqi core slot rd rs1 imm => Sys2Proof.Machine.execSeqi core slot rd rs1 imm s
  | .movi core slot rd imm => Sys2Proof.Machine.execMovi core slot rd imm s
  | .movh core slot rd rs1 imm => Sys2Proof.Machine.execMovh core slot rd rs1 imm s
  | .mul core slot rd rs1 rs2 => Sys2Proof.Machine.execMul core slot rd rs1 rs2 s
  | .mulh core slot rd rs1 rs2 => Sys2Proof.Machine.execMulh core slot rd rs1 rs2 s
  | .mulhu core slot rd rs1 rs2 => Sys2Proof.Machine.execMulhu core slot rd rs1 rs2 s
  | .div core rd rs1 rs2 => Sys2Proof.Machine.execDiv core rd rs1 rs2 s
  | .divu core rd rs1 rs2 => Sys2Proof.Machine.execDivu core rd rs1 rs2 s
  | .rem core rd rs1 rs2 => Sys2Proof.Machine.execRem core rd rs1 rs2 s
  | .remu core rd rs1 rs2 => Sys2Proof.Machine.execRemu core rd rs1 rs2 s
  | .csrr core rd csr => Sys2Proof.Machine.execCsrr core rd csr s
  | .csrw core csr rs1 => Sys2Proof.Machine.execCsrw core csr rs1 s
  | .beq core rs1 rs2 target => Sys2Proof.Machine.execBeq core rs1 rs2 target s
  | .bne core rs1 rs2 target => Sys2Proof.Machine.execBne core rs1 rs2 target s
  | .blt core rs1 rs2 target => Sys2Proof.Machine.execBlt core rs1 rs2 target s
  | .bge core rs1 rs2 target => Sys2Proof.Machine.execBge core rs1 rs2 target s
  | .bltu core rs1 rs2 target => Sys2Proof.Machine.execBltu core rs1 rs2 target s
  | .bgeu core rs1 rs2 target => Sys2Proof.Machine.execBgeu core rs1 rs2 target s
  | .j core target => Sys2Proof.Machine.execJ core target s
  | .jal core rd target => Sys2Proof.Machine.execJal core rd target s
  | .jr core rs1 => Sys2Proof.Machine.execJr core rs1 s
  | .loop core lc rs1 target => Sys2Proof.Machine.execLoop core lc rs1 target s
  | .brk core imm => Sys2Proof.Machine.execBrk core imm s
  | .halt core => Sys2Proof.Machine.execHalt core s
  | .haltComplete core => Sys2Proof.Machine.execHaltComplete core s
  | .emptyBundle core => Sys2Proof.Machine.execEmptyBundle core s
  | .ld8 core xt xa imm => Sys2Proof.Machine.execLd8 core xt xa imm s
  | .ld8u core xt xa imm => Sys2Proof.Machine.execLd8u core xt xa imm s
  | .ld16 core xt xa imm => Sys2Proof.Machine.execLd16 core xt xa imm s
  | .ld16u core xt xa imm => Sys2Proof.Machine.execLd16u core xt xa imm s
  | .ld32 core xt xa imm => Sys2Proof.Machine.execLd32 core xt xa imm s
  | .ld32u core xt xa imm => Sys2Proof.Machine.execLd32u core xt xa imm s
  | .ld64 core xt xa imm err => Sys2Proof.Machine.execLd64 core xt xa imm err s
  | .st8 core xt xa imm err => Sys2Proof.Machine.execSt8 core xt xa imm err s
  | .st16 core xt xa imm => Sys2Proof.Machine.execSt16 core xt xa imm s
  | .st32 core xt xa imm => Sys2Proof.Machine.execSt32 core xt xa imm s
  | .st64 core xt xa imm => Sys2Proof.Machine.execSt64 core xt xa imm s
  | .vld core vt xa imm ps => Sys2Proof.Machine.execVld core vt xa imm ps s
  | .vst core vt xa imm ps => Sys2Proof.Machine.execVst core vt xa imm ps s
  | .vldbc core vt xa imm ps => Sys2Proof.Machine.execVldbc core vt xa imm ps s
  | .amoadd core xt xa xb imm sz u => Sys2Proof.Machine.execAmoadd core xt xa xb imm sz u s
  | .amoswap core xt xa xb imm sz u => Sys2Proof.Machine.execAmoswap core xt xa xb imm sz u s
  | .amocas core xt xa xb xc imm sz u => Sys2Proof.Machine.execAmocas core xt xa xb xc imm sz u s
  | .amomin core xt xa xb imm sz u => Sys2Proof.Machine.execAmomin core xt xa xb imm sz u s
  | .amomax core xt xa xb imm sz u => Sys2Proof.Machine.execAmomax core xt xa xb imm sz u s
  | .semwait core sk xb => Sys2Proof.Machine.execSemwait core sk xb s
  | .semwaitResume core => Sys2Proof.Machine.execSemwaitResume core s
  | .sempost core xa sk xb => Sys2Proof.Machine.execSempost core xa sk xb s
  | .semset core sk xb => Sys2Proof.Machine.execSemset core sk xb s
  | .tmpush core tq xa => Sys2Proof.Machine.execTmpush core tq xa s
  | .tmdrain core tq => Sys2Proof.Machine.execTmdrain core tq s
  | .tmdrainResume core => Sys2Proof.Machine.execTmdrainResume core s
  | .fence core scope => Sys2Proof.Machine.execFence core scope s
  | .fenceDone core => Sys2Proof.Machine.execFenceDone core s
  | .vadd core slot f => Sys2Proof.Machine.execVadd core slot f s
  | .vsub core slot f => Sys2Proof.Machine.execVsub core slot f s
  | .vmul core slot f => Sys2Proof.Machine.execVmul core slot f s
  | .vfma core slot f => Sys2Proof.Machine.execVfma core slot f s
  | .vfms core slot f => Sys2Proof.Machine.execVfms core slot f s
  | .vfnma core slot f => Sys2Proof.Machine.execVfnma core slot f s
  | .vmin core slot f => Sys2Proof.Machine.execVmin core slot f s
  | .vmax core slot f => Sys2Proof.Machine.execVmax core slot f s
  | .vabs core slot f => Sys2Proof.Machine.execVabs core slot f s
  | .vneg core slot f => Sys2Proof.Machine.execVneg core slot f s
  | .vmov core slot f => Sys2Proof.Machine.execVmov core slot f s
  | .vsel core slot f => Sys2Proof.Machine.execVsel core slot f s
  | .vand core slot f => Sys2Proof.Machine.execVand core slot f s
  | .vor core slot f => Sys2Proof.Machine.execVor core slot f s
  | .vxor core slot f => Sys2Proof.Machine.execVxor core slot f s
  | .vsll core slot f => Sys2Proof.Machine.execVsll core slot f s
  | .vsrl core slot f => Sys2Proof.Machine.execVsrl core slot f s
  | .vsra core slot f => Sys2Proof.Machine.execVsra core slot f s
  | .vcmpeq core slot f => Sys2Proof.Machine.execVcmpeq core slot f s
  | .vcmpne core slot f => Sys2Proof.Machine.execVcmpne core slot f s
  | .vcmplt core slot f => Sys2Proof.Machine.execVcmplt core slot f s
  | .vcmple core slot f => Sys2Proof.Machine.execVcmple core slot f s
  | .vcmpgt core slot f => Sys2Proof.Machine.execVcmpgt core slot f s
  | .vcmpge core slot f => Sys2Proof.Machine.execVcmpge core slot f s
  | .pand core slot f => Sys2Proof.Machine.execPand core slot f s
  | .por core slot f => Sys2Proof.Machine.execPor core slot f s
  | .pxor core slot f => Sys2Proof.Machine.execPxor core slot f s
  | .pandn core slot f => Sys2Proof.Machine.execPandn core slot f s
  | .pnot core slot f => Sys2Proof.Machine.execPnot core slot f s
  | .psetn core slot f => Sys2Proof.Machine.execPsetn core slot f s
  | .vcvt core slot f => Sys2Proof.Machine.execVcvt core slot f s
  | .vcvtmx core f => Sys2Proof.Machine.execVcvtmx core f s
  | .vcvtfmx core slot f => Sys2Proof.Machine.execVcvtfmx core slot f s
  | .vredsum core f => Sys2Proof.Machine.execVredsum core f s
  | .vredmax core f => Sys2Proof.Machine.execVredmax core f s
  | .vredmin core f => Sys2Proof.Machine.execVredmin core f s
  | .vperm core f => Sys2Proof.Machine.execVperm core f s
  | .vrot core f => Sys2Proof.Machine.execVrot core f s
  | .vbcast core f => Sys2Proof.Machine.execVbcast core f s
  | .vmvxv core f => Sys2Proof.Machine.execVmvxv core f s
  | .vrcp core f => Sys2Proof.Machine.execVrcp core f s
  | .vrsqrt core f => Sys2Proof.Machine.execVrsqrt core f s
  | .vexp2 core f => Sys2Proof.Machine.execVexp2 core f s
  | .vlog2 core f => Sys2Proof.Machine.execVlog2 core f s
  | .ldw core wn xa fmt sp => Sys2Proof.Machine.execLdw core wn xa fmt sp s
  | .mma core f => Sys2Proof.Machine.execMma core f s
  | .accmv core vd ad row0 => Sys2Proof.Machine.execAccmv core vd ad row0 s
  | .accst core ad xa xs fmt => Sys2Proof.Machine.execAccst core ad xa xs fmt s
  | .accclr core ad => Sys2Proof.Machine.execAccclr core ad s
  | .xdrain core => Sys2Proof.Machine.execXdrain core s
  | .xdrainDone core => Sys2Proof.Machine.execXdrainDone core s
  | .matrixOpStart core => Sys2Proof.Machine.execMatrixOpStart core s
  | .tmGet core tq upto err => Sys2Proof.Machine.execTmGet core tq upto err s
  | .tmPut core tq upto => Sys2Proof.Machine.execTmPut core tq upto s
  | .tmLcopy core tq upto => Sys2Proof.Machine.execTmLcopy core tq upto s
  | .tmSignal core tq => Sys2Proof.Machine.execTmSignal core tq s
  | .tmDescComplete core tq => Sys2Proof.Machine.execTmDescComplete core tq s
  | .tmDescFail core tq => Sys2Proof.Machine.execTmDescFail core tq s
  | .haltReq site unit => Sys2Proof.Machine.execHaltReq site unit s
  | .coreReset site unit => Sys2Proof.Machine.execCoreReset site unit s
  | .coreResetDone core => Sys2Proof.Machine.execCoreResetDone core s
  | .launch q => Sys2Proof.Machine.execLaunch q s
  | .launchStart q => Sys2Proof.Machine.execLaunchStart q s
  | .launchComplete q => Sys2Proof.Machine.execLaunchComplete q s
  | .coreRetire core => Sys2Proof.Machine.execCoreRetire core s
  | .llaEnable => Sys2Proof.Machine.execLlaEnable s
  | .llaDisable => Sys2Proof.Machine.execLlaDisable s
  | .llaDisableDone => Sys2Proof.Machine.execLlaDisableDone s
  | .llaMaintStore slice ways reg => Sys2Proof.Machine.execLlaMaintStore slice ways reg s
  | .clean slice ways reg => Sys2Proof.Machine.execClean slice ways reg s
  | .invalidate slice ways reg => Sys2Proof.Machine.execInvalidate slice ways reg s
  | .cleanInvalidate slice ways reg => Sys2Proof.Machine.execCleanInvalidate slice ways reg s
  | .llaZero slice ways reg => Sys2Proof.Machine.execLlaZero slice ways reg s
  | .preload slice ways reg => Sys2Proof.Machine.execPreload slice ways reg s
  | .maintAbort slice ways reg => Sys2Proof.Machine.execMaintAbort slice ways reg s
  | .maintDone slice system => Sys2Proof.Machine.execMaintDone slice system s
  | .llaInitDone => Sys2Proof.Machine.execLlaInitDone s
  | .patrolScrub ch caLine err => Sys2Proof.Machine.execPatrolScrub ch caLine err s
  | .rowSpare ch spareLeft => Sys2Proof.Machine.execRowSpare ch spareLeft s
  | .channelRetire ch => Sys2Proof.Machine.execChannelRetire ch s
  | .stackTempRead stack temp => Sys2Proof.Machine.execStackTempRead stack temp s
  | .refresh ch => Sys2Proof.Machine.execRefresh ch s
  | .recalibration ch => Sys2Proof.Machine.execRecalibration ch s
  | .recalDone ch => Sys2Proof.Machine.execRecalDone ch s
  | .demandWalk slice port dva access => Sys2Proof.Machine.execDemandWalk slice port dva access s
  | .prefetchWalk slice dva => Sys2Proof.Machine.execPrefetchWalk slice dva s
  | .gtuCtxRootWrite slice v => Sys2Proof.Machine.execGtuCtxRootWrite slice v s
  | .invStore slice seq => Sys2Proof.Machine.execInvStore slice seq s
  | .invModule slice seq => Sys2Proof.Machine.execInvModule slice seq s
  | .invContext slice seq => Sys2Proof.Machine.execInvContext slice seq s
  | .invRange slice seq => Sys2Proof.Machine.execInvRange slice seq s
  | .invComplete => Sys2Proof.Machine.execInvComplete s
  | .rdShare m err => Sys2Proof.Machine.execRdShare m err s
  | .rdOwn m err => Sys2Proof.Machine.execRdOwn m err s
  | .upgrade m => Sys2Proof.Machine.execUpgrade m s
  | .rdPeek m err => Sys2Proof.Machine.execRdPeek m err s
  | .wrLine m => Sys2Proof.Machine.execWrLine m s
  | .wrBytes m => Sys2Proof.Machine.execWrBytes m s
  | .wrback m => Sys2Proof.Machine.execWrback m s
  | .atAdd m op0 op1 => Sys2Proof.Machine.execAtAdd m op0 op1 s
  | .atSwap m op0 op1 => Sys2Proof.Machine.execAtSwap m op0 op1 s
  | .atCas m op0 op1 => Sys2Proof.Machine.execAtCas m op0 op1 s
  | .atMin m op0 op1 => Sys2Proof.Machine.execAtMin m op0 op1 s
  | .atMax m op0 op1 => Sys2Proof.Machine.execAtMax m op0 op1 s
  | .snpShare site => Sys2Proof.Machine.execSnpShare site s
  | .snpDrop site => Sys2Proof.Machine.execSnpDrop site s
  | .snpPeek site => Sys2Proof.Machine.execSnpPeek site s
  | .gone m => Sys2Proof.Machine.execGone m s
  | .keptS m => Sys2Proof.Machine.execKeptS m s
  | .keptE m => Sys2Proof.Machine.execKeptE m s
  | .grantAck m => Sys2Proof.Machine.execGrantAck m s
  | .rspDone site => Sys2Proof.Machine.execRspDone site s
  | .pull site => Sys2Proof.Machine.execPull site s
  | .pullDone site => Sys2Proof.Machine.execPullDone site s
  | .atDone site => Sys2Proof.Machine.execAtDone site s
  | .rdData site => Sys2Proof.Machine.execRdData site s
  | .wrData m mask data => Sys2Proof.Machine.execWrData m mask data s
  | .snpData m data => Sys2Proof.Machine.execSnpData m data s
  | .creditReturn site toSite word => Sys2Proof.Machine.execCreditReturn site toSite word s
  | .creditInit m toSite => Sys2Proof.Machine.execCreditInit m toSite s
  | .limitOn site => Sys2Proof.Machine.execLimitOn site s
  | .limitOff site => Sys2Proof.Machine.execLimitOff site s
  | .unitReset site => Sys2Proof.Machine.execUnitReset site s
  | .unitStart site => Sys2Proof.Machine.execUnitStart site s
  | .unitHaltReq site => Sys2Proof.Machine.execUnitHaltReq site s
  | .unitState m slot => Sys2Proof.Machine.execUnitState m slot s
  | .image site => Sys2Proof.Machine.execImage site s
  | .timeSync site => Sys2Proof.Machine.execTimeSync site s
  | .timeEchoReq site tag => Sys2Proof.Machine.execTimeEchoReq site tag s
  | .timeEcho m => Sys2Proof.Machine.execTimeEcho m s
  | .snoopTimeout site txn => Sys2Proof.Machine.execSnoopTimeout site txn s
  | .fabricReleaseDone id => Sys2Proof.Machine.execFabricReleaseDone id s
  | .fabricAcquireDone id => Sys2Proof.Machine.execFabricAcquireDone id s
  | .regulatorPeriod => Sys2Proof.Machine.execRegulatorPeriod s
  | .deadlineLate ch => Sys2Proof.Machine.execDeadlineLate ch s
  | .urgentPromotion reg ch => Sys2Proof.Machine.execUrgentPromotion reg ch s
  | .floorService mc => Sys2Proof.Machine.execFloorService mc s
  | .strictPadRelease slice late => Sys2Proof.Machine.execStrictPadRelease slice late s
  | .nocRegRateWrite reg v => Sys2Proof.Machine.execNocRegRateWrite reg v s
  | .nocCntClear => Sys2Proof.Machine.execNocCntClear s
  | .tenantViewRefresh => Sys2Proof.Machine.execTenantViewRefresh s
  | .doorbell q off wide v => Sys2Proof.Machine.execDoorbell q off wide v s
  | .slotRefetch q => Sys2Proof.Machine.execSlotRefetch q s
  | .ceqRingWrite q v => Sys2Proof.Machine.execCeqRingWrite q v s
  | .queueStart q => Sys2Proof.Machine.execQueueStart q s
  | .queueStop q => Sys2Proof.Machine.execQueueStop q s
  | .queueAbort q => Sys2Proof.Machine.execQueueAbort q s
  | .dropResume q => Sys2Proof.Machine.execDropResume q s
  | .copy q upto => Sys2Proof.Machine.execCopy q upto s
  | .fill q upto => Sys2Proof.Machine.execFill q upto s
  | .inlineWrite q upto => Sys2Proof.Machine.execInlineWrite q upto s
  | .gather q upto => Sys2Proof.Machine.execGather q upto s
  | .scatter q upto => Sys2Proof.Machine.execScatter q upto s
  | .stash q upto => Sys2Proof.Machine.execStash q upto s
  | .unstash q upto => Sys2Proof.Machine.execUnstash q upto s
  | .migrate q => Sys2Proof.Machine.execMigrate q s
  | .migrateCopy q => Sys2Proof.Machine.execMigrateCopy q s
  | .migrateSwap q => Sys2Proof.Machine.execMigrateSwap q s
  | .adviseTranslate q => Sys2Proof.Machine.execAdviseTranslate q s
  | .advisePin q => Sys2Proof.Machine.execAdvisePin q s
  | .adviseUnpin q => Sys2Proof.Machine.execAdviseUnpin q s
  | .signalAdd q => Sys2Proof.Machine.execSignalAdd q s
  | .signalSet q => Sys2Proof.Machine.execSignalSet q s
  | .signalMax q => Sys2Proof.Machine.execSignalMax q s
  | .wait q => Sys2Proof.Machine.execWait q s
  | .waitPoll q => Sys2Proof.Machine.execWaitPoll q s
  | .waitTimeout q => Sys2Proof.Machine.execWaitTimeout q s
  | .fenceRelease q => Sys2Proof.Machine.execFenceRelease q s
  | .fenceAcquire q => Sys2Proof.Machine.execFenceAcquire q s
  | .fenceReleaseAcquire q => Sys2Proof.Machine.execFenceReleaseAcquire q s
  | .resume q => Sys2Proof.Machine.execResume q s
  | .commandComplete q => Sys2Proof.Machine.execCommandComplete q s
  | .irqTimer q => Sys2Proof.Machine.execIrqTimer q s
  | .engineRetire u => Sys2Proof.Machine.execEngineRetire u s
  | .calRun q => Sys2Proof.Machine.execCalRun q s
  | .calRunStart q => Sys2Proof.Machine.execCalRunStart q s
  | .chunkStart eng => Sys2Proof.Machine.execChunkStart eng s
  | .chunkExecute eng => Sys2Proof.Machine.execChunkExecute eng s
  | .calRunDone q => Sys2Proof.Machine.execCalRunDone q s
  | .calLd eng => Sys2Proof.Machine.execCalLd eng s
  | .calSt eng => Sys2Proof.Machine.execCalSt eng s
  | .calRnd eng => Sys2Proof.Machine.execCalRnd eng s
  | .calAdd eng => Sys2Proof.Machine.execCalAdd eng s
  | .calSub eng => Sys2Proof.Machine.execCalSub eng s
  | .calMul eng => Sys2Proof.Machine.execCalMul eng s
  | .calFma eng => Sys2Proof.Machine.execCalFma eng s
  | .calFnma eng => Sys2Proof.Machine.execCalFnma eng s
  | .calMin eng => Sys2Proof.Machine.execCalMin eng s
  | .calMax eng => Sys2Proof.Machine.execCalMax eng s
  | .calAbs eng => Sys2Proof.Machine.execCalAbs eng s
  | .calNeg eng => Sys2Proof.Machine.execCalNeg eng s
  | .calSign eng => Sys2Proof.Machine.execCalSign eng s
  | .calSqrt eng => Sys2Proof.Machine.execCalSqrt eng s
  | .calDiv eng => Sys2Proof.Machine.execCalDiv eng s
  | .calRcp eng => Sys2Proof.Machine.execCalRcp eng s
  | .calRsqrt eng => Sys2Proof.Machine.execCalRsqrt eng s
  | .accsq eng => Sys2Proof.Machine.execAccsq eng s
  | .allReduce q => Sys2Proof.Machine.execAllReduce q s
  | .reduceScatter q => Sys2Proof.Machine.execReduceScatter q s
  | .allGather q => Sys2Proof.Machine.execAllGather q s
  | .broadcast q => Sys2Proof.Machine.execBroadcast q s
  | .allToAll q => Sys2Proof.Machine.execAllToAll q s
  | .collReduce col element => Sys2Proof.Machine.execCollReduce col element s
  | .portUp port => Sys2Proof.Machine.execPortUp port s
  | .portDown port => Sys2Proof.Machine.execPortDown port s
  | .portTrainTimeout port => Sys2Proof.Machine.execPortTrainTimeout port s
  | .nxWrite p => Sys2Proof.Machine.execNxWrite p s
  | .readReq p => Sys2Proof.Machine.execReadReq p s
  | .readResp p => Sys2Proof.Machine.execReadResp p s
  | .nxAtomicAdd p => Sys2Proof.Machine.execNxAtomicAdd p s
  | .nxAtomicSwap p => Sys2Proof.Machine.execNxAtomicSwap p s
  | .nxAtomicCas p => Sys2Proof.Machine.execNxAtomicCas p s
  | .nxAtomicMin p => Sys2Proof.Machine.execNxAtomicMin p s
  | .nxAtomicMax p => Sys2Proof.Machine.execNxAtomicMax p s
  | .atomicResp p => Sys2Proof.Machine.execAtomicResp p s
  | .comp p => Sys2Proof.Machine.execComp p s
  | .collData p => Sys2Proof.Machine.execCollData p s
  | .collHeader p => Sys2Proof.Machine.execCollHeader p s
  | .collAbandon p => Sys2Proof.Machine.execCollAbandon p s
  | .tack p => Sys2Proof.Machine.execTack p s
  | .tackTimeout job peer => Sys2Proof.Machine.execTackTimeout job peer s
  | .retransmitTimeout job peer psn => Sys2Proof.Machine.execRetransmitTimeout job peer psn s
  | .keepalive p => Sys2Proof.Machine.execKeepalive p s
  | .keepaliveTimer job peer => Sys2Proof.Machine.execKeepaliveTimer job peer s
  | .keepaliveExpiry job peer => Sys2Proof.Machine.execKeepaliveExpiry job peer s
  | .nxOpen p => Sys2Proof.Machine.execNxOpen p s
  | .unfence => Sys2Proof.Machine.execUnfence s
  | .keyExch p kind signer sigOk => Sys2Proof.Machine.execKeyExch p kind signer sigOk s
  | .join slice => Sys2Proof.Machine.execJoin slice s
  | .helloTimer slice => Sys2Proof.Machine.execHelloTimer slice s
  | .joinTimeout slice => Sys2Proof.Machine.execJoinTimeout slice s
  | .leave slice => Sys2Proof.Machine.execLeave slice s
  | .rekey slice => Sys2Proof.Machine.execRekey slice s
  | .oldKeyErase slice => Sys2Proof.Machine.execOldKeyErase slice s
  | .timeReq slice p => Sys2Proof.Machine.execTimeReq slice p s
  | .timeResp p => Sys2Proof.Machine.execTimeResp p s
  | .roceSend r => Sys2Proof.Machine.execRoceSend r s
  | .roceSendImm r => Sys2Proof.Machine.execRoceSendImm r s
  | .roceRdmaWrite r => Sys2Proof.Machine.execRoceRdmaWrite r s
  | .roceRdmaWriteImm r => Sys2Proof.Machine.execRoceRdmaWriteImm r s
  | .roceRdmaRead r => Sys2Proof.Machine.execRoceRdmaRead r s
  | .roceUnsupported r => Sys2Proof.Machine.execRoceUnsupported r s
  | .qpStateWrite qpn state => Sys2Proof.Machine.execQpStateWrite qpn state s
  | .bar4Read off len => Sys2Proof.Machine.execBar4Read off len s
  | .bar4Write off data relaxed => Sys2Proof.Machine.execBar4Write off data relaxed s
  | .bar4WinWrite path v => Sys2Proof.Machine.execBar4WinWrite path v s
  | .hostCompletion id ans data => Sys2Proof.Machine.execHostCompletion id ans data s
  | .completionTimeout id => Sys2Proof.Machine.execCompletionTimeout id s
  | .atsInvalidate window page => Sys2Proof.Machine.execAtsInvalidate window page s
  | .perstN => Sys2Proof.Machine.execPerstN s
  | .hotReset => Sys2Proof.Machine.execHotReset s
  | .flr => Sys2Proof.Machine.execFlr s
  | .hostLoss => Sys2Proof.Machine.execHostLoss s
  | .linkUp speed width => Sys2Proof.Machine.execLinkUp speed width s
  | .retrain => Sys2Proof.Machine.execRetrain s
  | .retrainLong => Sys2Proof.Machine.execRetrainLong s
  | .l1Entry => Sys2Proof.Machine.execL1Entry s
  | .l12Entry => Sys2Proof.Machine.execL12Entry s
  | .l0pEntry => Sys2Proof.Machine.execL0pEntry s
  | .keyProg stream => Sys2Proof.Machine.execKeyProg stream s
  | .bind slice pasid => Sys2Proof.Machine.execBind slice pasid s
  | .bindDone slice => Sys2Proof.Machine.execBindDone slice s
  | .sliceReset slice mode => Sys2Proof.Machine.execSliceReset slice mode s
  | .unbind slice mode => Sys2Proof.Machine.execUnbind slice mode s
  | .sliceInflightZero slice => Sys2Proof.Machine.execSliceInflightZero slice s
  | .sliceResetDone slice => Sys2Proof.Machine.execSliceResetDone slice s
  | .scrubDone slice => Sys2Proof.Machine.execScrubDone slice s
  | .mirrorWrite slice => Sys2Proof.Machine.execMirrorWrite slice s
  | .controlWord slice w => Sys2Proof.Machine.execControlWord slice w s
  | .lcTransition path unit target => Sys2Proof.Machine.execLcTransition path unit target s
  | .lcProgramDone failAt => Sys2Proof.Machine.execLcProgramDone failAt s
  | .provisionOwner path => Sys2Proof.Machine.execProvisionOwner path s
  | .provisionBootCa path => Sys2Proof.Machine.execProvisionBootCa path s
  | .measExtend path len slot => Sys2Proof.Machine.execMeasExtend path len slot s
  | .measExtendDone => Sys2Proof.Machine.execMeasExtendDone s
  | .genNonce path => Sys2Proof.Machine.execGenNonce path s
  | .nonceExpiry => Sys2Proof.Machine.execNonceExpiry s
  | .tokenPresent path => Sys2Proof.Machine.execTokenPresent path s
  | .debugLock path => Sys2Proof.Machine.execDebugLock path s
  | .debugSessionExpiry => Sys2Proof.Machine.execDebugSessionExpiry s
  | .debugAccess a => Sys2Proof.Machine.execDebugAccess a s
  | .mgmtSessionOpen anchor => Sys2Proof.Machine.execMgmtSessionOpen anchor s
  | .mgmtSessionClose session => Sys2Proof.Machine.execMgmtSessionClose session s
  | .mgmtAutoneg link => Sys2Proof.Machine.execMgmtAutoneg link s
  | .regRead session tag len addr => Sys2Proof.Machine.execRegRead session tag len addr s
  | .regWrite session tag addr vals => Sys2Proof.Machine.execRegWrite session tag addr vals s
  | .memRead session tag len addr => Sys2Proof.Machine.execMemRead session tag len addr s
  | .memWrite session tag addr data => Sys2Proof.Machine.execMemWrite session tag addr data s
  | .spdm binding req => Sys2Proof.Machine.execSpdm binding req s
  | .getMeasurements binding index sign nonce => Sys2Proof.Machine.execGetMeasurements binding index sign nonce s
  | .stepClocks => Sys2Proof.Machine.execStepClocks s
  | .stepPowerSites => Sys2Proof.Machine.execStepPowerSites s
  | .powerSitesDone ok => Sys2Proof.Machine.execPowerSitesDone ok s
  | .stepTrain => Sys2Proof.Machine.execStepTrain s
  | .trainDone => Sys2Proof.Machine.execTrainDone s
  | .stepLlaInit => Sys2Proof.Machine.execStepLlaInit s
  | .stepOpen => Sys2Proof.Machine.execStepOpen s
  | .feltGo h => Sys2Proof.Machine.execFeltGo h s
  | .feltMeasureDone h => Sys2Proof.Machine.execFeltMeasureDone h s
  | .feltDeliverDone h => Sys2Proof.Machine.execFeltDeliverDone h s
  | .feltNoAck h => Sys2Proof.Machine.execFeltNoAck h s
  | .fcuSelfCheck => Sys2Proof.Machine.execFcuSelfCheck s
  | .safeSquelch => Sys2Proof.Machine.execSafeSquelch s
  | .fcuQBaseWrite v => Sys2Proof.Machine.execFcuQBaseWrite v s
  | .baseSensorRead sensor temp => Sys2Proof.Machine.execBaseSensorRead sensor temp s
  | .powerGate u => Sys2Proof.Machine.execPowerGate u s
  | .ageingMeasurement slacks => Sys2Proof.Machine.execAgeingMeasurement slacks s
  | .surveyTestStart u => Sys2Proof.Machine.execSurveyTestStart u s
  | .surveySegmentDone u pass => Sys2Proof.Machine.execSurveySegmentDone u pass s
  | .surveyDeadline u => Sys2Proof.Machine.execSurveyDeadline u s
  | .setOffset off => Sys2Proof.Machine.execSetOffset off s
  | .read64 => Sys2Proof.Machine.execRead64 s
  | .write64 off v => Sys2Proof.Machine.execWrite64 off v s
  | .registerWrite path addr half v => Sys2Proof.Machine.execRegisterWrite path addr half v s
  | .heartbeatEdge => Sys2Proof.Machine.execHeartbeatEdge s
  | .pllLockLost pll => Sys2Proof.Machine.execPllLockLost pll s
  | .entropyHealthFail => Sys2Proof.Machine.execEntropyHealthFail s
  | .l0Return => Sys2Proof.Machine.execL0Return s
  | .l1Exit => Sys2Proof.Machine.execL1Exit s
  | .l0pExit => Sys2Proof.Machine.execL0pExit s
  | .flrComplete => Sys2Proof.Machine.execFlrComplete s
  | .d3hotEntry d3 => Sys2Proof.Machine.execD3hotEntry d3 s
  | .pfcFrame port prio pause => Sys2Proof.Machine.execPfcFrame port prio pause s

end Sys2Proof.Machine
end

