-- ==== Sys2Proof/WellFormed.lean ====
section
/-!
DEFINITION. What the types of the commands do not check: the lengths of the byte strings and lists a command carries.
-/
namespace Sys2Proof

/-- A Meridian packet: at most PAYLOAD_MAX = 4,096 payload bytes (R337, R338). -/
def NxPkt.wf (p : NxPkt) : Bool := p.payload.length ≤ 4096

/-- A RoCE packet: at most one path MTU of 4,096 bytes (R351). -/
def RocePkt.wf (r : RocePkt) : Bool := r.payload.length ≤ 4096

/-- A debug access carries at most 255 bytes. -/
def DebugAcc.wf : DebugAcc → Bool
  | .tileWrite _ _ d => d.length ≤ 255
  | .imemWrite _ _ d => d.length ≤ 255
  | .memWrite _ d => d.length ≤ 255
  | _ => true

/-- A core has 32 banks (R74). -/
def SurveyKind.wf : SurveyKind → Bool
  | .bank _ b => b.toNat < 32
  | _ => true

/-- A command some agent can send. BAR4 writes carry at most Max_Payload_Size 512 bytes and BAR4 reads ask for at most
Max_Read_Request_Size 4,096 (R365); REG_WRITE carries 1 to 512 registers and MEM_WRITE 1 byte to 64 KiB (R412); a site has at
most 16 UCIe modules (R18); a domain is measured at most once in one measurement (R466) (DESIGN CHOICE, log 12). -/
def WellFormed : Instr → Bool
  | .siteTrainingDone _ mods _ => mods.length ≤ 16
  | .nxWrite p => p.wf
  | .readReq p => p.wf
  | .readResp p => p.wf
  | .nxAtomicAdd p => p.wf
  | .nxAtomicSwap p => p.wf
  | .nxAtomicCas p => p.wf
  | .nxAtomicMin p => p.wf
  | .nxAtomicMax p => p.wf
  | .atomicResp p => p.wf
  | .comp p => p.wf
  | .collData p => p.wf
  | .collHeader p => p.wf
  | .collAbandon p => p.wf
  | .tack p => p.wf
  | .keepalive p => p.wf
  | .nxOpen p => p.wf
  | .keyExch p _ _ _ => p.wf
  | .timeReq _ (some p) => p.wf
  | .timeResp p => p.wf
  | .roceSend r => r.wf
  | .roceSendImm r => r.wf
  | .roceRdmaWrite r => r.wf
  | .roceRdmaWriteImm r => r.wf
  | .roceRdmaRead r => r.wf
  | .roceUnsupported r => r.wf
  | .bar4Read _ len => 1 ≤ len.toNat && len.toNat ≤ 4096
  | .bar4Write _ data _ => 1 ≤ data.length && data.length ≤ 512
  | .regWrite _ _ _ vals => vals.length ≤ 512
  | .memWrite _ _ _ data => data.length ≤ 65536
  | .ageingMeasurement slacks => slacks.length ≤ 48
  | .debugAccess a => a.wf
  | .surveyTestStart u => u.wf
  | .surveySegmentDone u _ => u.wf
  | .surveyDeadline u => u.wf
  | _ => true

end Sys2Proof
end

