-- ==== Sys2Proof/Safety.lean ====
section
/-!
DEFINITION. What a run is held to: every command waiting is one an agent can send (WellFormed.lean), and the module is not in the safe state.
-/
namespace Sys2Proof.Machine

/-- The module is in the safe state (R449). -/
def State.safe (s : State) : Bool := s.fcu.safe

/-- Every command waiting is one an agent can send. -/
def State.wellSent (s : State) : Bool := s.pending.all WellFormed

/-- A state a safe run may be in. -/
def State.good (s : State) : Bool := s.wellSent && !s.safe

end Sys2Proof.Machine
end

