-- ==== Sys2Proof/Certificates/Slice0/Obligations.lean ====
section
/-!
DEFINITION. The statements about the module for the provers, and the terms they are stated in.
-/
namespace Sys2Proof.Machine

/-! ## Cores -/

/-- The core of logical number `n`, where it issues now and its bundle holds the word `w` in slot `k` and nothing else, with no trap, no wait and
no stall. -/
def aloneAt (s : State) (n : Fin 144) (k w : Nat) : Option Nat :=
  (coreOf s n).filter (fun c =>
    let x := s.core c
    let b := bundleAt x
    issuing s c && headerOk b && b % 64 = 2 ^ k && slotOf b k = w && (bundleTrap s c x b (x.pc.toNat / 64)).isNone &&
      waitsFor x b = .none && !stalled s c x b)

/-- Index of the bundle at the PC. -/
def Core.idx (x : Core) : Nat := x.pc.toNat / 64

/-- A core after a bundle that ends neither a loop nor the memory: the PC is at the next bundle. -/
def Core.onward (x : Core) : Core := { x with pc := BitVec.ofNat 18 ((x.idx + 1) * 64), pastEnd := false }

/-- The next bundle is inside instruction memory and no loop ends at this one. -/
def Core.plain (x : Core) : Bool := x.idx + 1 < 4096 && x.loops.all (fun l => l.stop ≠ x.idx)

/-- A core issues now, its bundle is legal and holds the word `w` in slot `k` and nothing else. -/
abbrev soleAt (s : State) (n : Fin 144) (k w c : Nat) : Prop :=
  coreOf s n = some c ∧ issuing s c = true ∧ headerOk (bundleAt (s.core c)) = true ∧ bundleAt (s.core c) % 64 = 2 ^ k ∧
    slotOf (bundleAt (s.core c)) k = w ∧ illegalSlot (s.core c) (bundleAt (s.core c)) (s.core c).idx = none

/-- A scalar operation: its core, slot and word, the register it writes and the value the spec gives it (R99, R100, R65). -/
structure Alu where
  core : Fin 144
  slot : Nat
  word : Nat
  rd : Nat
  val : State → Nat → Word

/-- The scalar operations that write an X register. -/
def aluOf : Instr → Option Alu
  | .add n slot rd a b => some ⟨n, slot, scWord 0x01 rd a b 0 0, rd.toNat, fun s c => let a := (s.core c).xr a.toNat; let b := (s.core c).xr b.toNat; a + b⟩
  | .sub n slot rd a b => some ⟨n, slot, scWord 0x02 rd a b 0 0, rd.toNat, fun s c => let a := (s.core c).xr a.toNat; let b := (s.core c).xr b.toNat; a - b⟩
  | .and n slot rd a b => some ⟨n, slot, scWord 0x03 rd a b 0 0, rd.toNat, fun s c => let a := (s.core c).xr a.toNat; let b := (s.core c).xr b.toNat; a &&& b⟩
  | .or n slot rd a b => some ⟨n, slot, scWord 0x04 rd a b 0 0, rd.toNat, fun s c => let a := (s.core c).xr a.toNat; let b := (s.core c).xr b.toNat; a ||| b⟩
  | .xor n slot rd a b => some ⟨n, slot, scWord 0x05 rd a b 0 0, rd.toNat, fun s c => let a := (s.core c).xr a.toNat; let b := (s.core c).xr b.toNat; a ^^^ b⟩
  | .sll n slot rd a b => some ⟨n, slot, scWord 0x06 rd a b 0 0, rd.toNat, fun s c => let a := (s.core c).xr a.toNat; let b := (s.core c).xr b.toNat; a <<< (b.toNat % 64)⟩
  | .srl n slot rd a b => some ⟨n, slot, scWord 0x07 rd a b 0 0, rd.toNat, fun s c => let a := (s.core c).xr a.toNat; let b := (s.core c).xr b.toNat; a >>> (b.toNat % 64)⟩
  | .sra n slot rd a b => some ⟨n, slot, scWord 0x08 rd a b 0 0, rd.toNat, fun s c => let a := (s.core c).xr a.toNat; let b := (s.core c).xr b.toNat; a.sshiftRight (b.toNat % 64)⟩
  | .slt n slot rd a b => some ⟨n, slot, scWord 0x09 rd a b 0 0, rd.toNat, fun s c => let a := (s.core c).xr a.toNat; let b := (s.core c).xr b.toNat; if a.toInt < b.toInt then 1 else 0⟩
  | .sltu n slot rd a b => some ⟨n, slot, scWord 0x0A rd a b 0 0, rd.toNat, fun s c => let a := (s.core c).xr a.toNat; let b := (s.core c).xr b.toNat; if a.toNat < b.toNat then 1 else 0⟩
  | .seq n slot rd a b => some ⟨n, slot, scWord 0x0B rd a b 0 0, rd.toNat, fun s c => let a := (s.core c).xr a.toNat; let b := (s.core c).xr b.toNat; if a = b then 1 else 0⟩
  | .min n slot rd a b => some ⟨n, slot, scWord 0x0C rd a b 0 0, rd.toNat, fun s c => let a := (s.core c).xr a.toNat; let b := (s.core c).xr b.toNat; if a.toInt < b.toInt then a else b⟩
  | .max n slot rd a b => some ⟨n, slot, scWord 0x0D rd a b 0 0, rd.toNat, fun s c => let a := (s.core c).xr a.toNat; let b := (s.core c).xr b.toNat; if a.toInt < b.toInt then b else a⟩
  | .minu n slot rd a b => some ⟨n, slot, scWord 0x0E rd a b 0 0, rd.toNat, fun s c => let a := (s.core c).xr a.toNat; let b := (s.core c).xr b.toNat; if a.toNat < b.toNat then a else b⟩
  | .maxu n slot rd a b => some ⟨n, slot, scWord 0x0F rd a b 0 0, rd.toNat, fun s c => let a := (s.core c).xr a.toNat; let b := (s.core c).xr b.toNat; if a.toNat < b.toNat then b else a⟩
  | .mul n slot rd a b => some ⟨n, slot, scWord 0x20 rd a b 0 0, rd.toNat, fun s c => let a := (s.core c).xr a.toNat; let b := (s.core c).xr b.toNat; BitVec.ofNat 64 (a.toNat * b.toNat)⟩
  | .mulh n slot rd a b => some ⟨n, slot, scWord 0x21 rd a b 0 0, rd.toNat, fun s c => let a := (s.core c).xr a.toNat; let b := (s.core c).xr b.toNat; BitVec.ofInt 64 (a.toInt * b.toInt / 2 ^ 64)⟩
  | .mulhu n slot rd a b => some ⟨n, slot, scWord 0x22 rd a b 0 0, rd.toNat, fun s c => let a := (s.core c).xr a.toNat; let b := (s.core c).xr b.toNat; BitVec.ofNat 64 (a.toNat * b.toNat / 2 ^ 64)⟩
  | .addi n slot rd a imm => some ⟨n, slot, scWord 0x11 rd a 0 0 imm.toNat, rd.toNat, fun s c => let a := (s.core c).xr a.toNat; let b := imm.signExtend 64; a + b⟩
  | .andi n slot rd a imm => some ⟨n, slot, scWord 0x13 rd a 0 0 imm.toNat, rd.toNat, fun s c => let a := (s.core c).xr a.toNat; let b := imm.signExtend 64; a &&& b⟩
  | .ori n slot rd a imm => some ⟨n, slot, scWord 0x14 rd a 0 0 imm.toNat, rd.toNat, fun s c => let a := (s.core c).xr a.toNat; let b := imm.signExtend 64; a ||| b⟩
  | .xori n slot rd a imm => some ⟨n, slot, scWord 0x15 rd a 0 0 imm.toNat, rd.toNat, fun s c => let a := (s.core c).xr a.toNat; let b := imm.signExtend 64; a ^^^ b⟩
  | .slli n slot rd a imm => some ⟨n, slot, scWord 0x16 rd a 0 0 imm.toNat, rd.toNat, fun s c => let a := (s.core c).xr a.toNat; a <<< imm.toNat⟩
  | .srli n slot rd a imm => some ⟨n, slot, scWord 0x17 rd a 0 0 imm.toNat, rd.toNat, fun s c => let a := (s.core c).xr a.toNat; a >>> imm.toNat⟩
  | .srai n slot rd a imm => some ⟨n, slot, scWord 0x18 rd a 0 0 imm.toNat, rd.toNat, fun s c => let a := (s.core c).xr a.toNat; a.sshiftRight imm.toNat⟩
  | .slti n slot rd a imm => some ⟨n, slot, scWord 0x19 rd a 0 0 imm.toNat, rd.toNat, fun s c => let a := (s.core c).xr a.toNat; let b := imm.signExtend 64; if a.toInt < b.toInt then 1 else 0⟩
  | .sltiu n slot rd a imm => some ⟨n, slot, scWord 0x1A rd a 0 0 imm.toNat, rd.toNat, fun s c => let a := (s.core c).xr a.toNat; let b := imm.signExtend 64; if a.toNat < b.toNat then 1 else 0⟩
  | .seqi n slot rd a imm => some ⟨n, slot, scWord 0x1B rd a 0 0 imm.toNat, rd.toNat, fun s c => let a := (s.core c).xr a.toNat; let b := imm.signExtend 64; if a = b then 1 else 0⟩
  | .movh n slot rd a imm => some ⟨n, slot, scWord 0x1D rd a 0 0 imm.toNat, rd.toNat, fun s c => let a := (s.core c).xr a.toNat; BitVec.ofNat 64 (imm.toNat * 2 ^ 32 + a.toNat % 2 ^ 32)⟩
  | .movi n slot rd imm => some ⟨n, slot, scWord 0x1C rd 0 0 0 imm.toNat, rd.toNat, fun _ _ => imm.signExtend 64⟩
  | .div n rd a b => some ⟨n, 1, scWord 0x28 rd a b 0 0, rd.toNat, fun s c => let a := (s.core c).xr a.toNat; let b := (s.core c).xr b.toNat; if b = 0 then BitVec.allOnes 64 else BitVec.ofInt 64 (Int.tdiv a.toInt b.toInt)⟩
  | .divu n rd a b => some ⟨n, 1, scWord 0x29 rd a b 0 0, rd.toNat, fun s c => let a := (s.core c).xr a.toNat; let b := (s.core c).xr b.toNat; if b = 0 then BitVec.allOnes 64 else BitVec.ofNat 64 (a.toNat / b.toNat)⟩
  | .rem n rd a b => some ⟨n, 1, scWord 0x2A rd a b 0 0, rd.toNat, fun s c => let a := (s.core c).xr a.toNat; let b := (s.core c).xr b.toNat; if b = 0 then a else BitVec.ofInt 64 (Int.tmod a.toInt b.toInt)⟩
  | .remu n rd a b => some ⟨n, 1, scWord 0x2B rd a b 0 0, rd.toNat, fun s c => let a := (s.core c).xr a.toNat; let b := (s.core c).xr b.toNat; if b = 0 then a else BitVec.ofNat 64 (a.toNat % b.toNat)⟩
  | .csrr n rd csr => some ⟨n, 0, scWord 0x30 rd 0 0 0 csr.toNat, rd.toNat, fun s c => readCsr s c (s.core c) csr.toNat⟩
  | _ => none

/-- A branch: its core and word, the register that takes the address of the next bundle (0 for none), and where it goes if it is taken (R101). -/
structure Branch where
  core : Fin 144
  word : Nat
  rd : Nat
  goes : Core → Option Nat

/-- The branches. -/
def branchOf : Instr → Option Branch
  | .beq n a b t => some ⟨n, scWord 0x40 0 a b 0 t.toNat, 0, fun x => let a := x.xr a.toNat; let b := x.xr b.toNat; if a = b then some t.toNat else none⟩
  | .bne n a b t => some ⟨n, scWord 0x41 0 a b 0 t.toNat, 0, fun x => let a := x.xr a.toNat; let b := x.xr b.toNat; if a ≠ b then some t.toNat else none⟩
  | .blt n a b t => some ⟨n, scWord 0x42 0 a b 0 t.toNat, 0, fun x => let a := x.xr a.toNat; let b := x.xr b.toNat; if a.toInt < b.toInt then some t.toNat else none⟩
  | .bge n a b t => some ⟨n, scWord 0x43 0 a b 0 t.toNat, 0, fun x => let a := x.xr a.toNat; let b := x.xr b.toNat; if b.toInt ≤ a.toInt then some t.toNat else none⟩
  | .bltu n a b t => some ⟨n, scWord 0x44 0 a b 0 t.toNat, 0, fun x => let a := x.xr a.toNat; let b := x.xr b.toNat; if a.toNat < b.toNat then some t.toNat else none⟩
  | .bgeu n a b t => some ⟨n, scWord 0x45 0 a b 0 t.toNat, 0, fun x => let a := x.xr a.toNat; let b := x.xr b.toNat; if b.toNat ≤ a.toNat then some t.toNat else none⟩
  | .j n t => some ⟨n, scWord 0x48 0 0 0 0 t.toNat, 0, fun _ => some t.toNat⟩
  | .jal n rd t => some ⟨n, scWord 0x49 rd 0 0 0 t.toNat, rd.toNat, fun _ => some t.toNat⟩
  | .jr n a => some ⟨n, scWord 0x4A 0 a 0 0 0, 0, fun x => some ((x.xr a.toNat).toNat / 64)⟩
  | _ => none

/-- The vector operations: core, slot and word. -/
def vecOf : Instr → Option (Fin 144 × Nat × Nat)
  | .vadd n slot f => some (n, 3 + slot.val, vWord 0x01 f)
  | .vsub n slot f => some (n, 3 + slot.val, vWord 0x02 f)
  | .vmul n slot f => some (n, 3 + slot.val, vWord 0x03 f)
  | .vfma n slot f => some (n, 3 + slot.val, vWord 0x04 f)
  | .vfms n slot f => some (n, 3 + slot.val, vWord 0x05 f)
  | .vfnma n slot f => some (n, 3 + slot.val, vWord 0x06 f)
  | .vmin n slot f => some (n, 3 + slot.val, vWord 0x07 f)
  | .vmax n slot f => some (n, 3 + slot.val, vWord 0x08 f)
  | .vabs n slot f => some (n, 3 + slot.val, vWord 0x09 f)
  | .vneg n slot f => some (n, 3 + slot.val, vWord 0x0A f)
  | .vmov n slot f => some (n, 3 + slot.val, vWord 0x0B f)
  | .vsel n slot f => some (n, 3 + slot.val, vWord 0x0C f)
  | .vand n slot f => some (n, 3 + slot.val, vWord 0x10 f)
  | .vor n slot f => some (n, 3 + slot.val, vWord 0x11 f)
  | .vxor n slot f => some (n, 3 + slot.val, vWord 0x12 f)
  | .vsll n slot f => some (n, 3 + slot.val, vWord 0x13 f)
  | .vsrl n slot f => some (n, 3 + slot.val, vWord 0x14 f)
  | .vsra n slot f => some (n, 3 + slot.val, vWord 0x15 f)
  | .vcmpeq n slot f => some (n, 3 + slot.val, vWord 0x18 f)
  | .vcmpne n slot f => some (n, 3 + slot.val, vWord 0x19 f)
  | .vcmplt n slot f => some (n, 3 + slot.val, vWord 0x1A f)
  | .vcmple n slot f => some (n, 3 + slot.val, vWord 0x1B f)
  | .vcmpgt n slot f => some (n, 3 + slot.val, vWord 0x1C f)
  | .vcmpge n slot f => some (n, 3 + slot.val, vWord 0x1D f)
  | .pand n slot f => some (n, 3 + slot.val, vWord 0x20 f)
  | .por n slot f => some (n, 3 + slot.val, vWord 0x21 f)
  | .pxor n slot f => some (n, 3 + slot.val, vWord 0x22 f)
  | .pandn n slot f => some (n, 3 + slot.val, vWord 0x23 f)
  | .pnot n slot f => some (n, 3 + slot.val, vWord 0x24 f)
  | .psetn n slot f => some (n, 3 + slot.val, vWord 0x25 f)
  | .vcvt n slot f => some (n, 3 + slot.val, vWord 0x28 f)
  | .vcvtfmx n slot f => some (n, 3 + slot.val, vWord 0x2A f)
  | .vcvtmx n f => some (n, 4, vWord 0x29 f)
  | .vredsum n f => some (n, 4, vWord 0x30 f)
  | .vredmax n f => some (n, 4, vWord 0x31 f)
  | .vredmin n f => some (n, 4, vWord 0x32 f)
  | .vperm n f => some (n, 4, vWord 0x34 f)
  | .vrot n f => some (n, 4, vWord 0x35 f)
  | .vbcast n f => some (n, 4, vWord 0x36 f)
  | .vmvxv n f => some (n, 4, vWord 0x37 f)
  | .vrcp n f => some (n, 4, vWord 0x38 f)
  | .vrsqrt n f => some (n, 4, vWord 0x39 f)
  | .vexp2 n f => some (n, 4, vWord 0x3A f)
  | .vlog2 n f => some (n, 4, vWord 0x3B f)
  | _ => none

/-- Fields of a load, a store or an atomic. -/
def mOp (opc t ra : Nat) (imm : BitVec 32) : MF :=
  { opc := opc, t := t, ra := ra, rb := 0, rc := 0, ps := 0, sk := 0, sz := 0, u := 0, rsvd := 0, imm := imm.toNat }
def amoF (opc : Nat) (xt xa xb xc : BitVec 5) (imm : BitVec 32) (sz u : Bool) : MF :=
  { mOp opc xt.toNat xa.toNat imm with rb := xb.toNat, rc := xc.toNat, sz := if sz then 1 else 0, u := if u then 1 else 0 }

/-- The scalar loads that find no error. -/
def loadOf : Instr → Option (Fin 144 × MF)
  | .ld8 n xt xa imm => some (n, mOp 0x01 xt.toNat xa.toNat imm)
  | .ld8u n xt xa imm => some (n, mOp 0x02 xt.toNat xa.toNat imm)
  | .ld16 n xt xa imm => some (n, mOp 0x03 xt.toNat xa.toNat imm)
  | .ld16u n xt xa imm => some (n, mOp 0x04 xt.toNat xa.toNat imm)
  | .ld32 n xt xa imm => some (n, mOp 0x05 xt.toNat xa.toNat imm)
  | .ld32u n xt xa imm => some (n, mOp 0x06 xt.toNat xa.toNat imm)
  | .ld64 n xt xa imm .none => some (n, mOp 0x07 xt.toNat xa.toNat imm)
  | _ => none

/-- The scalar stores that find no error. -/
def storeOf : Instr → Option (Fin 144 × MF)
  | .st8 n xt xa imm .none => some (n, mOp 0x09 xt.toNat xa.toNat imm)
  | .st16 n xt xa imm => some (n, mOp 0x0A xt.toNat xa.toNat imm)
  | .st32 n xt xa imm => some (n, mOp 0x0B xt.toNat xa.toNat imm)
  | .st64 n xt xa imm => some (n, mOp 0x0C xt.toNat xa.toNat imm)
  | _ => none

/-- The atomics of slot M. -/
def amoOf : Instr → Option (Fin 144 × MF)
  | .amoadd n xt xa xb imm sz u => some (n, amoF 0x18 xt xa xb 0 imm sz u)
  | .amoswap n xt xa xb imm sz u => some (n, amoF 0x19 xt xa xb 0 imm sz u)
  | .amomin n xt xa xb imm sz u => some (n, amoF 0x1B xt xa xb 0 imm sz u)
  | .amomax n xt xa xb imm sz u => some (n, amoF 0x1C xt xa xb 0 imm sz u)
  | .amocas n xt xa xb xc imm sz u => some (n, amoF 0x1A xt xa xb xc imm sz u)
  | _ => none

/-- Bytes the loads and stores move (R105). -/
def opBytes (o : Nat) : Nat := if o = 1 || o = 2 || o = 9 then 1 else if o = 3 || o = 4 || o = 0x0A then 2 else if o = 5 || o = 6 || o = 0x0B then 4 else 8

/-- The value a load of `n` bytes gives, sign-extended for LD8, LD16 and LD32 (R105). -/
def loaded (o : Nat) (bs : List Byte) : Word :=
  if o = 1 then (BitVec.ofNat 8 (leNat bs)).signExtend 64 else if o = 3 then (BitVec.ofNat 16 (leNat bs)).signExtend 64
  else if o = 5 then (BitVec.ofNat 32 (leNat bs)).signExtend 64 else BitVec.ofNat 64 (leNat bs)

/-- The operations that join the matrix queue: core and word. -/
def matOf : Instr → Option (Fin 144 × Nat)
  | .ldw n wn xa fmt sp => some (n, xWord { opc := 1, ad := 0, wn := wn, z := 0, sp := if sp then 1 else 0, fmt := fmt.toNat, ra := xa.toNat, rs := 0, rb := 0, row0 := 0, rows := 0, vd := 0, rsvd := 0 })
  | .mma n f => some (n, xWord { opc := 2, ad := f.ad.toNat, wn := f.wn.toNat, z := if f.z then 1 else 0, sp := if f.sp then 1 else 0, fmt := f.fmt.toNat, ra := f.ra.toNat, rs := f.rs.toNat, rb := f.rb.toNat, row0 := f.row0.toNat, rows := f.rows.toNat, vd := 0, rsvd := 0 })
  | .accmv n vd ad row0 => some (n, xWord { opc := 3, ad := ad, wn := 0, z := 0, sp := 0, fmt := 0, ra := 0, rs := 0, rb := 0, row0 := row0.toNat, rows := 0, vd := vd.toNat, rsvd := 0 })
  | .accst n ad xa xs fmt => some (n, xWord { opc := 4, ad := ad, wn := 0, z := 0, sp := 0, fmt := fmt.toNat, ra := xa.toNat, rs := xs.toNat, rb := 0, row0 := 0, rows := 0, vd := 0, rsvd := 0 })
  | .accclr n ad => some (n, xWord { opc := 5, ad := ad, wn := 0, z := 0, sp := 0, fmt := 0, ra := 0, rs := 0, rb := 0, row0 := 0, rows := 0, vd := 0, rsvd := 0 })
  | _ => none

/-! ## Messages of the sites -/

/-- A message comes from a site as one of a class and opcode, with no bit of its header set outside the fields it uses; `u` is the state with its credit
taken. -/
abbrev came (s u : State) (m : DkIn) (cls opc : Nat) (used : List (Nat × Nat)) : Prop :=
  m.cls.toNat = cls ∧ m.opc.toNat = opc ∧ m.plain used = true ∧ arrive s m.site cls opc = some (u, true)

/-! ## Queues -/

/-- A command in progress of a queue, of an opcode, not ended and not aborted, with no access of its own outstanding; the queue starts nothing else. -/
abbrev going (s : State) (q opc : Nat) (c : Cmd) : Prop :=
  s.quiet = false ∧ mayStart s q = false ∧ (s.queue q).cmd = some c ∧ c.opc = opc ∧ c.result = none ∧ c.aborting = false ∧ c.last = none

end Sys2Proof.Machine

open Sys2Proof Sys2Proof.Machine

/-- SCALAR RESULTS AND THEIR FRAME (R63, R65, R99, R100): each scalar operation that writes an X register, alone in a bundle that ends no loop. RD takes the
value of the operation, X0 stays zero, the PC goes to the next bundle, and nothing else in the module changes. Whatever its operands are, one in a legal
bundle raises no trap. -/
def Obligations.ScalarResult : Prop :=
  (∀ (i : Instr) (s : State) (a : Alu) (c : Nat), aluOf i = some a → aloneAt s a.core a.slot a.word = some c → (s.core c).plain = true →
    ∃ y : Core, exec i s = .next (setCore s c { (s.core c).onward with x := y.x }) ∧
      ∀ r, y.xr r = if r = a.rd ∧ r ≠ 0 then a.val s c else (s.core c).xr r) ∧
  (∀ (i : Instr) (s : State) (a : Alu) (c : Nat), aluOf i = some a → bundleAt (s.core c) % 64 = 2 ^ a.slot → slotOf (bundleAt (s.core c)) a.slot = a.word →
    illegalSlot (s.core c) (bundleAt (s.core c)) (s.core c).idx = none → bundleTrap s c (s.core c) (bundleAt (s.core c)) (s.core c).idx = none)

/-- CSRW (R65): an RW register takes its fields, a MODE of 3 and a write of any other number are discarded; nothing else changes. -/
def Obligations.CsrWrite : Prop :=
  ∀ (s : State) (n : Fin 144) (csr : BitVec 12) (rs1 : BitVec 5) (c : Nat),
    aloneAt s n 0 (scWord 0x31 0 rs1 0 0 csr.toNat) = some c → (s.core c).plain = true →
    let x := s.core c
    let v := x.xr rs1.toNat
    ∃ y : Core, exec (.csrw n csr rs1) s = .next (setCore s c { x.onward with
        fflags := if csr = 1 then v.setWidth 6 else x.fflags
        frm := if csr = 2 ∧ v.toNat % 4 ≠ 3 then v.setWidth 2 else x.frm
        srSeed := if csr = 3 then v else x.srSeed
        srStep := if csr = 4 then v else x.srStep
        srIndex := if csr = 5 then v else x.srIndex
        lc := y.lc }) ∧
      ∀ k, y.lcv k = if (csr = 10 ∧ k = 0) ∨ (csr = 11 ∧ k = 1) then v.toNat % 2 ^ 32 else x.lcv k

/-- BRANCHES (R101): a taken branch goes to its target and leaves the loops that do not contain it; one not taken goes on. JAL writes the address of the next
bundle. No other register, and nothing outside the core, changes. -/
def Obligations.BranchResult : Prop :=
  (∀ (i : Instr) (s : State) (b : Branch) (c : Nat), branchOf i = some b → aloneAt s b.core 0 b.word = some c → (s.core c).plain = true →
    let x := s.core c
    ∃ y : Core, exec i s = .next (setCore s c { x with x := y.x, pc := y.pc, lc := y.lc, loops := y.loops, pastEnd := false }) ∧
      y.pc = BitVec.ofNat 18 (((b.goes x).getD (x.idx + 1)) * 64) ∧
      (∀ r, y.xr r = if r = b.rd ∧ r ≠ 0 then BitVec.ofNat 64 (x.pc.toNat + 64) else x.xr r) ∧
      (b.goes x = none → y.lc = x.lc ∧ y.loops = x.loops) ∧
      (∀ t, b.goes x = some t → y.loops = x.loops.filter (fun l => l.start ≤ t && t ≤ l.stop))) ∧
  (∀ (i : Instr) (s : State) (b : Branch) (c : Nat), branchOf i = some b → soleAt s b.core 0 b.word c →
    (b.goes (s.core c)).getD ((s.core c).idx + 1) < 4096 →
    ∃ u : State, exec i s = .next u ∧ (u.core c).pc = BitVec.ofNat 18 (((b.goes (s.core c)).getD ((s.core c).idx + 1)) * 64) ∧
      (∀ r, (u.core c).xr r = if r = b.rd ∧ r ≠ 0 then BitVec.ofNat 64 ((s.core c).pc.toNat + 64) else (s.core c).xr r) ∧
      (u.core c).st = .running)

/-- LOOPS (R70, R102): LOOP with a count that is not zero enters the loop, its body the next bundle to the end bundle; after a scalar operation in the end
bundle of the innermost loop, whose counter is above one, the counter is one less and the core is at the loop's first bundle, its loops as they were.
The model's choices in it are in the log: 102. -/
def Obligations.Loops : Prop :=
  (∀ (s : State) (n : Fin 144) (lc : Fin 2) (rs1 : BitVec 5) (t : BitVec 16) (c : Nat),
    aloneAt s n 0 (scWord 0x4C 0 rs1 0 lc t.toNat) = some c → (s.core c).idx + 1 < 4096 →
    let x := s.core c
    let k := (x.xr rs1.toNat).toNat % 2 ^ 32
    k ≠ 0 → ∃ y : Core, exec (.loop n lc rs1 t) s = .next (setCore s c { x.onward with
        lc := y.lc, loops := { lc := lc, start := x.idx + 1, stop := t.toNat } :: x.loops }) ∧
      ∀ j, y.lcv j = if j = lc.val then k else x.lcv j) ∧
  (∀ (i : Instr) (s : State) (a : Alu) (c : Nat) (l : HwLoop) (r : List HwLoop), aluOf i = some a → aloneAt s a.core a.slot a.word = some c →
    (s.core c).loops = l :: r → l.stop = (s.core c).idx → 1 < (s.core c).lcv l.lc → l.start < 4096 →
    ∃ y : Core, exec i s = .next (setCore s c { s.core c with x := y.x, lc := y.lc, pc := BitVec.ofNat 18 (l.start * 64), pastEnd := false }) ∧
      (∀ k, y.lcv k = if k = l.lc then (s.core c).lcv k - 1 else (s.core c).lcv k) ∧
      ∀ k, y.xr k = if k = a.rd ∧ k ≠ 0 then a.val s c else (s.core c).xr k)

/-- BRK AND HALT, AND WHERE A HALT ENDS (R86, R89, R90): BRK traps precisely with BREAK and its immediate, no register written; HALT holds issue behind it;
HALT_COMPLETE stops the core with TRAP_CAUSE zero.
The model's choices in it are in the log: 18. -/
def Obligations.BreakAndHalt : Prop :=
  (∀ (s : State) (n : Fin 144) (imm : BitVec 32) (c : Nat), coreOf s n = some c → issuing s c = true →
    headerOk (bundleAt (s.core c)) = true → slotValid (bundleAt (s.core c)) 0 = true →
    slotOf (bundleAt (s.core c)) 0 = scWord 0x4D 0 0 0 0 imm.toNat → illegalSlot (s.core c) (bundleAt (s.core c)) (s.core c).idx = none →
    let x := s.core c
    exec (.brk n imm) s = .next (setCore s c { x with
      st := .halted, hold := .none, trapAsync := false, trapCause := 0x08, trapPc := x.pc, trapVal := BitVec.ofNat 64 imm.toNat, trapValid := true,
      matq := [], tq := x.tq.map (fun p => (p.1, { p.2 with q := p.2.q.filter (·.started) })), pastEnd := false })) ∧
  (∀ (s : State) (n : Fin 144) (c : Nat), aloneAt s n 0 (scWord 0x4E 0 0 0 0 0) = some c → (s.core c).plain = true →
    exec (.halt n) s = .next (setCore s c { (s.core c).onward with hold := .halt })) ∧
  (∀ (s : State) (n : Fin 144) (c : Nat), coreOf s n = some c → (s.core c).st = .running → (s.core c).hold = .halt → (s.core c).matq = [] → storesLanded s c = true →
    ((List.range 4).all (fun q => ((s.core c).tqr q).q.isEmpty)) = true →
    exec (.haltComplete n) s = .next (setCore s c { s.core c with
      st := .halted, hold := .none, trapCause := 0, trapAsync := false, trapValid := false }))

/-- AN EMPTY BUNDLE (R94), and one that traps (R89): an empty bundle moves the PC on; an illegal one traps with ILLEGAL and its slot, no register written and
its queued matrix operations discarded.
The model's choices in it are in the log: 18, 104, 105. -/
def Obligations.EmptyAndIllegal : Prop :=
  (∀ (s : State) (n : Fin 144) (c : Nat), coreOf s n = some c → issuing s c = true → headerOk (bundleAt (s.core c)) = true →
    bundleAt (s.core c) % 64 = 0 → illegalSlot (s.core c) (bundleAt (s.core c)) (s.core c).idx = none → (s.core c).plain = true →
    exec (.emptyBundle n) s = .next (setCore s c (s.core c).onward)) ∧
  (∀ (s : State) (n : Fin 144) (c k : Nat), coreOf s n = some c → issuing s c = true →
    illegalSlot (s.core c) (bundleAt (s.core c)) (s.core c).idx = some k →
    exec (.emptyBundle n) s = .next (setCore s c ((s.core c).trap 0x01 (BitVec.ofNat 64 k))))

/-- LOADS (R77, R105): the bytes at the resolved address, extended, into XT; X0 stays zero, and no byte of any tile memory changes.
The model's choices in it are in the log: 103, 154. -/
def Obligations.LoadResult : Prop :=
  ∀ (i : Instr) (s : State) (n : Fin 144) (f : MF) (c t o : Nat), loadOf i = some (n, f) → aloneAt s n 2 (mWord f) = some c →
    (s.core c).plain = true → accLocal s c (s.core c) f = .at t o → badWord s t o (opBytes f.opc) = none →
    ∃ y : Core, exec i s = .next (setCore s c { (s.core c).onward with x := y.x }) ∧
      ∀ r, y.xr r = if r = f.t ∧ r ≠ 0 then loaded f.opc (tileBytes s t o (opBytes f.opc)) else (s.core c).xr r

/-- STORES (R77, R105): the bytes of XT at the resolved address, every other byte of every tile memory as before, no register of any core changed but the PC
of the core that stores.
The model's choices in it are in the log: 154. -/
def Obligations.StoreResult : Prop :=
  ∀ (i : Instr) (s : State) (n : Fin 144) (f : MF) (c t o : Nat), storeOf i = some (n, f) → aloneAt s n 2 (mWord f) = some c →
    (s.core c).plain = true → accLocal s c (s.core c) f = .at t o → (t = c ∨ (s.core t).st ≠ .reset) → (s.core t).ue = [] →
    ∃ u : State, exec i s = .next u ∧ u = { s with cores := u.cores } ∧
      (∀ d a, Tab.get 0 (u.core d).tmem a = if d = t ∧ o ≤ a ∧ a < o + opBytes f.opc
        then BitVec.ofNat 8 (((s.core c).xr f.t).toNat / 256 ^ (a - o)) else Tab.get 0 (s.core d).tmem a) ∧
      (∀ d, d ≠ c → u.core d = { s.core d with tmem := (u.core d).tmem }) ∧ u.core c = { (s.core c).onward with tmem := (u.core c).tmem }

/-- ATOMICS OF SLOT M (R78, R106): the word at the bank takes the new value, XT the old one, zero- or sign-extended; every other byte and register is as
before. A word that is not aligned to its width traps with LOCAL_ALIGN. -/
def Obligations.AtomicResult : Prop :=
  (∀ (i : Instr) (s : State) (n : Fin 144) (f : MF) (c t o : Nat), amoOf i = some (n, f) → aloneAt s n 2 (mWord f) = some c →
    (s.core c).plain = true → accLocal s c (s.core c) f = .at t o → (s.core t).ue = [] →
    let k := if f.sz = 1 then 8 else 4
    let old := leNat (tileBytes s t o k)
    let new := atomicNew (f.opc - 8) (8 * k) (f.u = 1) old ((s.core c).xr f.rb).toNat ((s.core c).xr f.rc).toNat
    ∃ u : State, exec i s = .next u ∧ u = { s with cores := u.cores } ∧
      (∀ d a, Tab.get 0 (u.core d).tmem a = if d = t ∧ o ≤ a ∧ a < o + k then BitVec.ofNat 8 (new / 256 ^ (a - o)) else Tab.get 0 (s.core d).tmem a) ∧
      (∀ r, (u.core c).xr r = if r = f.t ∧ r ≠ 0 then BitVec.ofNat 64 (atomicOld (8 * k) (f.u = 1) old) else (s.core c).xr r) ∧
      (∀ d, d ≠ c → u.core d = { s.core d with tmem := (u.core d).tmem }) ∧
      u.core c = { (s.core c).onward with tmem := (u.core c).tmem, x := (u.core c).x }) ∧
  (∀ (i : Instr) (s : State) (n : Fin 144) (f : MF) (c : Nat), amoOf i = some (n, f) → coreOf s n = some c → issuing s c = true → headerOk (bundleAt (s.core c)) = true →
    bundleAt (s.core c) % 64 = 4 → slotOf (bundleAt (s.core c)) 2 = mWord f → illegalSlot (s.core c) (bundleAt (s.core c)) (s.core c).idx = none →
    let a := effAddr (s.core c) f
    let k := if f.sz = 1 then 8 else 4
    a < 24 * 0x400000 → a % 0x400000 + k ≤ 0x300000 → a % k ≠ 0 → exec i s = .next (setCore s c ((s.core c).trap 0x04 (BitVec.ofNat 64 a))))

/-- VECTOR LOADS AND STORES (R107): VLD and VLDBC write the lanes PS names; VST writes the bytes of those lanes, and nothing else. -/
def Obligations.VectorMemory : Prop :=
  (∀ (s : State) (n : Fin 144) (vt : BitVec 6) (xa : BitVec 5) (imm : BitVec 32) (ps : BitVec 3) (c t o : Nat) (wide : Bool),
    let f := { mOp (if wide then 0x10 else 0x12) vt.toNat xa.toNat imm with ps := ps.toNat }
    let k := if wide then 1024 else 4
    aloneAt s n 2 (mWord f) = some c → (s.core c).plain = true → accLocal s c (s.core c) f = .at t o → badWord s t o k = none →
    ∃ v : VWord, exec (if wide then .vld n vt xa imm ps else .vldbc n vt xa imm ps) s = .next (setCore s c ((s.core c).onward.setV vt.toNat v)) ∧
      ∀ l, l < 256 → fieldAt v.toNat (32 * l) 32 = if ((s.core c).pr ps.toNat).getLsbD l
        then leNat (tileBytes s t (if wide then o + 4 * l else o) 4) else fieldAt ((s.core c).vr vt.toNat).toNat (32 * l) 32) ∧
  (∀ (s : State) (n : Fin 144) (vt : BitVec 6) (xa : BitVec 5) (imm : BitVec 32) (ps : BitVec 3) (c t o : Nat),
    let f := { mOp 0x11 vt.toNat xa.toNat imm with ps := ps.toNat }
    aloneAt s n 2 (mWord f) = some c → (s.core c).plain = true → accLocal s c (s.core c) f = .at t o → (t = c ∨ (s.core t).st ≠ .reset) →
    (s.core t).ue = [] →
    ∃ u : State, exec (.vst n vt xa imm ps) s = .next u ∧ u = { s with cores := u.cores } ∧
      (∀ d a, Tab.get 0 (u.core d).tmem a = if d = t ∧ o ≤ a ∧ a < o + 1024 ∧ ((s.core c).pr ps.toNat).getLsbD ((a - o) / 4) = true
        then byteAt ((s.core c).vr vt.toNat) (a - o) else Tab.get 0 (s.core d).tmem a) ∧
      (∀ d, d ≠ c → u.core d = { s.core d with tmem := (u.core d).tmem }) ∧ u.core c = { (s.core c).onward with tmem := (u.core c).tmem })

/-- SEMAPHORES (R80): SEMSET sets, SEMWAIT takes its count where it is there and else waits, SEMPOST adds and stops at the highest count, and a waiting core
whose count has come takes it and goes on.
The model's choices in it are in the log: 18, 31. -/
def Obligations.Semaphores : Prop :=
  (∀ (s : State) (n : Fin 144) (sk : BitVec 4) (xb : BitVec 5) (c : Nat),
    aloneAt s n 2 (mWord { mOp 0x22 0 0 0 with sk := sk.toNat, rb := xb.toNat }) = some c → (s.core c).plain = true →
    exec (.semset n sk xb) s = .next (setCore s c ((s.core c).onward.setSem sk.toNat (((s.core c).xr xb.toNat).toNat % 2 ^ 32)))) ∧
  (∀ (s : State) (n : Fin 144) (sk : BitVec 4) (xb : BitVec 5) (c : Nat),
    aloneAt s n 2 (mWord { mOp 0x20 0 0 0 with sk := sk.toNat, rb := xb.toNat }) = some c → (s.core c).plain = true →
    ((s.core c).xr xb.toNat).toNat % 2 ^ 32 ≤ (s.core c).sems sk.toNat ∧
    exec (.semwait n sk xb) s = .next (setCore s c ((s.core c).onward.setSem sk.toNat ((s.core c).sems sk.toNat - ((s.core c).xr xb.toNat).toNat % 2 ^ 32)))) ∧
  (∀ (s : State) (n : Fin 144) (xa xb : BitVec 5) (sk : BitVec 4) (c t : Nat),
    aloneAt s n 2 (mWord { mOp 0x21 0 xa.toNat 0 with sk := sk.toNat, rb := xb.toNat }) = some c → (s.core c).plain = true →
    postLocal s c (s.core c) { mOp 0x21 0 xa.toNat 0 with sk := sk.toNat, rb := xb.toNat } = .at t 0 → (t = c ∨ (s.core t).st ≠ .reset) →
    ∃ u : State, exec (.sempost n xa sk xb) s = .next u ∧ u = { s with cores := u.cores } ∧
      (u.core t).sems sk.toNat = min 0xFFFFFFFF ((s.core t).sems sk.toNat + ((s.core c).xr xb.toNat).toNat % 2 ^ 32) ∧
      (∀ d, d ≠ c → u.core d = { s.core d with sem := (u.core d).sem }) ∧ u.core c = { (s.core c).onward with sem := (u.core c).sem }) ∧
  (∀ (s : State) (n : Fin 144) (sk : BitVec 4) (xb : BitVec 5) (c : Nat),
    aloneAt (setCore s c { s.core c with st := .running, hold := .none }) n 2 (mWord { mOp 0x20 0 0 0 with sk := sk.toNat, rb := xb.toNat }) = some c →
    (s.core c).st = .waiting → (s.core c).hold = .sem → stalled s c (s.core c) (bundleAt (s.core c)) = false → (s.core c).plain = true →
    exec (.semwaitResume n) s = .next (setCore s c ({ (s.core c).onward with st := .running, hold := .none }.setSem sk.toNat
      ((s.core c).sems sk.toNat - ((s.core c).xr xb.toNat).toNat % 2 ^ 32)))) ∧
  (∀ (s : State) (n : Fin 144) (sk : BitVec 4) (xb : BitVec 5) (c : Nat), coreOf s n = some c → issuing s c = true → headerOk (bundleAt (s.core c)) = true →
    bundleAt (s.core c) % 64 = 4 → slotOf (bundleAt (s.core c)) 2 = mWord { mOp 0x20 0 0 0 with sk := sk.toNat, rb := xb.toNat } →
    bundleTrap s c (s.core c) (bundleAt (s.core c)) (s.core c).idx = none → (s.core c).sems sk.toNat < ((s.core c).xr xb.toNat).toNat % 2 ^ 32 →
    exec (.semwait n sk xb) s = .next (setCore s c { s.core c with st := .waiting, hold := .sem })) ∧
  (∀ (s : State) (n : Fin 144) (sk : BitVec 4) (xb : BitVec 5) (c : Nat), soleAt s n 2 (mWord { mOp 0x22 0 0 0 with sk := sk.toNat, rb := xb.toNat }) c →
    (s.core c).plain = true →
    exec (.semset n sk xb) s = .next (setCore s c ((s.core c).onward.setSem sk.toNat (((s.core c).xr xb.toNat).toNat % 2 ^ 32)))) ∧
  (∀ (s : State) (n : Fin 144) (sk : BitVec 4) (xb : BitVec 5) (c : Nat), soleAt s n 2 (mWord { mOp 0x20 0 0 0 with sk := sk.toNat, rb := xb.toNat }) c →
    (s.core c).plain = true → ((s.core c).xr xb.toNat).toNat % 2 ^ 32 ≤ (s.core c).sems sk.toNat →
    exec (.semwait n sk xb) s = .next (setCore s c ((s.core c).onward.setSem sk.toNat ((s.core c).sems sk.toNat - ((s.core c).xr xb.toNat).toNat % 2 ^ 32)))) ∧
  (∀ (s : State) (n : Fin 144) (xa xb : BitVec 5) (sk : BitVec 4) (c t : Nat),
    soleAt s n 2 (mWord { mOp 0x21 0 xa.toNat 0 with sk := sk.toNat, rb := xb.toNat }) c → (s.core c).plain = true →
    ((s.core c).xr xa.toNat).toNat < 24 → reachable s c ((s.core c).xr xa.toNat).toNat = .at t 0 → (t = c ∨ (s.core t).st ≠ .reset) →
    ∃ u : State, exec (.sempost n xa sk xb) s = .next u ∧
      (u.core t).sems sk.toNat = min 0xFFFFFFFF ((s.core t).sems sk.toNat + ((s.core c).xr xb.toNat).toNat % 2 ^ 32) ∧ (u.core c).pc = (s.core c).onward.pc) ∧
  (∀ (s : State) (n : Fin 144) (sk : BitVec 4) (xb : BitVec 5) (c : Nat),
    soleAt (setCore s c { s.core c with st := .running, hold := .none }) n 2 (mWord { mOp 0x20 0 0 0 with sk := sk.toNat, rb := xb.toNat }) c →
    (s.core c).st = .waiting → (s.core c).hold = .sem → (s.core c).plain = true → ((s.core c).xr xb.toNat).toNat % 2 ^ 32 ≤ (s.core c).sems sk.toNat →
    exec (.semwaitResume n) s = .next (setCore s c ({ (s.core c).onward with st := .running, hold := .none }.setSem sk.toNat
      ((s.core c).sems sk.toNat - ((s.core c).xr xb.toNat).toNat % 2 ^ 32))))

/-- TMPUSH AND THE ORDERING OPERATIONS (R72, R81, R86, R236): a descriptor joins the end of its queue; TMDRAIN passes an empty queue, or resumes when it has
become empty; FENCE and XDRAIN hold the bundles behind them, and end when what they wait for is complete.
The model's choices in it are in the log: 103. -/
def Obligations.PushAndHolds : Prop :=
  (∀ (s : State) (n : Fin 144) (tq : Fin 4) (xa : BitVec 5) (c : Nat),
    aloneAt s n 2 (mWord { mOp 0x28 0 xa.toNat 0 with sk := tq }) = some c → (s.core c).plain = true →
    let o := ((s.core c).xr xa.toNat).toNat - c % 24 * tileWindow
    badWord s c o 64 = none →
    let q := (s.core c).tqr tq
    exec (.tmpush n tq xa) s = .next (setCore s c ((s.core c).onward.setTq tq
      { q with q := q.q ++ [{ raw := BitVec.ofNat 512 (leNat (tileBytes s c o 64)) }] }))) ∧
  (∀ (s : State) (n : Fin 144) (tq : Fin 4) (c : Nat), aloneAt s n 2 (mWord { mOp 0x29 0 0 0 with sk := tq }) = some c → (s.core c).plain = true →
    exec (.tmdrain n tq) s = .next (setCore s c (s.core c).onward)) ∧
  (∀ (s : State) (n : Fin 144) (tq : Fin 4) (c : Nat),
    aloneAt (setCore s c { s.core c with st := .running, hold := .none }) n 2 (mWord { mOp 0x29 0 0 0 with sk := tq }) = some c →
    (s.core c).st = .waiting → (s.core c).hold = .drain → stalled s c (s.core c) (bundleAt (s.core c)) = false → (s.core c).plain = true →
    exec (.tmdrainResume n) s = .next (setCore s c { (s.core c).onward with st := .running, hold := .none })) ∧
  (∀ (s : State) (n : Fin 144) (scope : Fin 4) (c : Nat), aloneAt s n 2 (mWord { mOp 0x30 0 0 0 with sk := scope }) = some c → (s.core c).plain = true →
    exec (.fence n scope) s = .next (setCore s c { (s.core c).onward with hold := .fence scope false false, fenceRel := none })) ∧
  (∀ (s : State) (n : Fin 144) (c scope : Nat), coreOf s n = some c → (s.core c).st = .running → (s.core c).hold = .fence scope false false → scope < 3 →
    storesLanded s c = true → ((List.range 4).all (fun q => ((s.core c).tqr q).q.isEmpty)) = true → (s.core c).pastEnd = false →
    exec (.fenceDone n) s = .next (setCore s c { s.core c with hold := .none, fenceRel := none })) ∧
  (∀ (s : State) (n : Fin 144) (c : Nat), aloneAt s n 5 6 = some c → (s.core c).plain = true →
    exec (.xdrain n) s = .next (setCore s c { (s.core c).onward with hold := .xdrain, fenceRel := none })) ∧
  (∀ (s : State) (n : Fin 144) (c : Nat), coreOf s n = some c → (s.core c).st = .running → (s.core c).hold = .xdrain → (s.core c).matq = [] →
    (s.core c).pastEnd = false → exec (.xdrainDone n) s = .next (setCore s c { s.core c with hold := .none })) ∧
  (∀ (s : State) (n : Fin 144) (c scope : Nat) (xd : Bool), coreOf s n = some c → (s.core c).st = .running → (s.core c).hold = .fence scope xd true →
    scope < 3 → storesLanded s c = true → ((List.range 4).all (fun q => ((s.core c).tqr q).q.isEmpty)) = true →
    exec (.fenceDone n) s = .next (setCore s c { s.core c with hold := .halt, fenceRel := none })) ∧
  (∀ (s : State) (n : Fin 144) (c scope : Nat), coreOf s n = some c → (s.core c).st = .running → (s.core c).hold = .fence scope true false →
    scope < 3 → storesLanded s c = true → ((List.range 4).all (fun q => ((s.core c).tqr q).q.isEmpty)) = true → (s.core c).matq ≠ [] →
    exec (.fenceDone n) s = .next (setCore s c { s.core c with hold := .xdrain, fenceRel := none }))

/-- VECTOR OPERATIONS AND THEIR FRAME (R109–R116): the V, P or X register the operation writes, its flags and the stochastic index; the PC goes on; no other
register of the core and nothing outside it changes.
The model's choices in it are in the log: 2. -/
def Obligations.VectorResult : Prop :=
  ∀ (i : Instr) (s : State) (n : Fin 144) (k w c : Nat), vecOf i = some (n, k, w) → aloneAt s n k w = some c → (s.core c).plain = true →
    let x := s.core c
    let e := vExec x (vF w) x.srIndex
    ∃ y : Core, exec i s = .next (setCore s c { x.onward with x := y.x, v := y.v, p := y.p, fflags := y.fflags, srIndex := y.srIndex }) ∧
      (∀ r, y.vr r = match e.v with | some v => if r = (vF w).vd then v else x.vr r | none => x.vr r) ∧
      (∀ r, y.pr r = match e.p with | some p => if r = (vF w).vd ∧ r ≠ 0 then p else x.pr r | none => x.pr r) ∧
      (∀ r, y.xr r = match e.x with | some (d, v) => if r = d ∧ r ≠ 0 then v else x.xr r | none => x.xr r) ∧
      y.fflags = x.fflags ||| BitVec.ofNat 6 e.fl ∧ y.srIndex = x.srIndex + BitVec.ofNat 64 (vIndexes x (vF w))

/-- LANES (R63, R109, R114): the 32-bit lanes of VADD and VSUB in INT32, and of VAND, VOR and VXOR. An active lane takes its result, an inactive one keeps its
value. -/
def Obligations.VectorLanes : Prop :=
  ∀ (s : State) (n : Fin 144) (slot : Fin 2) (f : VFields) (o c : Nat), (o = 1 ∨ o = 2 ∨ o = 0x10 ∨ o = 0x11 ∨ o = 0x12) → f.ty = 5 → f.bx = false →
    aloneAt s n (3 + slot) (vWord o f) = some c → (s.core c).plain = true →
    let x := s.core c
    let i : Instr := if o = 1 then .vadd n slot f else if o = 2 then .vsub n slot f else if o = 0x10 then .vand n slot f
      else if o = 0x11 then .vor n slot f else .vxor n slot f
    ∃ u : State, exec i s = .next u ∧ ∀ l, l < 256 →
      let a := fieldAt (x.vr f.va.toNat).toNat (32 * l) 32
      let b := fieldAt (x.vr f.vb.toNat).toNat (32 * l) 32
      fieldAt ((u.core c).vr f.vd.toNat).toNat (32 * l) 32 =
        if (x.pr f.pg.toNat).getLsbD l then (if o = 1 then (a + b) % 2 ^ 32 else if o = 2 then (a + 2 ^ 32 - b) % 2 ^ 32 else if o = 0x10 then a &&& b
          else if o = 0x11 then a ||| b else a ^^^ b)
        else fieldAt (x.vr f.vd.toNat).toNat (32 * l) 32

/-- THE MATRIX QUEUE (R72, R117, R118): LDW, MMA, ACCMV, ACCST and ACCCLR join the end of the queue with their operands as they are at issue; LDW records the
format of its buffer; the head of the queue is taken and run.
The model's choices in it are in the log: 7. -/
def Obligations.MatrixQueue : Prop :=
  (∀ (i : Instr) (s : State) (n : Fin 144) (w c : Nat), matOf i = some (n, w) → aloneAt s n 5 w = some c → (s.core c).plain = true →
    let x := s.core c
    let f := xF w
    let op : MatOp := { word := w, base := x.xr f.ra, stride := x.xr f.rs, base2 := x.xr f.rb, wcode := (x.wfm f.wn).code, frm := x.frm.toNat,
                        seed := x.srSeed, step := x.srStep, index := x.srIndex }
    exec i s = .next (setCore s c { x.onward with
      matq := x.matq ++ [op]
      wfmt := if f.opc = 1 then Tab.set {} x.wfmt f.wn { code := f.fmt, sparse := decide (f.sp = 1) } else x.wfmt
      srIndex := x.srIndex + BitVec.ofNat 64 (if f.opc = 4 ∧ x.frm = 2 then 16384 else 0) })) ∧
  (∀ (s : State) (n : Fin 144) (c : Nat) (op : MatOp) (r : List MatOp), coreOf s n = some c → (s.core c).matq = op :: r →
    (s.core c).st ≠ .reset → (s.core c).st ≠ .retired → siteUp s (c / 24) = true → s.clk.rootLock = true → matHeld s c op = false →
    exec (.matrixOpStart n) s = .next (runMat (setCore s c { s.core c with matq := r }) c op))

/-- ACCCLR AND ACCMV RUN (R118): the tile named reads zero in every element, or two rows of it are in the V register; no other tile changes. -/
def Obligations.MatrixRun : Prop :=
  ∀ (s : State) (n : Fin 144) (c : Nat) (op : MatOp) (r : List MatOp), coreOf s n = some c → (s.core c).matq = op :: r →
    (s.core c).st ≠ .reset → (s.core c).st ≠ .retired → siteUp s (c / 24) = true → s.clk.rootLock = true → matHeld s c op = false →
    ((xF op.word).opc = 5 → ∃ u : State, exec (.matrixOpStart n) s = .next u ∧ u = { s with cores := u.cores } ∧
      ∀ a row col, a < 4 → row < 128 → col < 128 → Tab.get 0 (u.core c).acc (accKey a row col) =
        if a = (xF op.word).ad then 0 else Tab.get 0 (s.core c).acc (accKey a row col)) ∧
    ((xF op.word).opc = 3 → ∃ u : State, exec (.matrixOpStart n) s = .next u ∧ (u.core c).acc = (s.core c).acc ∧
      ∀ l, l < 256 → fieldAt ((u.core c).vr (xF op.word).vd).toNat (32 * l) 32 =
        (Tab.get 0 (s.core c).acc (accKey (xF op.word).ad ((xF op.word).row0 + l / 128) (l % 128))).toNat)

/-- THE STATES OF A CORE (R84, R85, R88): HALT_REQ stops a running or waiting Mould core with HALT_REQUEST, CORE_RESET puts a halted one into RESET, and the
end of RESET leaves it HALTED with every register and byte zero.
The model's choices in it are in the log: 156. -/
def Obligations.CoreStates : Prop :=
  (∀ (s : State) (site : Fin 6) (unit : Fin 24), let c := 24 * site.val + unit.val
    s.quiet = false → coreRow s c = true → customerDie s site.val = false → ((s.core c).st = .running ∨ (s.core c).st = .waiting) →
    ∃ u : State, exec (.haltReq site unit) s = .next u ∧ u = { s with cores := u.cores } ∧ (u.core c).st = .halted ∧ (u.core c).trapCause = 0x12 ∧
      (u.core c).trapAsync = true ∧ (u.core c).trapPc = (s.core c).pc ∧ (u.core c).x = (s.core c).x ∧ (u.core c).v = (s.core c).v ∧
      ∀ d, d ≠ c → u.core d = s.core d) ∧
  (∀ (s : State) (site : Fin 6) (unit : Fin 24), let c := 24 * site.val + unit.val
    s.quiet = false → coreRow s c = true → customerDie s site.val = false → (s.core c).st = .halted →
    exec (.coreReset site unit) s = .next (setCore s c { s.core c with st := .reset, hold := .none, survey := false })) ∧
  (∀ (s : State) (n : Fin 144) (c : Nat), coreOf s n = some c → (s.core c).st = .reset → siteUp s (c / 24) = true → customerDie s (c / 24) = false →
    (s.core c).heldAcc = [] →
    ∃ u : State, exec (.coreResetDone n) s = .next u ∧ (∀ d, d ≠ c → u.core d = s.core d) ∧ u.core c = { st := .halted, launch := (s.core c).launch })

/-- POWER AND RESET OF THE MODULE (R32, R373, R425, R480): the fall of POR_N leaves every field at its reset value (no Chart is applied and EPOCH is 0, R56)
but the fuses, the contents of the stacks and the levels of the other pins; with VIN_MAIN lost the stacks lose their bytes too; the release of POR_N senses
the fuses, numbers the cores and starts HEARTBEAT. A narrow PERST_N is the host reset; a wide one keeps TIME, the fuses, the pins and the numbering, and no
Chart and no register of a site, a core, a queue or a slice.
The model's choices in it are in the log: 4, 5, 6, 16, 19, 22, 24, 50, 123, 133, 136. -/
def Obligations.PowerAndReset : Prop :=
  (∀ s : State, s.pins.porN = true → ∃ t, exec .porNAssert s = .next t ∧ t = porReset s ∧
    t.chart.epoch = 0 ∧ t.chart.state = 0 ∧ t.chart.applied = none ∧
    t = { State.reset with pending := s.pending, fuses := t.fuses, mem := s.mem, poison := s.poison, undef := s.undef, draws := t.draws, out := t.out
                           pins := { perstN := s.pins.perstN, refclk := s.pins.refclk, vinMain := s.pins.vinMain, bootSel := s.pins.bootSel
                                     perstScope := s.pins.perstScope } }) ∧
  (∀ s : State, s.pins.vinMain = true → ∃ t, exec .vinMainLoss s = .next t ∧ t.pins.vinMain = false ∧
    (s.pins.porN = true → t.sites = [] ∧ t.cores = [] ∧ t.chart = {} ∧ t.pins.porN = false) ∧
    (∀ m k, m < 8 → memKey (32 * m) 0 ≤ k → k < memKey (32 * m) 0 + 32 * 4294967296 → Tab.get 0 t.mem k = 0)) ∧
  (∀ (s : State) (bs : BitVec 2) (scope : Bool), s.pins.porN = false → s.fuses.decode 16 ≠ 4 → fuseErrorCount s.fuses = 0 → s.fuses.decode 17 ≠ 3 →
    ∃ t, exec (.porNRelease bs scope) s = .next t ∧ t.time = 0 ∧ t.pins.porN = true ∧ t.pins.strapBoot = bs ∧ t.pins.strapScope = scope ∧
      t.pins.hbRunning = true ∧ t.glb.sensed = true ∧ t.glb.logical = numbering (sensedFuses s.fuses) ∧ t.cores = s.cores ∧ t.mem = s.mem) ∧
  (∀ s : State, s.pins.porN = true → s.lc ≠ 4 → s.pins.strapScope = false → endpointOn s = true → exec .perstN s = .next (narrowReset s 1)) ∧
  (∀ s : State, s.pins.porN = true → s.lc ≠ 4 → s.pins.strapScope = true → s.fcu.safe = false → (loseHost (linkDown (setPcieEvent s 1))).fcu.safe = false →
    ∃ t, exec .perstN s = .next t ∧ t.sites = [] ∧ t.cores = [] ∧ t.queues = [] ∧ t.ces = [] ∧ t.slices = [] ∧ t.chart = {} ∧ t.nx = {} ∧ t.gtu = {} ∧
      t.lla = {} ∧ t.fuses = s.fuses ∧ t.time = s.time ∧ t.pins = s.pins ∧ t.glb.logical = s.glb.logical) ∧
  (∀ s : State, s.pins.porN = true → s.pins.hbRunning = true → s.pins.refclk = true →
    exec .heartbeatEdge s = .next { s with pins := { s.pins with heartbeat := !s.pins.heartbeat } })

/-- THE ROOT PLL (R23, R24, R428): ROOT_EN starts it, and cannot stop it once it is locked; the lock ends a CLOCKS step that waits; 200 µs without it fail
that step with TIMEOUT; the loss of the lock raises source 5, whose reaction is the safe state.
The model's choices in it are in the log: 8. -/
def Obligations.RootPll : Prop :=
  (∀ (s : State) (v : Bool), s.quiet = false → s.clk.rootLock = false →
    exec (.rootEnWrite v) s = .next { s with clk := { s.clk with rootEn := v } }) ∧
  (∀ s : State, s.quiet = false → s.clk.rootLock = true → exec (.rootEnWrite false) s = .next s) ∧
  (∀ s : State, s.quiet = false → s.clk.rootEn = true → s.clk.rootLock = false → s.pins.refclk = true → s.glb.step = 1 → s.glb.stepState = 1 →
    exec .rootLock s = .next (settleAll { s with
      clk := { s.clk with rootLock := true }
      glb := { s.glb with clocks := true, doneMask := s.glb.doneMask ||| 1, stepState := 2 } })) ∧
  (∀ s : State, s.quiet = false → s.clk.rootEn = true → s.clk.rootLock = false → s.pins.refclk = true → s.glb.stepState ≠ 1 →
    exec .rootLock s = .next (settleAll { s with clk := { s.clk with rootLock := true } })) ∧
  (∀ s : State, s.quiet = false → s.clk.rootLock = false → s.glb.step = 1 → s.glb.stepState = 1 → s.glb.stepAt + 200000 ≤ s.time →
    exec .rootLockTimeout s = .next (raise { s with glb := { s.glb with stepState := 3, stepError := 4 } } 2 { unit := 1 })) ∧
  (∀ s : State, s.pins.porN = true → s.clk.rootLock = true → ∃ t, exec .rootLockLost s = .next t ∧
    t.clk = { s.clk with rootLock := false, lockLost := true } ∧ t.fcu.safe = true ∧ t.fcu.sticky.getLsbD 5 = true ∧ t.pins.heartbeat = (s.fcu.safe && s.pins.heartbeat))

/-- THE BRING-UP STEPS (R426, R428): a step out of order is discarded with ORDER and one while another runs with BUSY; each step in its order starts its work,
and its end is DONE.
The model's choices in it are in the log: 7, 8, 38, 39, 162. -/
def Obligations.BringUpSteps : Prop :=
  let idle (s : State) : Bool := !s.quiet && s.lc ≠ 4 && !s.pins.thermTrip && s.glb.stepState ≠ 1 && !(s.glb.stepState = 3 && s.glb.step ≤ 2) &&
    !s.glb.trainRun && !s.glb.initRun && s.chart.state ≠ 4
  let shown (s : State) (n : Nat) : Glb := { s.glb with step := n, stepState := 1, stepError := 0, stepAt := s.time }
  (∀ s : State, idle s = true → s.glb.chart = true → stepDone s 1 = false → s.clk.rootLock = false →
    exec .stepClocks s = .next { s with clk := { s.clk with rootEn := true }, glb := shown s 1 }) ∧
  (∀ s : State, idle s = true → s.glb.chart = false → exec .stepClocks s = .next { s with glb := { s.glb with stepError := 1 } }) ∧
  (∀ s : State, s.quiet = false → s.lc ≠ 4 → s.pins.thermTrip = false → s.glb.stepState = 1 → s.glb.step = 2 →
    exec .stepTrain s = .next { s with glb := { s.glb with stepError := 2 } } ∧ exec .stepOpen s = .next { s with glb := { s.glb with stepError := 2 } }) ∧
  (∀ s : State, idle s = true → stepDone s 1 = true → stepDone s 2 = false →
    ∃ t, exec .stepPowerSites s = .next t ∧ t.glb = shown s 2 ∧ t = { s with glb := t.glb, sites := t.sites, tel := t.tel } ∧
      ∀ k, k < 16 → t.site k = { s.site k with pwrReq := (s.site k).pwrReq || (decide (k ∈ enabledSites s) && decide ((s.site k).state = 0)) }) ∧
  (∀ s : State, s.quiet = false → s.pins.thermTrip = false → s.glb.step = 2 → s.glb.stepState = 1 →
    ∃ t, exec (.powerSitesDone true) s = .next (settleAll t) ∧ t.glb = { s.glb with engines := true, doneMask := s.glb.doneMask ||| 2, stepState := 2 } ∧
      t = { s with glb := t.glb, clk := { s.clk with pllLost := t.clk.pllLost }, sites := t.sites, tel := t.tel } ∧
      ∀ k, k < 16 → t.site k = if k ∈ enabledSites s ∧ (s.site k).state ≤ 1 then { s.site k with state := 2, pwrReq := true, clkFwd := true } else s.site k) ∧
  (∀ s : State, s.quiet = false → s.pins.thermTrip = false → s.glb.step = 2 → s.glb.stepState = 1 → s.glb.stepAt + 2000000 ≤ s.time →
    exec (.powerSitesDone false) s = .next (raise { s with glb := { s.glb with stepState := 3, stepError := 3 } } 2 { unit := 2 })) ∧
  (∀ s : State, idle s = true → stepDone s 2 = true → stepDone s 3 = false →
    ∃ t, exec .stepTrain s = .next t ∧ t.glb = { shown s 3 with trainRun := true, trainAt := s.time } ∧ t = { s with glb := t.glb, sites := t.sites, nx := t.nx } ∧
      ∀ k, k < 16 → t.site k = if k ∈ enabledSites s ∧ (s.site k).state = 2 ∧ (s.site k).stopAt = none
        then { s.site k with state := 3, rstRel := true, train := true, dk := { snoopTimeout := (s.site k).dk.snoopTimeout } } else s.site k) ∧
  (∀ s : State, s.quiet = false → s.glb.trainRun = true → (∀ k ∈ enabledSites s, (s.site k).state ≠ 3) → (∀ p ∈ s.cfg.ports, (s.port p.port).state ≠ 1) →
    s.glb.step = 3 → exec .trainDone s = .next { s with glb := { s.glb with trainRun := false, doneMask := s.glb.doneMask ||| 4, stepState := 2 } }) ∧
  (∀ s : State, idle s = true → stepDone s 2 = true → stepDone s 4 = false →
    exec .stepLlaInit s = .next { s with glb := { shown s 4 with initRun := true }, lla := { s.lla with state := 3 } }) ∧
  (∀ s : State, idle s = true → stepDone s 3 = true → stepDone s 4 = true → s.glb.open_ = false → s.glb.chart = true → s.glb.clocks = true →
    s.glb.lla = true → s.glb.dir = true → s.glb.engines = true → (∀ k ∈ enabledSites s, siteReady s k = true ∨ (s.site k).state = 6 ∨ (s.site k).state = 7) →
    exec .stepOpen s = .next (settleAll { ((enabledSites s).filter (fun k => (s.site k).state = 6)).foldl holeCores s with
      glb := { shown s 5 with open_ := true, stepState := 2 }, tel := { s.tel with surveyOn := true } })) ∧
  (∀ (s : State) (k c : Nat), c ∈ s.glb.logical → c / 24 = k → ((holeCores s k).core c).st = .retired)

/-- FELT FIRMWARE (R435, R438): a GO on a site that is up, with the directory ready and an image the site may read, is measured into the site's slot and
delivered by four sideband writes; GO elsewhere ends with SITE, DIR or RANGE; an unanswered write ends with NO_ACK.
The model's choices in it are in the log: 48, 49, 51. -/
def Obligations.FeltFirmware : Prop :=
  (∀ (s : State) (h : Fin 2), s.quiet = false → ((felt s h).state = 0 ∨ (felt s h).state = 4) →
    exec (.feltGo h) s = .next (setFelt s h { felt s h with
      state := if siteUp s (6 + h) && s.glb.dir && imageOk s h then 1 else 4
      error := if !siteUp s (6 + h) then 1 else if !s.glb.dir then 2 else if !imageOk s h then 3 else 0 })) ∧
  (∀ (s u : State) (h : Fin 2) (bs : List Byte), s.quiet = false → (felt s h).state = 1 → siteUp s (6 + h) = true →
    ({ tag := 0x66002 + h.val } : Hub).read ((felt s h).len.toNat / 128 + 1) s (felt s h).image.toNat (felt s h).len.toNat = (u, .ok bs) →
    ∃ t, exec (.feltMeasureDone h) s = .next t ∧ t = { setFelt (extendSlot u h bs) h { felt s h with state := 2 } with out := t.out } ∧
      t.out = .sideband (6 + h) 24 1 :: .sideband (6 + h) 16 (felt s h).entry :: .sideband (6 + h) 8 (felt s h).len :: .sideband (6 + h) 0 (felt s h).image :: (extendSlot u h bs).out) ∧
  (∀ (s : State) (h : Fin 2), s.quiet = false → (felt s h).state = 2 → siteUp s (6 + h) = true →
    exec (.feltDeliverDone h) s = .next { s with glb := { s.glb with
      felt := Tab.set {} s.glb.felt h { felt s h with state := 3 }, feltReady := s.glb.feltReady ||| (1#2 <<< h.val) } }) ∧
  (∀ (s : State) (h : Fin 2), s.quiet = false → (felt s h).state = 2 → exec (.feltNoAck h) s = .next (setFelt s h { felt s h with state := 4, error := 5 }))

/-- THE STEPS OF A SITE (R29): from OFF to UP each step is accepted in its order, and changes the site, its domain and, at the end, the stack's channels.
The model's choices in it are in the log: 11, 17, 89, 135. -/
def Obligations.SiteSteps : Prop :=
  let pdAt (s : State) (d n : Nat) : Tel := { s.tel with pd := Tab.modify {} s.tel.pd d (fun p => { p with state := n }) }
  (∀ (s : State) (k : Fin 16), s.quiet = false → (s.site k).state = 0 → (s.site k).pwrReq = false → s.clk.rootLock = true → occupiedSite s k = true →
    s.pins.thermTrip = false → exec (.sitePwrReq k) s = .next { setSite s k { s.site k with pwrReq := true } with tel := pdAt s (8 + k) 1 }) ∧
  (∀ (s : State) (k : Fin 16), s.quiet = false → (s.site k).state = 0 → (s.site k).pwrReq = true →
    exec (.sitePowered k) s = .next { setSite s k { s.site k with state := 1 } with tel := pdAt s (8 + k) 2 }) ∧
  (∀ (s : State) (k : Fin 16), s.quiet = false → (s.site k).state = 1 → (s.site k).pwrReq = true → (s.site k).clkFwd = false →
    exec (.siteClkFwd k) s = .next (setSite s k { s.site k with clkFwd := true })) ∧
  (∀ (s : State) (k : Fin 16), s.quiet = false → (s.site k).state = 1 → (s.site k).clkFwd = true →
    exec (.siteHeld k) s = .next (setSite s k { s.site k with state := 2 })) ∧
  (∀ (s : State) (k : Fin 16), s.quiet = false → (s.site k).state = 2 → (s.site k).stopAt = none → (s.site k).clkFwd = true → (s.site k).rstRel = false →
    exec (.siteRstRel k) s = .next (setSite s k { s.site k with rstRel := true, dk := { snoopTimeout := (s.site k).dk.snoopTimeout } })) ∧
  (∀ (s : State) (k : Fin 16), s.quiet = false → (s.site k).state = 2 → (s.site k).stopAt = none → (s.site k).rstRel = true → (s.site k).train = false →
    exec (.siteTrain k) s = .next (setSite s k { s.site k with train := true, state := 3 })) ∧
  (∀ (s : State) (k : Fin 16), s.quiet = false → (s.site k).state = 3 → k.val < 8 → (∀ i, i < 16 → Tab.get ({} : ModTrain) s.fuses.lanes (16 * k.val + i) = {}) →
    exec (.siteTrainingDone k [] 0) s = .next (settle (setSite s k { s.site k with state := 4, unitsUp := modulesFitted k, lanesRepaired := 0 }))) ∧
  (∀ (s : State) (k : Fin 16) (bad : BitVec 32), s.quiet = false → (s.site k).state = 3 → 8 ≤ k.val → bad = 0 → (∀ i, i < 32 → 32 * (k.val - 8) + i ∉ s.chOut) →
    ∃ u, exec (.siteTrainingDone k [] bad) s = .next (settle u) ∧ (u.site k).state = 4 ∧ (u.site k).unitsUp = 32 ∧
      u.pins = { s.pins with selfRefresh := s.pins.selfRefresh &&& ~~~(1#8 <<< (k.val - 8)) } ∧
      ∀ i, i < 32 → chanState u (32 * (k.val - 8) + i) = 1)

/-- SITES STOP AND FAIL (R30, R31): a reset of a site that carries traffic goes to HELD until the traffic is resolved and stops at the state of the bit
cleared; a site in HELD or FAILED stops at once; a lost link fails the site. The domains keep their limits: a domain at its limit is LIMITING, and a voltage
below the range raises the domain's source.
The model's choices in it are in the log: 11, 15, 16, 63, 139, 162. -/
def Obligations.SiteStops : Prop :=
  (∀ (s : State) (k : Fin 16), s.quiet = false → occupiedSite s k = true → siteUp s k = true → ∃ t, exec (.siteReset k) s = .next t ∧
    (t.site k).state = 2 ∧ (t.site k).stopAt = some 1 ∧ (t.site k).clkFwd = false ∧ (t.site k).rstRel = false ∧ (t.site k).train = false ∧
    (t.site k).pwrReq = (s.site k).pwrReq ∧ (∀ j, j ≠ k.val → t.site j = s.site j) ∧ (∀ c, c / 24 ≠ k.val → t.core c = s.core c) ∧ t.mem = s.mem) ∧
  (∀ (s : State) (k : Fin 16) (st : Nat), s.quiet = false → (s.site k).stopAt = some st → s.txns = [] → (k.val ≥ 8 ∨ s.lla.dir = []) → st ≠ 0 →
    ∃ t, exec (.siteResetResolved k) s = .next t ∧ (t.site k).state = st ∧ (t.site k).stopAt = none ∧ t.mem = s.mem) ∧
  (∀ (s : State) (k : Fin 16) (b : Fin 3), s.quiet = false → occupiedSite s k = true → (s.site k).state = 2 → (s.site k).stopAt = none →
    (s.site k).pwrReq = true → (s.site k).clkFwd = true → (s.site k).rstRel = true → ∃ t, exec (.siteCtlClear k b) s = .next t ∧
    (t.site k).state = stopState b ∧ (t.site k).pwrReq = decide (b.val ≠ 0) ∧ (t.site k).clkFwd = decide (b.val = 2) ∧ (t.site k).rstRel = false ∧
    (t.site k).train = false ∧ ∀ j, j ≠ k.val → t.site j = s.site j) ∧
  (∀ (s : State) (k : Fin 16), s.quiet = false → siteUp s k = true → exec (.siteLinkLost k) s = .next (failSite s k true)) ∧
  (∀ (s : State) (d : Fin 48), (Tab.get ({} : Pd) s.tel.pd d).state = 2 → ¬(8 ≤ d.val ∧ d.val ≤ 15) →
    exec (.ivrLimitReached d) s = .next { s with tel := { s.tel with pd := Tab.set {} s.tel.pd d { Tab.get {} s.tel.pd d with state := 3 } } }) ∧
  (∀ (s : State) (d : Fin 48), 8 ≤ d.val → d.val ≤ 15 → (Tab.get ({} : Pd) s.tel.pd d).state = 2 → siteUp s (d - 8) = true →
    exec (.ivrLimitReached d) s = .next (post { s with tel := { s.tel with pd := Tab.set {} s.tel.pd d { Tab.get {} s.tel.pd d with state := 3 } } }
      (d - 8) { cls := 5, opc := 2, addr := ivrLimit s d })) ∧
  (∀ (s : State) (d : Fin 48), (Tab.get ({} : Pd) s.tel.pd d).state = 3 → exec (.undervolt d) s = .next (raise s (32 + d.val) { unit := d.val }))

/-- CHART SESSIONS (R51, R52, R53): OPEN clears the staging image and takes the session for its path; a command in a state that does not accept it, or from
another path, is discarded; the window is written in STAGING alone; VERIFY starts the checks, whose end is VERIFIED or FAILED with the error found; ABORT and
ten seconds of silence end the session.
The model's choices in it are in the log: 8, 141, 142. -/
def Obligations.ChartSessions : Prop :=
  let ready (s : State) (a : Path) (p : ChartPath) : Prop := chartPath s a = some p ∧ s.fcu.safe = false ∧ otherPath s p = false
  (∀ (s : State) (a : Path) (p : ChartPath), ready s a p → (s.chart.state = 0 ∨ s.chart.state = 3 ∨ s.chart.state = 5 ∨ s.chart.state = 6) →
    exec (.chartOpen a) s = .next (settleAll { s with chart := { s.chart with
      state := 1, session := some p, lastPath := (match p with | .host => 0 | .mgmt _ => 1), ended := false, error := 0, errSection := 0xFF
      errOffset := 0, buf := [], lastActivity := s.time, verified := none } })) ∧
  (∀ (s : State) (a : Path) (p : ChartPath), ready s a p → s.chart.state = 1 → s.chart.session = some p →
    exec (.chartVerify a) s = .next (settleAll { s with chart := { s.chart with state := 2, lastActivity := s.time } })) ∧
  (∀ (s : State) (a : Path) (p : ChartPath), ready s a p → s.chart.session = some p → s.chart.state ≠ 1 →
    exec (.chartVerify a) s = .next (settleAll { s with chart := { s.chart with cmdDiscarded := true, lastActivity := s.time } })) ∧
  (∀ (s : State) (a : Path) (p : ChartPath), chartPath s a = some p → s.fcu.safe = false → otherPath s p = true →
    exec (.chartOpen a) s = .next (settleAll { s with chart := { s.chart with cmdDiscarded := true } })) ∧
  (∀ (s : State) (a : Path) (p : ChartPath), ready s a p → s.chart.state ≠ 4 →
    exec (.chartAbort a) s = .next (settleAll { s with chart := { s.chart with state := 0, session := none, ended := false, verified := none } })) ∧
  (∀ (s : State) (a : Path) (p : ChartPath) (off : BitVec 19) (wide : Bool) (v : BitVec 64), let n := if wide then 8 else 4
    ready s a p → s.chart.session = some p → s.chart.state = 1 → off.toNat % n = 0 →
    ∃ t, exec (.chartWindowWrite a off wide v) s = .next t ∧ t = { s with chart := { s.chart with buf := t.chart.buf, lastActivity := s.time } } ∧
      ∀ k, Tab.get 0 t.chart.buf k = let o := s.chart.page * 0x80000 + off.toNat
        if o ≤ k ∧ k < o + n then BitVec.ofNat 8 (v.toNat / 256 ^ (k - o)) else Tab.get 0 s.chart.buf k) ∧
  (∀ (s : State) (a : Path) (p : ChartPath) (off : BitVec 19) (v : BitVec 64), chartPath s a = some p → s.chart.session = none → s.chart.state ≠ 1 → off = 0 →
    exec (.chartWindowWrite a off true v) s = .next { s with chart := { s.chart with winDiscarded := true } }) ∧
  (∀ (s : State) (p : ChartPath), s.quiet = false → s.chart.session = some p → (s.chart.state = 1 ∨ s.chart.state = 3) →
    s.chart.lastActivity + 10000000000 ≤ s.time →
    exec .chartSessionTimeout s = .next { s with chart := { s.chart with session := none, state := 0, verified := none } }) ∧
  (∀ s : State, s.quiet = false → s.chart.state = 2 → s.chart.ended = false →
    let (e, c) := verifyChart s
    exec .verifyDone s = .next { s with chart := { s.chart with
      error := e.1, errSection := e.2.1, errOffset := e.2.2
      state := if e.1 = 0 then 3 else 6
      session := if e.1 = 0 then s.chart.session else none
      verified := if e.1 = 0 then c else s.chart.verified
      lastActivity := if e.1 = 0 then s.time else s.chart.lastActivity } })

/-- APPLYING A CHART (R54, R55, R58): the first APPLY of a verified image, at its end, puts its settings in force, starts epoch 1 and ends the session; a
reload of a module that is not quiescent fails with NOT_QUIESCENT and changes no setting.
The model's choices in it are in the log: 128. -/
def Obligations.ChartApplies : Prop :=
  (∀ (s : State) (a : Path) (p : ChartPath), chartPath s a = some p → s.fcu.safe = false → s.chart.session = some p → s.chart.state = 3 → s.chart.epoch = 0 →
    exec (.chartApply a) s = .next (settleAll { s with chart := { s.chart with state := 4, reload := false, lastActivity := s.time } })) ∧
  (∀ (s : State) (a : Path) (p : ChartPath), chartPath s a = some p → s.fcu.safe = false → s.chart.session = some p → s.chart.state = 3 → s.chart.epoch ≠ 0 →
    quiescent s = false → exec (.chartApply a) s = .next (settleAll { s with chart := { s.chart with
      state := 6, error := 0x18, errSection := 0xFF, errOffset := 0, session := none, verified := none } })) ∧
  (∀ (s : State) (c : Chart), s.quiet = false → s.chart.state = 4 → s.chart.reload = false → s.chart.verified = some c → s.txns = [] → s.chart.epoch = 0 →
    ∃ t, exec .applyDone s = .next (settleAll t) ∧ t.cfg = c ∧ t.chart.state = 5 ∧ t.chart.epoch = 1 ∧ t.chart.session = none ∧ t.glb.chart = true ∧
      (∀ n, n < 64 → (t.slice n).state = if c.slices.any (fun x => x.slice = n) then 0 else 6) ∧
      (∀ n, n < 70 → (t.regulator n).weight = (match c.regs.find? (fun x => x.reg = n) with | some x => x.weight | none => 1)) ∧
      t.cores = s.cores ∧ t.mem = s.mem ∧ t.lla = s.lla ∧ t.sites = s.sites)

/-- TILE MOVERS (R81, R82, R83): a GET run that its engine reads writes the bytes to tile memory, a PUT run its engine writes moves the tile's bytes, an LCOPY
moves bytes between tiles, a SIGNAL adds at its home; a complete descriptor leaves its queue, which counts it and posts; a failed one stops the queue and the
core.
The model's choices in it are in the log: 1, 103. -/
def Obligations.TileMoverRuns : Prop :=
  let one (s : State) (c q : Nat) (d : TmDesc) (f : DescF) : Prop := tmHead s c q = some d ∧ descF d.raw = f ∧ d.fail = none ∧
    d.runs = 0 ∧ d.pos = 0 ∧ d.last = 0 ∧ d.bytes = 0 ∧ (s.core c).st ≠ .reset ∧ ((s.core c).tqr q).stopped = false ∧ siteUp s (c / 24) = true ∧ s.quiet = false
  let begun (s : State) (c q : Nat) (d : TmDesc) : State := setHead s c q { d with started := true }
  let flat (f : DescF) : Prop := f.e1 = 1 ∧ f.e2 = 1 ∧ f.e3 = 1 ∧ 1 ≤ f.e0 ∧ f.g % 128 + f.e0 ≤ 128 ∧ f.g < 2 ^ 57 ∧ f.t % 128 + f.e0 ≤ 128
  let ended (d : TmDesc) (f : DescF) : TmDesc := { d with started := true, runs := 1, bytes := f.e0 }
  (∀ (s u : State) (n : Fin 144) (q : Fin 4) (c t o : Nat) (d : TmDesc) (f : DescF) (bs : List Byte), coreOf s n = some c → one s c q d f → flat f → f.op = 1 →
    let v := begun s c q d
    tmSide v c f.t = .at t o → (tmEng v c q f).read v f.g f.e0 = (u, .ok bs) → (u.core t).ue = [] →
    exec (.tmGet n q 1 .none) s = .next (settleAll (setHead (writeTile u t o bs (fun _ => true)) c q (ended d f)))) ∧
  (∀ (s u : State) (n : Fin 144) (q : Fin 4) (c t o : Nat) (d : TmDesc) (f : DescF) (bs : List Byte), coreOf s n = some c → one s c q d f → flat f → f.op = 2 →
    let v := begun s c q d
    tmSide v c f.t = .at t o → badWord v t o f.e0 = none → (tmEng v c q f).write v f.g (tileBytes v t o f.e0) = (u, .ok bs) → tagBusy u (tmTag c q) = true →
    exec (.tmPut n q 1) s = .next (settleAll (setHead u c q { ended d f with last := f.e0 }))) ∧
  (∀ (s : State) (n : Fin 144) (q : Fin 4) (c t o b so : Nat) (d : TmDesc) (f : DescF), coreOf s n = some c → one s c q d f → flat f → f.op = 3 →
    let v := begun s c q d
    tmSide v c f.t = .at t o → tmSide v c f.g = .at b so → badWord v b so f.e0 = none → (v.core t).ue = [] →
    exec (.tmLcopy n q 1) s = .next (settleAll (setHead (writeTile v t o (tileBytes v b so f.e0) (fun _ => true)) c q (ended d f)))) ∧
  (∀ (s u : State) (n : Fin 144) (q : Fin 4) (c : Nat) (d : TmDesc) (f : DescF) (bs : List Byte), coreOf s n = some c → one s c q d f → f.op = 4 →
    (tmEng s c q f).atomic s f.g 0x10 f.addend = (u, .ok bs) →
    exec (.tmSignal n q) s = .next (settleAll (setHead u c q { d with started := true, runs := 1, bytes := 8 }))) ∧
  (∀ (s : State) (n : Fin 144) (q : Fin 4) (c : Nat) (d : TmDesc) (f : DescF), coreOf s n = some c → tmHead s c q = some d → descF d.raw = f →
    (f.op = 1 ∨ f.op = 3) → d.fail = none → f.total ≤ d.runs → d.started = true → padded s (tmTag c q) = false → s.quiet = false →
    let u := endWork s (tmTag c q)
    let x := (u.core c).setTq q { (u.core c).tqr q with q := ((u.core c).tqr q).q.tail, done := (((u.core c).tqr q).done + 1) % 2 ^ 32 }
    exec (.tmDescComplete n q) s = .next (settleAll (setCore u c (if f.flags % 2 = 1 then x.postSem f.sem 1 else x)))) ∧
  (∀ (s : State) (n : Fin 144) (q : Fin 4) (c st run : Nat) (d : TmDesc), coreOf s n = some c → tmHead s c q = some d → d.fail = some (st, run) →
    s.quiet = false → ∃ u, exec (.tmDescFail n q) s = .next (settleAll u) ∧ ((u.core c).tqr q).stopped = true ∧
      ((u.core c).tqr q).err = BitVec.ofNat 64 (fld st 63 56 + fld d.bytes 55 32 + fld run 31 0))

/-- LAUNCH (R87, R298): the command in progress names cores of its slice, none retired; once all are HALTED the image is loaded and every one starts at the
entry with the arguments in X1 to X8; it ends when all have stopped, with CORE_TRAP and the lowest core that trapped; a core retires in place.
The model's choices in it are in the log: 59, 117, 119, 155. -/
def Obligations.LaunchRuns : Prop :=
  (∀ (s : State) (q : Fin 4096) (c : Cmd), s.quiet = false → mayStart s q = false → (s.queue q).cmd = some c → c.opc = 0x10 → c.result = none → c.stage = 0 →
    c.aborting = false → launchCores c ≠ [] → (∀ n ∈ launchCores c, coreUnfit s n = false) →
    (∃ r, sliceRec s (queueSlice s q) = some r ∧ ∀ n ∈ launchCores c, r.cores.toNat.testBit n = true) →
    exec (.launch q) s = .next (settleAll (setCmd s q { c with stage := 1 }))) ∧
  (∀ (s : State) (q : Fin 4096) (c : Cmd), s.quiet = false → mayStart s q = false → (s.queue q).cmd = some c → c.opc = 0x10 → c.result = none → c.stage = 0 →
    c.aborting = false → (∀ r, sliceRec s (queueSlice s q) = some r → ∃ n ∈ launchCores c, r.cores.toNat.testBit n = false) → launchCores c ≠ [] →
    exec (.launch q) s = .next (settleAll (setCmd s q { c with result := some (3, 0, none) }))) ∧
  (∀ (s : State) (q : Fin 4096) (c : Cmd) (n k : Nat), s.quiet = false → (s.queue q).cmd = some c → c.opc = 0x10 → c.result = none → c.stage = 1 → c.aborting = false →
    launchCores c = [n] → coreOf s n = some k → coreUnfit s n = false → (s.core k).st = .halted → customerDie s (k / 24) = false →
    slotLe c.raw 0x2C 4 = 0 → ∃ u, exec (.launchStart q) s = .next (settleAll u) ∧ (u.core k).st = .running ∧ (u.core k).pc = BitVec.ofNat 18 (slotLe c.raw 0x28 4) ∧
      (∀ i, i < 8 → (u.core k).xr (i + 1) = BitVec.ofNat 64 (slotLe c.raw (0x38 + 8 * i) 8)) ∧ (∀ i, 8 < i → (u.core k).xr i = 0) ∧
      (u.core k).tmem = (s.core k).tmem ∧ (u.core k).launch = some q.val ∧ (u.queue q).cmd = some { c with stage := 2 }) ∧
  (∀ (s : State) (q : Fin 4096) (c : Cmd), s.quiet = false → (s.queue q).cmd = some c → c.opc = 0x10 → c.result = none → c.stage = 2 → c.aborting = false →
    (∀ n ∈ launchCores c, ∃ k, coreOf s n = some k ∧ (s.core k).st = .halted ∧ (s.core k).trapCause = 0 ∧ customerDie s (k / 24) = false ∧ coreGone s n = false) →
    exec (.launchComplete q) s = .next (setCmd s q { c with result := some (0, 0, none) })) ∧
  (∀ (s : State) (q : Fin 4096) (c : Cmd) (n k : Nat), s.quiet = false → (s.queue q).cmd = some c → c.opc = 0x10 → c.result = none → c.stage = 2 → c.aborting = false →
    launchCores c = [n] → coreOf s n = some k → (s.core k).st = .halted → (s.core k).trapCause ≠ 0 → customerDie s (k / 24) = false → coreGone s n = false →
    exec (.launchComplete q) s = .next (setCmd s q { c with result := some (9, n + 256 * ((s.core k).trapCause + flag (s.core k).trapAsync 7), none) })) ∧
  (∀ (s : State) (n : Fin 144) (k : Nat), coreOf s n = some k → s.quiet = false → s.glb.open_ = true → (s.core k).st ≠ .retired →
    exec (.coreRetire n) s = .next (retireInService s k) ∧ ((retireCore s k (!customerDie s (k / 24))).core k).st = .retired)

/-- THE ARRAY (R162–R168): ENABLE and the end of a disable change the state; the initialisation leaves every way invalid, the counters and the directory
clear; an operation is stored, started or refused at its slice, and its end shows DONE with its lines.
The model's choices in it are in the log: 96, 153. -/
def Obligations.ArrayCommands : Prop :=
  (∀ s : State, s.quiet = false → s.lla.state ≠ 3 →
    exec .llaEnable s = .next { s with lla := { s.lla with enable := true, state := if s.lla.state = 0 ∨ s.lla.state = 2 then 1 else s.lla.state } } ∧
    exec .llaDisable s = .next { s with lla := { s.lla with enable := false, state := if s.lla.state = 1 then 2 else s.lla.state } }) ∧
  (∀ s : State, s.quiet = false → s.lla.state = 2 → s.lla.lines = [] → exec .llaDisableDone s = .next (settleAll { s with lla := { s.lla with state := 0 } })) ∧
  (∀ s : State, s.quiet = false → s.glb.initRun = true → ∃ t, exec .llaInitDone s = .next (settleAll t) ∧ t = { s with lla := t.lla, glb := t.glb } ∧
    t.lla.lines = [] ∧ t.lla.dir = [] ∧ t.lla.state = 1 ∧ t.lla.enable = true ∧ t.glb.lla = true ∧ t.glb.dir = true ∧ t.glb.initRun = false ∧
    ∀ j, j < 32 → (t.home j).lfsr = 0xACE1 ∧ (t.home j).hits = 0 ∧ (t.home j).misses = 0 ∧ (t.home j).writebacks = 0) ∧
  (∀ (s : State) (j : Fin 32) (w : BitVec 16) (r : BitVec 7), s.quiet = false →
    exec (.llaMaintStore (some j) w r) s = .next (setHome s j { s.home j with mWays := w.toNat, mReg := r.toNat })) ∧
  (∀ (i : Instr) (s : State) (j : Fin 32) (w : BitVec 16) (r : BitVec 7) (op : Nat), s.quiet = false → (s.home j).mState ≠ 1 →
    (i, op) ∈ [(Instr.clean (some j) w r, 1), (.invalidate (some j) w r, 2), (.cleanInvalidate (some j) w r, 3), (.llaZero (some j) w r, 4), (.preload (some j) w r, 5)] →
    let m : MaintOp := { op := op, base := (s.home j).mBase, size := (s.home j).mSize, ways := w.toNat, reg := r.toNat }
    let e := maintCheck s j m
    exec i s = .next (setHome s j { s.home j with
      mWays := w.toNat, mReg := r.toNat, running := if e = 0 then some m else none, lines := 0, notPlaced := 0, mError := e
      mState := if e = 0 then 1 else 3, pos := {} })) ∧
  (∀ (s : State) (j : Fin 32) (w : BitVec 16) (r : BitVec 7) (m : MaintOp), s.quiet = false → (s.home j).mState = 1 → (s.home j).running = some m →
    1 ≤ m.op → m.op ≤ 3 → s.lla.lines = [] → ∃ t, exec (.maintAbort (some j) w r) s = .next t ∧ t = { s with draws := s.draws + 1, lla := t.lla } ∧
      t.lla = { s.lla with slices := t.lla.slices } ∧ (∀ k, k ≠ j.val → t.home k = s.home k) ∧ (t.home j).running = none ∧ (t.home j).lines = (s.home j).lines ∧
      (t.home j).mError = 4 ∧ (t.home j).mState = 3) ∧
  (∀ (s : State) (j : Fin 32) (m : MaintOp), s.quiet = false → (s.home j).running = some m → m.op = 1 → heldLines s j m = [] → (s.home j).pos.bad = false →
    ∃ t, exec (.maintDone j false) s = .next (settleAll t) ∧ t = { s with lla := { s.lla with slices := t.lla.slices } } ∧ (∀ k, k ≠ j.val → t.home k = s.home k) ∧
      (t.home j).running = none ∧ (t.home j).lines = (s.home j).lines ∧ (t.home j).mError = 0 ∧ (t.home j).mState = 2)

/-- THE ARRAY'S LINES (R162): the end of an INVALIDATE drops every line of its range and ways in its home, and no line of another home; the end of a ZERO of a
range of memory leaves every byte of the range that its channels hold zero, and every other byte as it was.
The model's choices in it are in the log: 96, 153. -/
def Obligations.MaintenanceEffect : Prop :=
  (∀ (s : State) (j : Fin 32) (m : MaintOp), s.quiet = false → (s.home j).running = some m → m.op = 2 → (s.home j).pos = {} → (heldLines s j m).length ≤ 2 ^ 64 →
    ∃ t, exec (.maintDone j false) s = .next (settleAll t) ∧ (t.home j).mState = 2 ∧ t.mem = s.mem ∧
      (∀ p ∈ heldLines s j m, (t.way j p.1 p.2.1).valid = false) ∧
      ∀ k st w, k ≠ j.val → st < 16384 → w < 16 → t.way k st w = s.way k st w) ∧
  (∀ (s : State) (j : Fin 32) (m : MaintOp) (r : Region), s.quiet = false → (s.home j).running = some m → m.op = 4 → (s.home j).pos = {} → agentLines s j m = [] →
    (∀ t ∈ s.txns, t.active = false) → rangeRegion s m.base m.size = some r → (∀ ch, 8 * j.val ≤ ch → ch < 8 * j.val + 8 → chanState s ch = 1) → spanLines (maintSpans s j m).2 ≤ 2 ^ 64 →
    (m.reg < 70 → s.cfg.strict = false ∧ s.noc.throttled = false) →
    ∃ t, exec (.maintDone j false) s = .next (settleAll t) ∧ (t.home j).mState = 2 ∧
      let zeroed (k : Nat) : Prop := ∃ ch, 8 * j.val ≤ ch ∧ ch < 8 * j.val + 8 ∧ ∃ p ∈ rangeSpans r m.base m.size ch, memKey ch p.1 ≤ k ∧ k < memKey ch p.1 + p.2
      ∀ k, (zeroed k → Tab.get 0 t.mem k = 0) ∧ (¬zeroed k → Tab.get 0 t.mem k = Tab.get 0 s.mem k))

/-- MEMORY CONTROLLERS (R171–R177): a corrected scrub counts; an uncorrectable line outside every region poisons it, counts and raises; a spare row is fused;
a channel retires with its stack degraded; the temperature sets the stack's state; a refresh changes nothing; one channel of a stack recalibrates. -/
def Obligations.ControllerEvents : Prop :=
  (∀ (s : State) (ch : Fin 256) (l : BitVec 25), chanBusy s ch = true → s.glb.open_ = true → exec (.patrolScrub ch l .corrected) s = .next (countCe s ch)) ∧
  (∀ (s : State) (ch : Fin 256) (l : BitVec 25), chanBusy s ch = true → s.glb.open_ = true → regionAt s ch (l.toNat * 128) = none →
    ∃ u, exec (.patrolScrub ch l .hbm) s = .next (raise u (400 + ch) { unit := ch, info0 := (u.mc (ch / 2)).errAddr.toNat }) ∧
      u = { s with mcs := (countUe s ch 0).mcs, poison := u.poison } ∧ (u.mc (ch / 2)).ue = satAdd 65535 (s.mc (ch / 2)).ue 1 ∧
      ∀ k, u.poison.contains k = (s.poison.contains k || k == memKey ch (l.toNat * 128) / 128)) ∧
  (∀ (s : State) (ch : Fin 256), s.quiet = false → chanState s ch = 1 → Tab.get 0 s.fuses.ppr (ch.val / 32) < 256 →
    exec (.rowSpare ch true) s = .next (setMc { s with fuses := { s.fuses with ppr := Tab.set 0 s.fuses.ppr (ch.val / 32) (Tab.get 0 s.fuses.ppr (ch.val / 32) + 1) } } (ch / 2)
      { s.mc (ch / 2) with pprDone := ((s.mc (ch / 2)).pprDone + 1) % 65536 })) ∧
  (∀ (s : State) (ch : Fin 256), s.quiet = false → chanState s ch = 1 → exec (.rowSpare ch false) s = .next (raise s (912 + ch.val / 32) { unit := ch.val / 32 })) ∧
  (∀ (s : State) (ch : Fin 256), s.quiet = false → (chanState s ch = 1 ∨ chanState s ch = 2) → ∃ t, exec (.channelRetire ch) s = .next (settleAll (raise t (656 + ch) { unit := ch })) ∧
    chanState t ch = 3 ∧ (t.site (8 + ch / 32)).unitsUp = (s.site (8 + ch / 32)).unitsUp - 1 ∧
    (t.site (8 + ch / 32)).state = (if (s.site (8 + ch / 32)).unitsUp ≤ 1 then 7 else 5) ∧ t.mem = s.mem ∧ t.cores = s.cores) ∧
  (∀ (s : State) (k : Fin 8) (t : BitVec 8), siteUp s (8 + k) = true → t.toNat < 85 → (Tab.get ({} : Stack) s.hstacks k).therm = 0 →
    let x : Stack := { Tab.get {} s.hstacks k with temp := t.toNat, lastRead := s.time }
    exec (.stackTempRead k t) s = .next { s with hstacks := Tab.set {} s.hstacks k x }) ∧
  (∀ (s : State) (k : Fin 8) (t : BitVec 8), siteUp s (8 + k) = true → 110 ≤ t.toNat → s.pins.thermTrip = false →
    ∃ u, exec (.stackTempRead k t) s = .next u ∧ u.pins.thermTrip = true ∧ u.tel.tripSensor = some (0x80 + k.val) ∧ ∀ c, c < 256 → chanState u c = 0) ∧
  (∀ (s : State) (ch : Fin 256), exec (.refresh ch) s = .next s) ∧
  (∀ (s : State) (ch : Fin 256), chanBusy s ch = true → (Tab.get ({} : Stack) s.hstacks (ch.val / 32)).recalCh = none → recalAt s ch ≤ s.time →
    let x : Stack := { Tab.get {} s.hstacks (ch.val / 32) with recalCh := some ch.val }
    exec (.recalibration ch) s = .next (setChan { s with hstacks := Tab.set {} s.hstacks (ch.val / 32) x } ch 2)) ∧
  (∀ (s : State) (ch : Fin 256), s.quiet = false → chanState s ch = 2 → ∃ t, exec (.recalDone ch) s = .next (settleAll t) ∧ chanState t ch = 1 ∧
    (Tab.get ({} : Stack) t.hstacks (ch.val / 32)).recalCh = none ∧ (t.mc (ch / 2)).recals = ((s.mc (ch / 2)).recals + 1) % 65536 ∧ t.mem = s.mem)

/-- TRANSLATION (R179–R198): a walk that finds its leaf installs it and counts; the context root is written where no slice holds it; a fault or a missing
permission is recorded; invalidations queue up to sixteen, and the oldest completes by dropping the entries it covers; the accesses of a slice to its remote
regions end their release and acquire.
The model's choices in it are in the log: 88, 98, 157. -/
def Obligations.TranslationCommands : Prop :=
  let counted (u : State) (n : Nat) : State := setCtx u n { u.ctx n with walks := (u.ctx n).walks + 1 }
  let miss (s : State) (n p a va : Nat) : Prop := s.quiet = false ∧ va < 2 ^ 57 ∧ (a = 0 ∨ writeHeld s n va = false) ∧ microFind s p n va = none
  (∀ (s u : State) (n : Fin 64) (p : Fin 12) (a : Fin 3) (dva : BitVec 64) (e : TlbEntry), miss s n p a dva.toNat →
    tlbFind s n dva.toNat = none → walk s (missKey n p) n dva.toNat = (u, .leaf e) →
    (if a = 0 then e.r else if a = 1 then e.w else e.a) = true → exec (.demandWalk n p dva a) s = .next (settleAll (microInstall (install (counted u n) e) p e))) ∧
  (∀ (s u : State) (n : Fin 64) (p : Fin 12) (a : Fin 3) (dva : BitVec 64) (r l : Nat), miss s n p a dva.toNat →
    tlbFind s n dva.toNat = none → walk s (missKey n p) n dva.toNat = (u, .fault r l) → r ≠ 8 →
    exec (.demandWalk n p dva a) s = .next (settleAll (recordFault (counted u n) n dva.toNat p l a r))) ∧
  (∀ (s : State) (n : Fin 64) (p : Fin 12) (a : Fin 3) (dva : BitVec 64) (e : TlbEntry), miss s n p a dva.toNat →
    tlbFind s n dva.toNat = some e → s.gtu.walks = [] → (if a = 0 then e.r else if a = 1 then e.w else e.a) = false →
    exec (.demandWalk n p dva a) s = .next (settleAll (recordFault (microInstall s p e) n dva.toNat p e.level a 0x02))) ∧
  (∀ (s u : State) (n : Fin 64) (dva : BitVec 57) (tag t : Nat) (e : TlbEntry), s.quiet = false → s.gtu.ahead = [] →
    let page := dva.toNat / 4096
    (streamsOf s n).findSome? (fun st => (st.tileAhead page).map (fun t => (st.tag, t))) = some (tag, t) → tlbFind s n dva.toNat = none →
    walk { s with gtu := { s.gtu with ahead := [(tag, t, page)] } } (2 ^ 60 + n * 2 ^ 46 + page) n dva.toNat true = (u, .leaf e) →
    exec (.prefetchWalk n dva) s = .next (settleAll (install (setCtx u n { u.ctx n with prewalks := (u.ctx n).prewalks + 1 }) e))) ∧
  (∀ (s : State) (n : Fin 64) (v : BitVec 64), s.quiet = false → occupied s n = false →
    exec (.gtuCtxRootWrite n v) s = .next (setCtx s n { s.ctx n with root := v &&& 0x3FFFFFFFFF001#64 })) ∧
  (∀ (s : State) (n : Fin 64) (v : BitVec 64), s.quiet = false → occupied s n = true → exec (.gtuCtxRootWrite n v) s = .next s) ∧
  (∀ (s : State) (n : BitVec 6) (q : BitVec 16), s.quiet = false →
    exec (.invStore n q) s = .next { s with gtu := { s.gtu with invCtlSlice := n.toNat, invCtlSeq := q.toNat } }) ∧
  (∀ (i : Instr) (s : State) (n : BitVec 6) (q : BitVec 16) (op : Nat), s.quiet = false →
    (i, op) ∈ [(Instr.invModule n q, 1), (.invContext n q, 2), (.invRange n q, 3)] →
    exec i s = .next { s with gtu := if 16 ≤ s.gtu.invq.length then { s.gtu with discarded := true } else { s.gtu with
      invCtlSlice := n.toNat, invCtlSeq := q.toNat
      invq := s.gtu.invq ++ [{ op := op, slice := n.toNat, seq := q.toNat, addr := s.gtu.invAddr.toNat, size := s.gtu.invSize.toNat }] } }) ∧
  (∀ (s : State) (r : InvReq) (l : List InvReq), s.quiet = false → s.gtu.invq = r :: l → (∀ e ∈ heldEntries s, r.covers e = true → entryInFlight s e = false) →
    ∃ t, exec .invComplete s = .next t ∧ t = { s with gtu := t.gtu, txns := t.txns } ∧ t.gtu.invq = l ∧ t.gtu.doneSeq = r.seq ∧
      t.gtu.tlb = s.gtu.tlb.filter (fun e => !r.covers e) ∧ t.gtu.micro = s.gtu.micro.filter (fun p => !r.covers p.2) ∧
      (∀ c ∈ t.gtu.wcache, r.overlaps c.slice c.va (tableSpan c.level) = false) ∧ ∀ w ∈ t.gtu.walks, r.stops w = false) ∧
  (∀ (s : State) (f : FabOp), s.quiet = false → s.fabOps = [f] → f.contexts = 0 → f.regions ≠ 0 → f.keep = true →
    exec (if f.acquire then .fabricAcquireDone f.id else .fabricReleaseDone f.id) s = .next (settleAll { s with fabOps := [{ f with acquire := false, regions := 0 }] }))

/-- THE ON-DIE NETWORK (R264–R278): a period gives each regulator its tokens up to four periods' worth, or its fixed rate in STRICT mode, and takes an
accepted rate into effect; late deadlines are marked; a promoted request leaves with a deadline or, exhausted, for the floor; the floor serves in rotation; a
padded response leaves at its time; the views refresh every 1,024 ns.
The model's choices in it are in the log: 8, 91, 97, 143, 144, 145, 146. -/
def Obligations.NetworkEvents : Prop :=
  (∀ s : State, s.quiet = false → s.clk.rootLock = true → ∃ u, exec .regulatorPeriod s = .next (settleAll u) ∧ ∀ n, n < 70 →
    let r := s.regulator n
    let g := match r.next with | some p => p.2 | none => r.guar
    (u.regulator n).next = none ∧ (u.regulator n).guar = g ∧ (u.regulator n).demand = 0 ∧ (u.regulator n).lines = r.lines ∧
      (s.cfg.strict = false → (u.regulator n).tokens = min (r.tokens + g) (4 * g))) ∧
  (∀ (s : State) (ch : Fin 256), s.quiet = false → exec (.deadlineLate ch) s = .next { s with noc := { s.noc with
    mcq := s.noc.mcq.map (fun q => { q with late := q.late || (decide (q.ch = ch.val) && decide (q.svc = 2) && decide (slack s q < 0)) }) } }) ∧
  (∀ (s : State) (n : Fin 70) (ch : Fin 256) (q : McReq), s.quiet = false → s.noc.mcq = [q] → q.ch = ch.val → q.reg = n.val → q.svc ≤ 1 →
    s.cfg.ageLimitNs < ageOf s q.arrival → s.noc.exhausted.getLsbD n = false → let r := s.regulator n
    exec (.urgentPromotion n (some ch)) s = .next { setRegulator s n { r with
        urgent := r.urgent + 1, tokens := max (r.tokens - 4) (min r.tokens (-(r.guar : Int))) }
      with noc := { (setRegulator s n { r with urgent := r.urgent + 1, tokens := max (r.tokens - 4) (min r.tokens (-(r.guar : Int))) }).noc
        with mcq := [{ q with svc := 2, deadline := (s.time + 2000) % 2 ^ 20 }] } }) ∧
  (∀ (s : State) (n : Fin 70) (m : MeterReq), s.quiet = false → n.val ≠ 64 → n.val ≠ 65 → n.val ≠ 67 → s.noc.meters = [m] → m.reg = n.val → m.released = false →
    s.cfg.ageLimitNs < ageOf s m.arrival → ∃ u, exec (.urgentPromotion n none) s = .next (settleAll u) ∧ u.noc.meters = [{ m with released := true }] ∧
    u.regulator n = { s.regulator n with urgent := (s.regulator n).urgent + 1 } ∧ u = { s with noc := u.noc }) ∧
  (∀ (s : State) (i : Fin 128) (q : McReq), s.quiet = false → s.noc.mcq = [q] → q.ch / 2 = i.val → q.svc = 3 → chanState s q.ch = 1 → q.reg < 70 →
    ∃ u, exec (.floorService i) s = .next u ∧ u = { s with noc := u.noc } ∧ u.noc.mcq = [] ∧ Tab.get 0 u.noc.floorTurn i = q.reg ∧
      u.regulator q.reg = { s.regulator q.reg with floor := (s.regulator q.reg).floor + 1 }) ∧
  (∀ (s : State) (n : Fin 64) (p : Pad), s.quiet = false → s.noc.pads = [p] → p.slice = n.val → p.due ≤ s.time →
    let v := countLatency { s with noc := { s.noc with pads := [] } } p.ini p.view (s.time - p.arrival)
    exec (.strictPadRelease n false) s = .next (settleAll v) ∧
    exec (.strictPadRelease n true) s = .next (settleAll (raise { v with noc := { v.noc with strictLate := satAdd (2 ^ 64 - 1) v.noc.strictLate 1 } }
      (1228 + n) { slice := n, unit := n }))) ∧
  (∀ (s : State) (n : Fin 70) (v : BitVec 64), s.quiet = false → n.val < 69 → s.chart.state ≠ 4 → let m := regMax s n
    let fits := bits v 31 0 ≤ m.2 ∧ 1 ≤ bits v 63 48 ∧ bits v 63 48 ≤ m.1
    exec (.nocRegRateWrite n v) s = .next (setRegulator s n (if fits then { s.regulator n with next := some (bits v 63 48, bits v 31 0) }
      else { s.regulator n with rejected := true }))) ∧
  (∀ s : State, s.quiet = false → exec .nocCntClear s = .next { s with noc := { s.noc with ini := [] } }) ∧
  (∀ s : State, s.quiet = false → s.time % 1024 = 0 → ∃ u, exec .tenantViewRefresh s = .next u ∧ u = { s with noc := { s.noc with tv := u.noc.tv } } ∧
    ∀ n, n < 64 → (Tab.get ({} : Tv) u.noc.tv n).viewTm = (Tab.get ({} : Tv) s.noc.tv n).tm / 65536 ∧
      (Tab.get ({} : Tv) u.noc.tv n).viewQ = (Tab.get ({} : Tv) s.noc.tv n).q / 65536 ∧ (Tab.get ({} : Tv) u.noc.tv n).stamp = s.time)

/-- REQUESTS FROM A SITE (R203, R210, R214, R219, R223): a well-formed request of an H-site that the access filter passes, or of a unit of a customer die,
takes its credit and joins its line's queue; the filter's denial is answered DENIED and recorded.
The model's choices in it are in the log: 90, 134, 148. -/
def Obligations.SiteRequests : Prop :=
  let rows (m : DkIn) (a b : BitVec 64) : List (Instr × Nat × Nat × Nat) :=
    [(.rdShare m .none, 1, 0, 0), (.rdOwn m .none, 2, 0, 0), (.upgrade m, 3, 0, 0), (.rdPeek m .none, 4, 0, 0), (.wrLine m, 5, 0, 0), (.wrBytes m, 6, 0, 0),
     (.wrback m, 7, 0, 0), (.atAdd m a b, 0x10, a.toNat, b.toNat), (.atSwap m a b, 0x11, a.toNat, b.toNat), (.atCas m a b, 0x12, a.toNat, b.toNat),
     (.atMin m a b, 0x13, a.toNat, b.toNat), (.atMax m a b, 0x14, a.toNat, b.toNat)]
  let well (s u : State) (m : DkIn) (o b : Nat) : Prop := came s u m 1 o reqFields ∧ reqBadField u m b = false ∧ reqReuse u m = false ∧
    (o = 1 ∨ o = 2 ∨ o = 3 ∨ o = 7 → cachingSite u m.site = true)
  let opened (u : State) (m : DkIn) : State := setDk u m.site { u.dk m.site with outstanding := (u.dk m.site).outstanding ++ [(m.txn.toNat, m.addr.toNat / 128)] }
  let txn (u : State) (m : DkIn) (o a b : Nat) : Txn := { id := u.nextTxn, src := .agent m.site m.txn.toNat, opc := o, addr := m.addr.toNat, noalloc := m.attr.getLsbD 2, attr := m.attr.toNat % 4, op0 := a, op1 := b }
  let queued (u : State) (t : Txn) : State := { u with nextTxn := u.nextTxn + 1, txns := u.txns ++ [t] }
  (∀ (i : Instr) (s u : State) (m : DkIn) (x y : BitVec 64) (o a b : Nat), (i, o, a, b) ∈ rows m x y → well s u m o b →
    6 ≤ m.site.val → safAllows (opened u m) (m.site - 6) o m.addr.toNat = true →
    exec i s = .next (settleAll (queued (opened u m) { txn u m o a b with hsite := some (m.site - 6), reg := 69, ini := 202 + (m.site - 6) }))) ∧
  (∀ (i : Instr) (s u : State) (m : DkIn) (x y : BitVec 64) (o a b : Nat), (i, o, a, b) ∈ rows m x y → well s u m o b →
    6 ≤ m.site.val → safAllows (opened u m) (m.site - 6) o m.addr.toNat = false →
    exec i s = .next (safDeny (opened u m) m.site m.txn.toNat o m.addr.toNat)) ∧
  (∀ (i : Instr) (s u : State) (m : DkIn) (x y : BitVec 64) (o a b lg sl : Nat), (i, o, a, b) ∈ rows m x y → well s u m o b →
    m.site.val < 6 → logicalOf (opened u m) (m.site * 24 + m.unit.toNat) = some lg → sliceOfCore (opened u m) (m.site * 24 + m.unit.toNat) = some sl →
    exec i s = .next (settleAll (if m.attr.getLsbD 3 then queued (opened u m) { txn u m o a b with slice := some sl, reg := sl, ini := lg, unit := m.unit.toNat }
      else translateTxn (queued (opened u m) { txn u m o a b with slice := some sl, reg := sl, ini := lg, untranslated := true, unit := m.unit.toNat }) u.nextTxn)))

/-- ANSWERS FROM A SITE (R212–R214, R220, R228): an answer to a snoop the site owes is taken, a GRANT_ACK ends its transaction and data end a pull; an answer
to nothing is UNEXPECTED and fatal, as is a snoop not answered within DK_SNOOP_TIMEOUT, of at least 10 µs; an answer with a bit of its header set that it does
not use is BAD_FIELD and discarded.
The model's choices in it are in the log: 14, 90, 99, 134. -/
def Obligations.SiteAnswers : Prop :=
  let rows (m : DkIn) (l : BitVec 1024) : List (Instr × Nat × Nat × List (Nat × Nat) × Nat × Option Line) :=
    [(.gone m, 3, 1, answerFields, 0, none), (.keptS m, 3, 2, answerFields, 1, none), (.keptE m, 3, 3, answerFields, 2, none),
     (.snpData m l, 4, 3, snpDataFields, m.grant.toNat, if m.attr.getLsbD 1 then some l else none)]
  let owed (u : State) (m : DkIn) : Option Txn :=
    u.txns.find? (fun t => t.tracker = m.txn.toNat && t.stage = .snooping && t.wait.contains m.site.val && (dirHome u t.addr).1 = m.home.toNat)
  let open_ (u : State) (m : DkIn) (st : TxStage) : Option Txn :=
    u.txns.find? (fun t => t.src = .agent m.site.val m.txn.toNat && t.stage = st && (dirHome u t.addr).1 = m.home.toNat)
  (∀ (i : Instr) (s u : State) (m : DkIn) (l : BitVec 1024) (cls opc keeps : Nat) (used : List (Nat × Nat)) (dirty : Option Line) (t : Txn),
    (i, cls, opc, used, keeps, dirty) ∈ rows m l → (cls = 4 → m.grant ≠ 3) → came s u m cls opc used → owed u m = some t →
    keepsOk (snpOf t) keeps = true → exec i s = .next (settleAll (snoopAnswered u t.id m.site keeps dirty))) ∧
  (∀ (i : Instr) (s u : State) (m : DkIn) (l : BitVec 1024) (cls opc keeps : Nat) (used : List (Nat × Nat)) (dirty : Option Line),
    (i, cls, opc, used, keeps, dirty) ∈ rows m l → (cls = 4 → m.grant ≠ 3) → came s u m cls opc used → owed u m = none →
    exec i s = .next (dkFatal u m.site 0x06 cls opc)) ∧
  (∀ (s u : State) (m : DkIn) (t : Txn), came s u m 3 4 answerFields → open_ u m .needAck = some t → exec (.grantAck m) s = .next (settleAll (dropTxn u t.id))) ∧
  (∀ (s u : State) (m : DkIn) (mask : BitVec 128) (data : BitVec 1024) (t : Txn), came s u m 4 2 wrDataFields → open_ u m .needData = some t →
    (m.attr.getLsbD 0 = false ∨ t.opc = 6) →
    exec (.wrData m mask data) s = .next (settleAll (dataArrived u t (if m.attr.getLsbD 0 then mask else BitVec.allOnes 128) data))) ∧
  (∀ (s : State) (k : Fin 8) (n : Nat) (t : Txn), siteUp s k = true → s.quiet = false →
    s.txns.find? (fun t => t.id = n && t.stage = .snooping && t.wait.contains k.val) = some t → t.snoopAt + max 10 (s.dk k).snoopTimeout * 1000 ≤ s.time →
    exec (.snoopTimeout k n) s = .next (dkFatal s k 0x07 2 0)) ∧
  (∀ (i : Instr) (s u : State) (m : DkIn) (l : BitVec 1024) (cls opc keeps : Nat) (used : List (Nat × Nat)) (dirty : Option Line),
    (i, cls, opc, used, keeps, dirty) ∈ rows m l → m.cls.toNat = cls → m.opc.toNat = opc → arrive s m.site cls opc = some (u, true) → m.plain used = false →
    exec i s = .next (dkError u m.site 0x04 cls opc false))

/-- MESSAGES TO A SITE (R207, R211–R216, R225, R226): the first waiting message of a class goes when the hub holds a credit for it, and takes the credit;
LIMIT_ON and LIMIT_OFF follow the domain; time messages carry TIME; and credits pass both ways, never beyond those granted.
The model's choices in it are in the log: 63, 90, 134, 152. -/
def Obligations.SiteMessages : Prop :=
  let rows (k : Fin 8) : List (Instr × Nat × Nat) :=
    [(.snpShare k, 2, 1), (.snpDrop k, 2, 2), (.snpPeek k, 2, 3), (.rspDone k, 3, 0x20), (.pull k, 3, 0x21), (.pullDone k, 3, 0x22), (.atDone k, 3, 0x23), (.rdData k, 4, 1),
     (.unitReset k, 5, 4), (.unitStart k, 5, 5), (.unitHaltReq k, 5, 6), (.image k, 5, 8)]
  let live (s : State) (k : Nat) : Prop := siteUp s k = true ∧ s.quiet = false
  let head (s : State) (k cls opc : Nat) (m : DkMsg) (r : List DkMsg) : Prop :=
    (s.dk k).outbox = m :: r ∧ m.cls = cls ∧ m.opc = opc ∧ (s.dk k).hubInit = true ∧ heldForPad s k m = false
  let flits (s : State) (n : Nat) : Nat := (n + Config.flits s.draws) % 2 ^ 64
  let sent (s : State) (k : Nat) (m : DkMsg) (r : List DkMsg) (c : Credits) : State :=
    { setDk s k { s.dk k with hub := c, outbox := r, txFlits := flits s (s.dk k).txFlits } with out := .deckle k m m.slots :: s.out, draws := s.draws + 1 }
  (∀ (i : Instr) (s : State) (k : Fin 8) (cls opc : Nat) (m : DkMsg) (r : List DkMsg) (c : Credits), (i, cls, opc) ∈ rows k → live s k → head s k cls opc m r →
    (s.dk k).hub.take cls = some c → exec i s = .next (sent s k m r c)) ∧
  (∀ (i : Instr) (s : State) (k : Fin 8) (cls opc : Nat) (m : DkMsg) (r : List DkMsg), (i, cls, opc) ∈ rows k → live s k → head s k cls opc m r →
    (s.dk k).hub.take cls = none → exec i s = .next s) ∧
  (∀ (s : State) (k : Fin 8) (m : DkMsg) (r : List DkMsg) (c : Credits), live s k → head s k 5 2 m r → (s.dk k).hub.take 5 = some c →
    exec (.limitOn k) s = .next (setDk (sent s k m r c) k { (sent s k m r c).dk k with limitOn := true })) ∧
  (∀ (s : State) (k : Fin 8) (c : Credits), live s k → (s.dk k).outbox = [] → (s.dk k).hubInit = true → (s.dk k).limitOn = true → (s.dk k).hub.take 5 = some c →
    ∃ t, exec (.limitOff k) s = .next t ∧ t.out = .deckle k { cls := 5, opc := 3 } [0x35] :: s.out ∧ (t.dk k).limitOn = false ∧ (t.dk k).hub = c ∧ (t.dk k).outbox = [] ∧
      (Tab.get ({} : Pd) t.tel.pd (8 + k)).state = if (Tab.get ({} : Pd) s.tel.pd (8 + k)).state = 3 then 2 else (Tab.get ({} : Pd) s.tel.pd (8 + k)).state) ∧
  (∀ (s : State) (k : Fin 8) (c : Credits), live s k → (s.dk k).hubInit = true → (s.dk k).hub.take 6 = some c →
    exec (.timeSync k) s = .next (sent s k { cls := 6, opc := 1, addr := (s.time + (s.dk k).delay) % timeMod } (s.dk k).outbox c)) ∧
  (∀ (s : State) (k : Fin 8) (tag : BitVec 64) (c : Credits), live s k → (s.dk k).hubInit = true → (s.dk k).hub.take 6 = some c →
    let t := sent s k { cls := 6, opc := 2, addr := tag.toNat } (s.dk k).outbox c
    exec (.timeEchoReq k tag) s = .next (setDk t k { t.dk k with echoTag := some (tag.toNat, s.time) })) ∧
  (∀ (s u : State) (m : DkIn) (t0 : Nat), came s u m 6 3 timeEchoFields → (u.dk m.site).echoTag = some (m.addr.toNat, t0) →
    exec (.timeEcho m) s = .next (setDk u m.site { u.dk m.site with echoTag := none, delay := (u.time - t0) / 2 })) ∧
  (∀ (s u : State) (m : DkIn) (slot : BitVec 128), came s u m 5 7 unitStateFields → m.unit.toNat < (u.dk m.site).units → m.status.toNat ≤ 4 →
    let c := 24 * m.site.val + m.unit.toNat
    let st := m.status
    ((customerDie u m.site = false ∨ (u.core c).st = .retired) → exec (.unitState m slot) s = .next u) ∧
    (customerDie u m.site = true → (u.core c).st ≠ .retired → ∃ t, exec (.unitState m slot) s = .next (settleAll t) ∧ t = { u with cores := t.cores } ∧
      (∀ d, d ≠ c → t.core d = u.core d) ∧ let y := t.core c
      y.st = (if st = 0 then .reset else if st = 1 then .halted else if st = 2 then .running else if st = 3 then .waiting else .retired) ∧
      y.trapCause = bits m.addr 63 56 % 128 ∧ y.trapAsync = decide (128 ≤ bits m.addr 63 56) ∧ y.trapPc = slot.extractLsb' 0 18 ∧
      y.trapVal = BitVec.ofNat 64 (bits m.addr 47 0))) ∧
  (∀ (s : State) (k : Fin 8) (w : BitVec 32), live s k → (creditWord w).le (s.dk k).owed = true → let c := creditWord w
    exec (.creditReturn k true w) s = .next { setDk s k { s.dk k with
      owed := (s.dk k).owed.sub c, site := (s.dk k).site.add c, txFlits := flits s (s.dk k).txFlits } with out := .credits k c :: s.out, draws := s.draws + 1 }) ∧
  (∀ (s : State) (k : Fin 8) (w : BitVec 32), live s k → ((s.dk k).hub.add (creditWord w)).le { (s.dk k).granted with mgt := 8 } = true →
    ∃ t, exec (.creditReturn k false w) s = .next t ∧ t = { s with sites := t.sites, draws := s.draws + 1 } ∧ (∀ j, j ≠ k.val → t.site j = s.site j) ∧
      t.dk k = { s.dk k with rxFlits := flits s (s.dk k).rxFlits, hub := (s.dk k).hub.add (creditWord w) }) ∧
  (∀ (s : State) (m : DkIn) (c : Credits), let k := m.site
    live s k → (s.dk k).hubInit = false → (s.dk k).hub.take 5 = some c → let g := hubGrant k
    exec (.creditInit m true) s = .next { setDk s k { s.dk k with
        hubInit := true, hub := c, site := (s.dk k).site.add g, txFlits := flits s (s.dk k).txFlits }
      with out := .deckle k (hubInitMsg k) (hubInitMsg k).slots :: s.out, draws := s.draws + 1 } ∧
    hubInitMsg k = { cls := 5, opc := 1, addr := g.req + g.rsp * 2 ^ 16 + g.dat * 2 ^ 32 + g.time * 2 ^ 48 }) ∧
  (∀ (s u : State) (m : DkIn), let k := m.site
    let a := m.addr
    came s u m 5 1 creditInitFields → (u.dk k).siteInit = false → customerDie u k = false → bit a 63 = cachingSite u k →
    (if bit a 63 then 64 ≤ bits a 15 0 else bits a 15 0 = 0) → 128 ≤ bits a 31 16 → 128 ≤ bits a 47 32 → 4 ≤ bits a 55 48 →
    (if k.val < 6 then 1 ≤ bits a 60 56 ∧ bits a 60 56 ≤ 24 else bits a 60 56 = 0) →
    let g : Credits := { snp := bits a 15 0, rsp := bits a 31 16, dat := bits a 47 32, time := bits a 55 48 }
    exec (.creditInit m false) s = .next (setDk u k { u.dk k with
      siteInit := true, granted := g, hub := (u.dk k).hub.add g, units := bits a 60 56, caching := bit a 63 }))

/-- DOORBELLS AND THE CONTROL OF A QUEUE (R284, R286, R287, R303, R305, R308): a doorbell takes a PROD that is ahead and in sequence, and discards any other
with DB_BAD; a ring is set while STOPPED; START, STOP, ABORT and DROP_RESUME act on the queue alone.
The model's choices in it are in the log: 8, 33, 37, 107, 118, 151. -/
def Obligations.QueueControl : Prop :=
  (∀ (s : State) (q : Fin 4096) (v : BitVec 64), s.quiet = false → s.hostUp = true → s.txns = [] → s.pcie.pmState = 0 →
    let x := s.queue q
    let d := x.depth
    let p := (v.toNat % 65536 + d - x.cons) % d
    let fits := d ≠ 0 ∧ v.toNat < 2 ^ 32 ∧ v.toNat % 65536 < d ∧ x.waiting ≤ p
    exec (.doorbell q 0 true v) s = .next (setQueue s q (
      if fits ∧ p = x.waiting then x
      else if fits ∧ v.toNat / 65536 = (x.nextSeq + p + 65535) % 65536 then { x with prod := v.toNat % 65536 } else { x with dbBad := true }))) ∧
  (∀ (s : State) (q : Fin 4096) (v : BitVec 64), s.quiet = false → (s.queue q).state = 0 → (s.queue q).inProgress = false → 4 ≤ bits v 4 0 → bits v 4 0 ≤ 16 →
    exec (.ceqRingWrite q v) s = .next (setQueue (endWork s q) q { s.queue q with
      ring := v &&& 0x01FFFFFFFFFFF01F#64, prod := 0, cons := 0, nextSeq := 0, phase := true, heldRecord := none, heldIssued := false, resume := none
      records := 0, tries := 0 })) ∧
  (∀ (s : State) (q : Fin 4096) (v : BitVec 64), s.quiet = false → ((s.queue q).state ≠ 0 ∨ bits v 4 0 < 4 ∨ 16 < bits v 4 0) →
    exec (.ceqRingWrite q v) s = .next s) ∧
  (∀ (s : State) (q : Fin 4096) (n : Nat), s.quiet = false → (s.queue q).state = 0 → sliceOfQueue s q = some n → s.chart.state ≠ 4 → s.chart.reload = false →
    exec (.queueStart q) s = .next (if (s.slice n).state = 2 then setQueue s q { s.queue q with state := 1, reason := 0, tries := 0, stopReason := 0 }
      else if (s.slice n).state = 3 then s else setQueue s q { s.queue q with refused := 2 })) ∧
  (∀ (s : State) (q : Fin 4096), s.quiet = false → (s.queue q).state = 1 → (s.queue q).cmd ≠ none →
    exec (.queueStop q) s = .next (setQueue s q { s.queue q with state := 2, stopReason := 1 })) ∧
  (∀ (s : State) (q : Fin 4096), s.quiet = false → (s.queue q).state = 1 → (s.queue q).inProgress = false → (s.queue q).heldRecord = none → bits (s.queue q).irq 31 30 = 0 →
    exec (.queueStop q) s = .next (setQueue s q { s.queue q with state := 0, reason := 1, tries := 0, irqCount := 0, irqDue := false })) ∧
  (∀ (s : State) (q : Fin 4096) (c : Cmd), s.quiet = false → (s.queue q).state = 1 → (s.queue q).cmd = some c → c.opc ≠ 0x10 →
    exec (.queueAbort q) s = .next (setQueue s q { s.queue q with abortReq := true, state := 2, stopReason := 7, cmd := some { c with aborting := true } })) ∧
  (∀ (s : State) (q : Fin 4096), s.quiet = false → (s.queue q).state = 0 → (s.queue q).cmd = none →
    exec (.queueAbort q) s = .next (setQueue s q { s.queue q with abortResult := BitVec.ofNat 64 (2 ^ 63) })) ∧
  (∀ (s : State) (q : Fin 4096), s.quiet = false → exec (.dropResume q) s = .next (setQueue s q { s.queue q with resume := none })) ∧
  (∀ (s : State) (q : Fin 4096), s.quiet = false → (s.queue q).irqDue = false → (s.queue q).irqCount ≠ 0 → bits (s.queue q).irq 31 30 = 0 →
    (s.queue q).irqSince + bits (s.queue q).irq 47 32 * 1000 ≤ s.time → exec (.irqTimer q) s = .next (setQueue s q { s.queue q with irqCount := 0, irqDue := false })) ∧
  (∀ (s u : State) (q : Fin 4096), mayStart s q = true → fetchSlot s q = (u, .bad) → let w := advance 256 u
    ((w.queue q).tries + 1 < 64 → exec (.slotRefetch q) s = .next (setQueue w q { w.queue q with tries := (w.queue q).tries + 1 })) ∧
    (64 ≤ (w.queue q).tries + 1 → (w.queue q).closing = [] → exec (.slotRefetch q) s = .next (haltQueue w q 3))) ∧
  (∀ (s u : State) (q : Fin 4096), mayStart s q = true → fetchSlot s q = (u, .fault) → (u.queue q).closing = [] → exec (.slotRefetch q) s = .next (haltQueue u q 3))

/-- A SLOT STARTS (R284, R285, R288, R304): the slot at CONS with the PHASE and SEQ expected becomes the command in progress, on the engine that serves the
queue, and CONS, SEQ and, at the end of the ring, PHASE move on; a RESUME takes up the context it names.
The model's choices in it are in the log: 107, 108, 113. -/
def Obligations.SlotStarts : Prop :=
  (∀ (s u : State) (q e : Nat) (b : BitVec 2048) (kind : BitVec 2048 → Bool), mayStart s q = true → fetchSlot s q = (u, .slot b) → slotDue (u.queue q) b = true →
    kind b = true → badField u b = none → slotLe b 0 1 ≠ 0x13 → engineOf u (cmdGroup u (queueSlice u q) b) q = some e → ceActive u e < 16 →
    let x := u.queue q
    let last := decide (x.cons + 1 = x.depth)
    ∃ w, tryStart s q kind = w ∧ w = { u with queues := w.queues, ces := w.ces } ∧ (∀ k, k ≠ q → w.queue k = u.queue k) ∧
      w.queue q = { x with cons := if last then 0 else x.cons + 1, phase := if last then !x.phase else x.phase, nextSeq := (x.nextSeq + 1) % 65536
                           tries := 0, cmd := some { own := b, raw := b, win := (u.ctx (queueSlice u q)).win, t0 := u.time, eng := e } }) ∧
  (∀ (s u : State) (q : Fin 4096) (e : Nat) (b : BitVec 2048) (r : Cmd), mayStart s q = true → fetchSlot s q = (u, .slot b) → slotDue (u.queue q) b = true →
    slotLe b 0 1 = 0x13 → badField u b = none → (u.queue q).resume = some r → slotLe r.own 2 2 = slotLe b 0x10 2 →
    let v := setQueue u q { u.queue q with resume := none }
    engineOf v (cmdGroup v (queueSlice v q) r.raw) q = some e → ceActive v e < 16 →
    ∃ w, exec (.resume q) s = .next (settleAll w) ∧ (w.queue q).resume = none ∧ (w.queue q).nextSeq = ((u.queue q).nextSeq + 1) % 65536 ∧
      (w.queue q).cmd = some { own := b, raw := r.raw, elems := r.elems, bytes := r.bytes, aux := r.aux, win := (u.ctx (queueSlice u q)).win, t0 := u.time, eng := e })

/-- ELEMENTS OF THE COPY COMMANDS (R290, R292–R295, R300, R305): an element whose last chunk is written counts with its bytes; one that fails ends the command
with its status and its number; past the last the command ends OK; an abort between elements ends it ABORTED. -/
def Obligations.DataCommandElements : Prop :=
  let dataRows (q : Fin 4096) (n : Nat) : List (Instr × Nat × (Cmd → State → Part) × (Cmd → Nat → Nat) × (Cmd → Nat)) :=
    [(.copy q n, 1, partCopy q, fun c _ => slotLe c.raw 0x20 4, elemTotal), (.fill q n, 2, partFill q, fun c _ => slotLe c.raw 0x20 4, elemTotal),
     (.inlineWrite q n, 3, partInline q, fun c k => (inlineLine c.raw k).2, fun c => inlineLines c.raw),
     (.gather q n, 4, partGather q, fun c _ => slotLe c.raw 0x2C 4, elemTotal), (.scatter q n, 5, partScatter q, fun c _ => slotLe c.raw 0x2C 4, elemTotal),
     (.stash q n, 6, partStash q, fun _ _ => 4096, elemTotal), (.unstash q n, 7, partUnstash q, fun _ _ => 4096, elemTotal)]
  let ready (i : Instr) (s : State) (q : Fin 4096) (n opc : Nat) (part : Cmd → State → Part) (size : Cmd → Nat → Nat) (total : Cmd → Nat) (c : Cmd) : Prop :=
    (i, opc, part, size, total) ∈ dataRows q n ∧ (c.stage ≠ 0 ∨ opc < 6) ∧ s.pcie.retrainLong = false ∧ tagFailure s q = none
  (∀ (i : Instr) (s u : State) (q : Fin 4096) (n opc k : Nat) (part : Cmd → State → Part) (size : Cmd → Nat → Nat) (total : Cmd → Nat) (c d : Cmd),
    ready i s q n opc part size total c → going s q opc c → c.elems < min n (total c) → part c s = .ok u d k true → size c d.elems ≤ d.pos + k →
    d.result = none → moduleDone u q = false →
    exec i s = .next (settleAll (setCmd (setCe u d.eng { u.ce d.eng with bytes := (u.ce d.eng).bytes + k }) q
      { d with last := some d.elems, elems := d.elems + 1, bytes := d.bytes + size c d.elems, pos := 0, buf := [] }))) ∧
  (∀ (i : Instr) (s u : State) (q : Fin 4096) (n opc st d : Nat) (part : Cmd → State → Part) (size : Cmd → Nat → Nat) (total : Cmd → Nat) (c : Cmd),
    ready i s q n opc part size total c → going s q opc c → c.elems < min n (total c) → part c s = .fail u st d →
    exec i s = .next (settleAll (setCmd u q { c with pos := 0, buf := [], result := some (st, d, some c.elems) }))) ∧
  (∀ (i : Instr) (s u : State) (q : Fin 4096) (n opc : Nat) (part : Cmd → State → Part) (size : Cmd → Nat → Nat) (total : Cmd → Nat) (c : Cmd),
    ready i s q n opc part size total c → going s q opc c → c.elems < min n (total c) → part c s = .hold u → exec i s = .next (settleAll (setCmd u q c))) ∧
  (∀ (i : Instr) (s : State) (q : Fin 4096) (n opc : Nat) (part : Cmd → State → Part) (size : Cmd → Nat → Nat) (total : Cmd → Nat) (c : Cmd),
    ready i s q n opc part size total c → going s q opc c → total c ≤ c.elems → exec i s = .next (settleAll (setCmd s q { c with result := some (0, 0, none) }))) ∧
  (∀ (i : Instr) (s : State) (q : Fin 4096) (n opc : Nat) (part : Cmd → State → Part) (size : Cmd → Nat → Nat) (total : Cmd → Nat) (c : Cmd),
    ready i s q n opc part size total c → s.quiet = false → mayStart s q = false → (s.queue q).cmd = some c → c.opc = opc → c.result = none → c.last = none →
    c.aborting = true → c.pos = 0 → c.elems < total c → exec i s = .next (settleAll (setCmd s q { c with result := some (abortStatus s q, 0, none) })))

/-- WHERE THE COPY COMMANDS READ AND WRITE (R292, R293, R295): a run of COPY within one line of each side, a run of FILL, a line of INLINE_WRITE and an
uncompressed page part of STASH and UNSTASH, each at the address its fields give, with the bytes read there.
The model's choices in it are in the log: 1, 111. -/
def Obligations.DataCommandBytes : Prop :=
  let rd (s : State) (q : Nat) (c : Cmd) : Eng := cmdEng s q c (slotFlag c.raw 3)
  let wr (s : State) (q : Nat) (c : Cmd) : Eng := cmdEng s q c (slotFlag c.raw 4)
  (∀ (s u v : State) (q a b n : Nat) (c : Cmd) (bs r : List Byte), c.pos = 0 → a = cmdRun c.raw 0x10 0x30 c.elems → b = cmdRun c.raw 0x18 0x48 c.elems →
    n = slotLe c.raw 0x20 4 → a % 128 + n ≤ 128 → b % 128 + n ≤ 128 → c.buf = [] → mayOverlap s q c a b n = false →
    (rd s q c).read s a n = (u, .ok bs) → (wr s q c).write u b bs = (v, .ok r) → partCopy q c s = .ok v c n true) ∧
  (∀ (s v : State) (q b n : Nat) (c : Cmd) (r : List Byte), c.pos = 0 → b = cmdRun c.raw 0x18 0x48 c.elems → n = slotLe c.raw 0x20 4 → b % 128 + n ≤ 128 →
    (wr s q c).write s b ((List.range n).map (fun i => BitVec.ofNat 8 (slotLe c.raw 0x10 8 / 256 ^ (i % 8)))) = (v, .ok r) → partFill q c s = .ok v c n true) ∧
  (∀ (s v : State) (q a n : Nat) (c : Cmd) (r : List Byte), c.elems = 0 → a = slotLe c.raw 0x10 8 → n = slotLe c.raw 0x18 2 → a % 128 + n ≤ 128 →
    (wr s q c).write s a ((List.range n).map (fun i => BitVec.ofNat 8 (slotLe c.raw (0x40 + i) 1))) = (v, .ok r) → partInline q c s = .ok v c n true) ∧
  (∀ (s u v : State) (q a b : Nat) (c : Cmd) (bs r : List Byte), c.pos = 0 → slotLe c.raw 0x28 1 = 0 → a = slotLe c.raw 0x10 8 → b = slotLe c.raw 0x18 8 →
    a % 128 = 0 → b % 128 = 0 → (rd s q c).read s ((a + 4096 * c.elems) % 2 ^ 64) 128 = (u, .ok bs) →
    (wr s q c).write u ((b + 4096 * c.elems) % 2 ^ 64) bs = (v, .ok r) → partStash q c s = .ok v c 128 true ∧ partUnstash q c s = .ok v c 128 true) ∧
  (∀ (s u v : State) (q a b n : Nat) (c : Cmd) (bs r : List Byte), c.pos = 0 → a = cmdRun c.raw 0x10 0x30 c.elems → b = cmdRun c.raw 0x18 0x48 c.elems →
    n = slotLe c.raw 0x20 4 → 0 < n → a % 128 + n ≤ 128 → b % 128 + n ≤ 128 → c.buf = [] → mayOverlap s q c a b n = true →
    (rd s q c).read s a n = (u, .ok bs) → let d := { c with buf := bs }
    partCopy q c s = .ok u d 0 false ∧ (bs.length = n → (wr u q d).write u b bs = (v, .ok r) → partCopy q d u = .ok v d n true))

/-- MIGRATE (R199, R200): a page in order gets its write hold; with the held writes at home its lines are copied one by one; then the leaf is swapped, the
page invalidated and the hold dropped, and the page counts, or the swap finds another leaf and the command ends MIGRATE_CONFLICT.
The model's choices in it are in the log: 16, 98, 114. -/
def Obligations.MigrateRuns : Prop :=
  (∀ (s u : State) (q : Fin 4096) (c : Cmd) (a e l : Nat), going s q 8 c → holdOf s q = none → let f := slotLe c.raw
    let size := if l = 1 then 0x200000 else 0x1000
    c.bytes < f 0x18 8 → findLeaf s q (queueSlice s q) (f 0x10 8 + c.bytes) = (u, .found a e l) → l < 2 → (l = 0 → e.testBit 5 = false) →
    (f 0x10 8 + c.bytes) % size = 0 → c.bytes + size ≤ f 0x18 8 → (f 0x20 8 + c.bytes) % size = 0 →
    exec (.migrate q) s = .next (settleAll (setHold u { queue := q, slice := queueSlice s q, va := f 0x10 8 + c.bytes, size := size, leafAddr := a, leaf := e, dest := f 0x20 8 + c.bytes }))) ∧
  (∀ (s : State) (q : Fin 4096) (c : Cmd), going s q 8 c → holdOf s q = none → slotLe c.raw 0x18 8 ≤ c.bytes →
    exec (.migrate q) s = .next (settleAll (setCmd s q { c with result := some (0, 0, none) }))) ∧
  (∀ (s : State) (q : Fin 4096) (c : Cmd) (h : MigHold), going s q 8 c → holdOf s q = some h → h.copied = false → pageBusy s h = false → tagBusy s q = false →
    tagFailure s q = none → h.size ≤ c.pos → exec (.migrateCopy q) s = .next (settleAll (setHold s { h with copied := true }))) ∧
  (∀ (s u v : State) (q : Fin 4096) (c : Cmd) (h : MigHold) (l : Line) (bs : List Byte) (g : Got), going s q 8 c → holdOf s q = some h → h.copied = false → pageBusy s h = false →
    tagBusy s q = false → tagFailure s q = none → c.pos < h.size → 128 ≤ h.size → let e := cmdEng s q c false
    readPart s q (e.txn (entryAddr h.leaf + c.pos) false) 128 = (u, .ok l, bs) → writePart u q (e.txn (h.dest + c.pos) false) bs = (v, g) → tagBusy v q = true →
    exec (.migrateCopy q) s = .next (settleAll (setCmd v q { c with pos := c.pos + 128 }))) ∧
  (∀ (s u w : State) (q : Fin 4096) (c : Cmd) (h : MigHold) (l : Line), going s q 8 c → holdOf s q = some h → h.copied = true → c.stage = 0 →
    let new := h.leaf % 4096 + h.dest / 4096 * 4096 + h.leaf >>> 50 <<< 50
    access s q { id := 0, src := .engine q, opc := 0x12, addr := h.leafAddr, reg := h.slice, ini := 206, attr := 3, op0 := h.leaf, op1 := new } = (u, .ok l) →
    (l.toNat = h.leaf → invalidateNow u { op := 3, slice := h.slice, seq := 0, addr := h.va, size := h.size } = some w →
      exec (.migrateSwap q) s = .next (settleAll (setCmd (dropHold w q) q { c with elems := c.elems + 1, bytes := c.bytes + h.size, pos := 0, stage := 0 }))) ∧
    (l.toNat ≠ h.leaf → exec (.migrateSwap q) s = .next (settleAll (migrateEnds (loseDest u h) q c 0x0E 0))))

/-- ADVISE, SIGNAL AND WAIT (R202, R296): a page of an ADVISE counts when it is translated, pinned up to the limit, or unpinned; a SIGNAL is one atomic at its
home; a WAIT reads its word until the condition holds, 256 ns apart, and ends TIMEOUT at its time.
The model's choices in it are in the log: 1, 8, 115. -/
def Obligations.SignalsAndWaits : Prop :=
  (∀ (i : Instr) (s u : State) (q : Fin 4096) (c : Cmd) (kind n : Nat) (counts : Bool), (i, kind) ∈ [(Instr.adviseTranslate q, 0), (.advisePin q, 1), (.adviseUnpin q, 2)] →
    going s q 9 c → slotLe c.raw 0x20 1 = kind → let len := slotLe c.raw 0x18 8
    c.pos < len → advisePage s q (queueSlice s q) kind ((slotLe c.raw 0x10 8 + c.pos) % 2 ^ 64) = (u, some (n, counts)) → len ≤ c.pos + n →
    exec i s = .next (settleAll (setCmd u q { c with
      pos := len, elems := if counts then c.elems + 1 else c.elems, bytes := if counts then c.bytes + (len - c.pos) else c.bytes, result := some (0, 0, none) }))) ∧
  (∀ (s : State) (q n dva : Nat) (e : TlbEntry), dva < 2 ^ 57 → tlbFind s n dva = some e → e.pinned = false → s.gtu.walks = [] →
    advisePage s q n 0 dva = (s, some (e.va + e.size - dva, true)) ∧ advisePage s q n 2 dva = (pinPage s n dva false, some (e.va + e.size - dva, true)) ∧
    advisePage s q n 1 dva = if pinnedPages s n < (s.ctx n).pinLimit then (pinPage s n dva true, some (e.va + e.size - dva, true)) else (s, some (e.va + e.size - dva, false))) ∧
  (∀ (i : Instr) (s u : State) (q : Fin 4096) (c : Cmd) (op opc : Nat) (bs : List Byte),
    (i, op, opc) ∈ [(Instr.signalAdd q, 0, 0x10), (.signalSet q, 1, 0x11), (.signalMax q, 2, 0x14)] → going s q 0x0A c → slotLe c.raw 0x20 1 = op →
    let v := setCmd s q { c with stage := 1 }
    (cmdEng v q c false).atomic v (slotLe c.raw 0x10 8) opc (slotLe c.raw 0x18 8) = (u, .ok bs) →
    exec i s = .next (settleAll (setCmd u q { c with stage := 1, result := some (0, 0, none) }))) ∧
  (∀ (s u : State) (q : Fin 4096) (c : Cmd) (bs : List Byte), going s q 0x0B c → (cmdEng s q c false).readSpan 3 s (slotLe c.raw 0x10 8) 8 = (u, .ok bs) → c.pos = 0 →
    exec (.wait q) s = .next (settleAll (setCmd u q (if waitMet (slotLe c.raw 0x20 1) (leNat bs) (slotLe c.raw 0x18 8) then { c with result := some (0, 0, none) }
      else { c with pos := 1 })))) ∧
  (∀ (s u : State) (q : Fin 4096) (c : Cmd) (bs : List Byte), going s q 0x0B c → (cmdEng s q c false).readSpan 3 s (slotLe c.raw 0x10 8) 8 = (u, .ok bs) → c.pos ≠ 0 →
    c.t0 + 256 * c.pos ≤ s.time → waitOver c (c.t0 + 256 * c.pos) = false →
    exec (.waitPoll q) s = .next (settleAll (setCmd u q (if waitMet (slotLe c.raw 0x20 1) (leNat bs) (slotLe c.raw 0x18 8) then { c with result := some (0, 0, none) }
      else { c with pos := c.pos + 1 })))) ∧
  (∀ (s : State) (q : Fin 4096) (c : Cmd), going s q 0x0B c → c.pos ≠ 0 → slotLe c.raw 0x24 4 ≠ 0 → c.t0 + slotLe c.raw 0x24 4 * 1000 ≤ s.time →
    exec (.waitTimeout q) s = .next (setCmd s q { c with result := some (0x0C, 0, none) }))

/-- FENCE AND THE RECORD OF A COMMAND (R237, R300–R303): a FENCE at MODULE scope ends at once; at FABRIC scope it starts a release or an acquire of its
regions and ends with the lines written back; a command that has ended writes one record when its writes are complete, counts it, and after a failure its
queue stops.
The model's choices in it are in the log: 1, 32, 108, 109, 151. -/
def Obligations.FencesAndRecords : Prop :=
  let rows (q : Fin 4096) : List (Instr × Nat) := [(.fenceRelease q, 1), (.fenceAcquire q, 2), (.fenceReleaseAcquire q, 3)]
  let regionsOf (s : State) (q : Nat) (c : Cmd) : BitVec 16 :=
    let all := cacheableMask s (queueSlice s q)
    let m := BitVec.ofNat 16 (slotLe c.raw 0x12 2)
    if m = 0 then all else m &&& all
  let alone (s : State) (q : Nat) (c : Cmd) : Prop := s.quiet = false ∧ (s.queue q).heldRecord = none ∧ (s.queue q).closing = [] ∧ (s.queue q).cmd = some c
  (∀ (i : Instr) (s : State) (q : Fin 4096) (c : Cmd) (kind : Nat), (i, kind) ∈ rows q → going s q 0x0C c → slotLe c.raw 0x11 1 = kind → c.stage = 0 →
    (slotLe c.raw 0x10 1 = 2 ∨ regionsOf s q c = 0 ∧ (kind = 2 ∨ (s.queue q).closing = [])) → exec i s = .next (settleAll (setCmd s q { c with result := some (0, 0, none) }))) ∧
  (∀ (i : Instr) (s : State) (q : Fin 4096) (c : Cmd) (kind : Nat), (i, kind) ∈ rows q → going s q 0x0C c → slotLe c.raw 0x11 1 = kind → c.stage = 0 →
    slotLe c.raw 0x10 1 ≠ 2 → (kind = 2 ∨ (s.queue q).closing = []) → regionsOf s q c ≠ 0 → let f := startFab s (queueSlice s q) (regionsOf s q c) (decide (kind = 2)) true
    exec i s = .next (settleAll (setCmd f.1 q { c with stage := if kind = 2 then 2 else 1, aux := Tab.set 0 c.aux 0 (f.2 + 1) }))) ∧
  (∀ (i : Instr) (s : State) (q : Fin 4096) (c : Cmd) (kind : Nat) (f : FabOp), (i, kind) ∈ rows q → going s q 0x0C c → slotLe c.raw 0x11 1 = kind → c.stage ≠ 0 →
    (kind = 3 → c.stage ≠ 1) → (s.queue q).waiting = 0 → s.fabOps = [f] → f.id + 1 = Tab.get 0 c.aux 0 → f.regions = 0 → Tab.get 0 c.aux 1 = 0 →
    exec i s = .next (settleAll (setCmd { s with fabOps := [] } q { c with
      elems := c.elems + f.lines, bytes := c.bytes + 128 * f.lines, aux := Tab.set 0 c.aux 1 f.status
      result := some (if f.status ≠ 0 then recordStatus f.status else if abortStatus s q = 8 then 8 else 0, 0, none) }))) ∧
  (∀ (s u v : State) (q : Fin 4096) (c : Cmd) (st d : Nat) (f : Option Nat), alone s q c → c.result = some (st, d, f) → c.issued = none →
    padded s q = false → finishWrites s q (queueSlice s q) = (u, .done) → let r := recordOf c st d f (keepsContext c st)
    writeRecord (endWork u q) q q r false = .wait v true → exec (.commandComplete q) s = .next (settleAll (setCmd v q { c with issued := some r }))) ∧
  (∀ (s v : State) (q : Fin 4096) (c : Cmd) (st d : Nat) (f : Option Nat) (r : Rec), alone s q c → c.result = some (st, d, f) → c.issued = some r →
    writeRecord s q q r true = .written v → let w := recordWritten (closeCmd v q false c r) q r
    (r.status = 0 → (w.queue q).state = 1 → exec (.commandComplete q) s = .next (settleAll w)) ∧
    (r.status ≠ 0 → r.status ≠ 6 → (w.queue q).state = 1 → (w.queue q).closing = [] → (w.queue q).abortReq = false →
      exec (.commandComplete q) s = .next (settleAll (haltQueue w q 2)))) ∧
  (∀ (v : State) (q : Nat) (c : Cmd) (r : Rec), (closeCmd v q false c r).mem = v.mem ∧ ((closeCmd v q false c r).queue q).cmd = none ∧
    (r.irq = false → ((recordWritten (closeCmd v q false c r) q r).queue q).records = (v.queue q).records + 1)) ∧
  (∀ (s u v : State) (q : Fin 4096) (c : Cmd) (l : List Cmd) (st d : Nat) (f : Option Nat), s.quiet = false → (s.queue q).heldRecord = none → (s.queue q).closing = c :: l →
    c.result = some (st, d, f) → c.issued = none → let tag := closeTag q c.seq
    padded s tag = false → finishWrites s tag (queueSlice s q) = (u, .done) → let r := recordOf c st d f (keepsContext c st)
    writeRecord (endWork u tag) q tag r false = .wait v true →
    exec (.commandComplete q) s = .next (settleAll (setQueue v q { v.queue q with closing := { c with issued := some r } :: (v.queue q).closing.tail })))

/-- RUNS OF THE CALENDER ENGINES (R313–R317, R323–R326): a CAL_RUN waits in order; one of a single engine starts once that engine is idle and its tables hold
no fault; an engine takes its stack's next chunk, fails it where an operand has a byte outside HBM, checks the lines it will store, and completes it when its
stores are at home, counting each element stored as NaN or infinity once; the run ends with its elements done in order.
The model's choices in it are in the log: 116, 159. -/
def Obligations.CalenderRuns : Prop :=
  (∀ (s : State) (q : Fin 4096) (c : Cmd), going s q 0x11 c → runOf s q = none → c.aux = [] →
    exec (.calRun q) s = .next (settleAll { s with runs := s.runs ++ [{ queue := q, slice := queueSlice s q, mask := BitVec.ofNat 8 (slotLe c.raw 0x10 1) }] })) ∧
  (∀ (s u : State) (q : Fin 4096) (c : Cmd) (r : CalRun) (k : Nat) (prog : List Nat) (table consts segb segval : List Byte), s.quiet = false → runOf s q = some r → (s.queue q).cmd = some c →
    r.queue = q.val → r.started = false → c.aborting = false → r.mask.toNat = 2 ^ k → k < 8 → (s.cal k).retired = false → (s.cal k).running = false →
    (∀ o ∈ s.runs.takeWhile (fun (o : CalRun) => o.queue ≠ q.val), o.started = true ∨ o.mask &&& r.mask = 0) →
    readTables s (calEng r.slice k) c = (u, .ok prog table consts segb segval) →
    let segs := (List.range (segb.length / 8)).map (fun i => le segb (8 * i) 8)
    (badOperand table (slotLe c.raw 0x30 8) = none → badProgram table prog = none → badSegment segs (slotLe c.raw 0x28 8) = none →
      exec (.calRunStart q) s = .next (settleAll (setRun (setCal u k { u.cal k with queue := q, running := true, gated := false, flags := 0 }) { r with
        started := true, prog := prog, table := table, consts := wordTab consts, segs := segs, segval := wordTab segval, finished := ~~~(BitVec.ofNat 8 (2 ^ k)) }))) ∧
    (∀ i, badOperand table (slotLe c.raw 0x30 8) = some i → exec (.calRunStart q) s = .next (settleAll (endRun u r 0x11 (0x02 + 256 * i) none)))) ∧
  (∀ (s : State) (k : Fin 8) (r : CalRun) (c : Cmd) (n m : Nat), s.quiet = false → runOn s k = some r → (s.queue r.queue).cmd = some c → c.aborting = false → r.failed = none →
    Tab.get none r.cur k = none → nextChunk s r k = some (n, m) →
    (strayOperand s r n = none → exec (.chunkStart k) s = .next (settleAll (loadChunk k r.loadOps r { chunk := n, stack := m } s))) ∧
    (∀ i, strayOperand s r n = some i → exec (.chunkStart k) s = .next (settleAll (failChunk s r k n 0x11 (0x02 + 256 * i))))) ∧
  (∀ (s : State) (k : Fin 8) (r : CalRun) (c : Cmd), s.quiet = false → runOn s k = some r → (s.queue r.queue).cmd = some c → c.aborting = false → r.failed = none →
    Tab.get none r.cur k = none → nextChunk s r k = none →
    exec (.chunkStart k) s = .next (settleAll (setCal (setRun s { r with finished := r.finished ||| (1#8 <<< k.val) }) k { s.cal k with running := false }))) ∧
  (∀ (s u v : State) (k i : Nat) (r : CalRun) (c : CalChunk) (bs : List Byte), let e := calEng r.slice k
    calMx (opFmt r.table i) = false → hbmSpan s r.slice (chunkSpan s r c.chunk i).1 (chunkSpan s r c.chunk i).2 = true →
    e.readSpan 4 s (chunkSpan s r c.chunk i).1 (chunkSpan s r c.chunk i).2 = (u, .ok bs) → e.readSpan 2 u 0 0 = (v, .ok []) →
    ∃ d, loadChunk k [i] r c s = setRun v (setCur r k (some d)) ∧ d = { c with loaded := c.loaded + 1, loads := d.loads, lscale := d.lscale } ∧
      ∀ el, Tab.get 0 d.loads (64 * i + el) = if el < (chunkSpan s r c.chunk i).2 / calWidth (opFmt r.table i)
        then BitVec.ofNat 32 (le bs (calWidth (opFmt r.table i) * el) (calWidth (opFmt r.table i))) else Tab.get 0 c.loads (64 * i + el)) ∧
  (∀ (s u : State) (k : Fin 8) (r : CalRun) (c : CalChunk) (pas : List (Nat × Nat)), s.quiet = false → runOn s k = some r → Tab.get none r.cur k = some c → c.phase = 0 →
    r.loadOps.length ≤ c.loaded → storeLines k r (r.storeOps.flatMap (fun i =>
      (linesOf (chunkSpan s r c.chunk i).1 (chunkSpan s r c.chunk i).2 ++ linesOf (scaleSpan s r c.chunk i).1 (scaleSpan s r c.chunk i).2).map (fun l => (l, i)))) [] s = (u, .inl pas) →
    exec (.chunkExecute k) s = .next (settleAll (setRun u (setCur r k (some { c with phase := 1, pas := pas }))))) ∧
  (∀ (s : State) (k : Fin 8) (r : CalRun) (c : CalChunk), s.quiet = false → runOn s k = some r → Tab.get none r.cur k = some c → c.phase = 2 → tagBusy s (calTag k) = false →
    tagFailure s (calTag k) = none → exec (.chunkExecute k) s = .next (settleAll (finishChunk s r k c)) ∧
    ((finishChunk s r k c).cal k).elems = (s.cal k).elems + r.lanes s c.chunk ∧
    ∃ t ∈ (finishChunk s r k c).runs, t = { r with cur := t.cur, next := t.next, nanCount := min (2 ^ 32 - 1) (r.nanCount + c.odd.length) } ∧
      Tab.get 0 t.next c.stack = c.chunk + 1 ∧ Tab.get none t.cur k = none) ∧
  (∀ (s u : State) (q : Fin 4096) (c : Cmd) (r f : CalRun), s.quiet = false → runOf s q = some r → (s.queue q).cmd = some c → (∀ k, k < 8 → Tab.get none r.cur k = none) →
    r.failed = none → c.aborting = false → r.started = true → r.chunks s ≤ firstIncomplete s r →
    writeFinals { calEng r.slice (((List.range 8).find? (fun k => r.mask.getLsbD k)).getD 0) with tag := q } ((finalWrites r).drop r.stage) r s = (u, .inl f) →
    exec (.calRunDone q) s = .next (settleAll (endRun (setRun u f) f 0 0 none)))

/-- THE MICROPROGRAM OF A CALENDER ENGINE (R319, R320, R322, R323): the next operation of the chunk runs on every lane, one element a lane: the arithmetic
operations and LD write their result register and no other, ST writes its operand's patterns, RND a register with what ST would store, and ACCSQ adds the
squares to their segments' sums. -/
def Obligations.CalenderOperations : Prop :=
  let rows (k : Fin 8) : List (Instr × Nat) :=
    [(.calAdd k, 0x10), (.calSub k, 0x11), (.calMul k, 0x12), (.calFma k, 0x13), (.calFnma k, 0x14), (.calMin k, 0x15), (.calMax k, 0x16), (.calAbs k, 0x17), (.calNeg k, 0x18),
     (.calSign k, 0x19), (.calSqrt k, 0x1A), (.calDiv k, 0x1B), (.calRcp k, 0x1C), (.calRsqrt k, 0x1D), (.calLd k, 1)]
  let at1 (s : State) (k : Nat) (r : CalRun) (c : CalChunk) (w : Nat) : Prop :=
    s.quiet = false ∧ runOn s k = some r ∧ Tab.get none r.cur k = some c ∧ c.phase = 1 ∧ r.prog[c.pc]? = some w
  let after (s : State) (k : Nat) (r : CalRun) (c : CalChunk) (fl : Nat) : State :=
    setRun (setCal s k { s.cal k with flags := (s.cal k).flags ||| fl }) (setCur { r with flags := r.flags ||| fl } k (some c))
  (∀ (i : Instr) (s : State) (k : Fin 8) (r : CalRun) (c : CalChunk) (w opc : Nat), (i, opc) ∈ rows k → at1 s k r c w → (calF w).opc = opc → let f := calF w
    let val (el : Nat) : Nat × Nat := if opc = 1 then calDecode (opFmt r.table f.opnd) (Tab.get 0 c.lscale (2 * f.opnd + el / 32)) (Tab.get 0 c.loads (64 * f.opnd + el)).toNat
      else calArith opc (calSource s r c el f.sa) (calSource s r c el f.sb) (calSource s r c el f.sc)
    ∃ d fl, exec i s = .next (after s k r d fl) ∧ d = { c with pc := c.pc + 1, regs := d.regs } ∧
      fl = (List.range (r.lanes s c.chunk)).foldl (fun a el => a ||| (val el).2) 0 ∧
      ∀ el j, j < 16 → Tab.get 0 d.regs (16 * el + j) = if j = f.d ∧ el < r.lanes s c.chunk then BitVec.ofNat 32 (val el).1 else Tab.get 0 c.regs (16 * el + j)) ∧
  (∀ (s : State) (k : Fin 8) (r : CalRun) (c : CalChunk) (w : Nat), at1 s k r c w → (calF w).opc = 3 → let f := calF w
    let e := calStore s r c f
    ∃ d, exec (.calRnd k) s = .next (after s k r d e.2.2) ∧ d = { c with pc := c.pc + 1, regs := d.regs } ∧
      ∀ el j, j < 16 → Tab.get 0 d.regs (16 * el + j) = if j = f.d ∧ el < e.2.1.length
        then BitVec.ofNat 32 (calDecode (opFmt r.table f.opnd) (e.1[el / 32]?.getD 0) (e.2.1[el]?.getD 0)).1 else Tab.get 0 c.regs (16 * el + j)) ∧
  (∀ (s : State) (k : Fin 8) (r : CalRun) (c : CalChunk) (w : Nat), at1 s k r c w → (calF w).opc = 2 → let f := calF w
    let e := calStore s r c f
    ∃ d, exec (.calSt k) s = .next (after s k r d e.2.2) ∧ d = { c with pc := c.pc + 1, stores := d.stores, scales := d.scales, odd := d.odd } ∧
      (∀ el, el ∈ d.odd ↔ el ∈ c.odd ∨ ∃ b, e.2.1[el]? = some b ∧ calUgly (opFmt r.table f.opnd) (e.1[el / 32]?.getD 0) b = true) ∧
      ∀ el, el < e.2.1.length → Tab.get 0 d.stores (64 * f.opnd + el) = BitVec.ofNat 32 (e.2.1[el]?.getD 0)) ∧
  (∀ (s : State) (k : Fin 8) (r : CalRun) (c : CalChunk) (w : Nat), at1 s k r c w → (calF w).opc = 0x20 → let f := calF w
    let units (el : Nat) : Int := match fp32.decode (fp32.fmul .rne (calSource s r c el f.sa) (calSource s r c el f.sa)).1 with | .fin _ m e => dyInt false m e (-149) | _ => 0
    let keyOf (el : Nat) : Nat := 2 * segOf r.segs (r.first s + 64 * c.chunk + el) + f.opnd
    ∃ t fl, exec (.accsq k) s = .next (after s k t { c with pc := c.pc + 1 } fl) ∧ t = { r with sums := t.sums, sumNan := t.sumNan, sumInf := t.sumInf } ∧
      ∀ key, Tab.get 0 t.sums key = Tab.get 0 r.sums key + (((List.range (r.lanes s c.chunk)).filter (fun el => keyOf el = key)).map units).sum)

/-- PORTS AND THE FRAMES OF ROCE (R332, R351, R352): a port comes up, drops and fails its training, each drop with its source; a priority is paused and goes
on with what it held; a pair's state is written; an operation of a READY pair in sequence is answered as its effect gives, a failed or bad one moving the pair
to ERROR, and one that is not supported by a NAK.
The model's choices in it are in the log: 8, 36, 37, 86, 98, 150. -/
def Obligations.PortsAndRoce : Prop :=
  (∀ (s : State) (p : Fin 128), s.quiet = false → portConfigured s p = true → ((s.port p).state = 1 ∨ (s.port p).state = 3) →
    exec (.portUp p) s = .next (setPort s p { s.port p with state := 2, linkUps := ((s.port p).linkUps + 1) % 2 ^ 32 })) ∧
  (∀ (s : State) (p : Fin 128), s.quiet = false → (s.port p).state = 2 →
    exec (.portDown p) s = .next (raise (setPort s p { s.port p with state := 3 }) (1292 + p) { unit := p })) ∧
  (∀ (s : State) (p : Fin 128), s.quiet = false → (s.port p).state = 1 → s.glb.trainAt + 500000000 ≤ s.time →
    exec (.portTrainTimeout p) s = .next (raise (setPort s p { s.port p with state := 4 }) (1292 + p) { unit := p })) ∧
  (∀ (s : State) (p : Fin 128) (i : Fin 8), carries s p 1 = true →
    exec (.pfcFrame p i true) s = .next (setPort s p { s.port p with rx := ((s.port p).rx + 1) % 2 ^ 32, paused := (s.port p).paused ||| (1#8 <<< i.val) })) ∧
  (∀ (s : State) (p : Fin 128) (i : Fin 8) (n k psn : Nat) (d : List Byte), carries s p 1 = true → (s.port p).held = [(i.val, n, k, psn, d)] →
    exec (.pfcFrame p i false) s = .next { setPort s p { s.port p with
      rx := ((s.port p).rx + 1) % 2 ^ 32, paused := (s.port p).paused &&& ~~~(1#8 <<< i.val), held := [], tx := ((s.port p).tx + 1) % 2 ^ 32 }
      with out := .roce n k psn d (bth n k psn) :: s.out }) ∧
  (∀ (s : State) (n : BitVec 12) (st : BitVec 2), s.quiet = false → let u := { s with nx := { s.nx with qpSel := n.toNat } }
    exec (.qpStateWrite n st) s = .next (if st = 0 then setQp u n.toNat {} else if st = 3 then u else setQp u n.toNat { u.qp n.toNat with state := st.toNat })) ∧
  (∀ (s : State) (r : RocePkt), carries s r.port 1 = true → (s.qp r.qp.toNat).state = 1 →
    exec (.roceUnsupported r) s = .next (sendRoce (countRx s r.port) r.port r.qp.toNat 2 r.psn.toNat [])) ∧
  (∀ (i : Instr) (s u : State) (r : RocePkt) (act : State → BitVec 512 → RoceRes) (bs : List Byte), let n := r.qp.toNat
    (i, act) ∈ ([(.roceSend r, fun s ctx => roceReceive s n ctx 0 (some r.payload) r.payload.length),
      (.roceSendImm r, fun s ctx => roceReceive s n ctx r.imm.toNat (some r.payload) r.payload.length),
      (.roceRdmaWrite r, fun s ctx => rdmaWrite s n (Config.roceQp 0 ctx) r (fun s => .ok s 0 [])),
      (.roceRdmaWriteImm r, fun s ctx => rdmaWrite s n (Config.roceQp 0 ctx) r (fun s => roceReceive s n ctx r.imm.toNat none r.payload.length)),
      (.roceRdmaRead r, fun s ctx => rdmaRead s n (Config.roceQp 0 ctx) r)] : List (Instr × (State → BitVec 512 → RoceRes))) →
    carries s r.port 1 = true → (s.qp n).state = 1 → r.ecn = false →
    ({ tag := 0x50000 + n } : Hub).read 2 s (bits s.nx.qpt 49 12 * 4096 + n * 64) 64 = (u, .ok bs) → let ctx := BitVec.ofNat 512 (leNat bs)
    (u.qp n).psn = some r.psn.toNat → Config.roceQp 1 ctx % 128 = r.port.val →
    exec i s = .next (match act u ctx with
      | .ok v kind data =>
        let w := sendRoce (countRx v r.port) r.port n kind r.psn.toNat data
        settleAll (setQp w n { w.qp n with psn := some ((r.psn.toNat + 1) % 2 ^ 24) })
      | .access v => setQp (sendRoce (countRx v r.port) r.port n 3 r.psn.toNat []) n { v.qp n with state := 2 }
      | .invalid v => setQp (sendRoce (countRx v r.port) r.port n 2 r.psn.toNat []) n { v.qp n with state := 2 }
      | .hold v => v))

/-- PACKETS OF PEERS (R338–R340, R342): a packet of an ACTIVE job with a new PSN is applied once: a WRITE, READ_REQ or ATOMIC joins the home's queue, and an
answer completes the operation it names; one whose PSN has come before, or is no PSN of the window, is not applied: it leaves the state the check of its PSN
gives. Consecutive writes of one command share a packet (R339), and its COMP completes them all.
The model's choices in it are in the log: 27, 78, 80, 147, 149. -/
def Obligations.PeerPackets : Prop :=
  let fresh (s u v : State) (p : NxPkt) (k : Nat) : Prop := received s p false = (u, some k) ∧ takePsn u k p.src.toNat p.psn.toNat = (v, true)
  (∀ (s u v : State) (p : NxPkt) (k : Nat), fresh s u v p k → 0 < p.payload.length → p.addr.toNat % 4096 + p.payload.length ≤ 4096 →
    p.addr.toNat % 128 + p.payload.length ≤ 128 → let n := p.payload.length
    let off := p.addr.toNat % 128
    exec (.nxWrite p) s = .next (settleAll (pushTxn v { fabTxn k p (if n = 128 then 5 else 6) (p.addr.toNat / 128 * 128) with
      mask := BitVec.ofNat 128 ((2 ^ n - 1) <<< off), data := lineOf (List.replicate off 0 ++ p.payload), poison := p.poison }))) ∧
  (∀ (s u v : State) (p : NxPkt) (k : Nat), fresh s u v p k → 0 < p.payload.length → p.addr.toNat % 4096 + p.payload.length ≤ 4096 →
    ∃ w, exec (.nxWrite p) s = .next (settleAll w) ∧ w = { v with txns := w.txns, nextTxn := w.nextTxn } ∧
      w.txns.length = v.txns.length + (spanParts 33 p.addr.toNat p.payload.length 0).length) ∧
  (∀ (s u v : State) (p : NxPkt) (k : Nat), fresh s u v p k → 0 < p.aux.toNat → p.addr.toNat % 4096 + p.aux.toNat ≤ 4096 → p.addr.toNat % 128 + p.aux.toNat ≤ 128 →
    exec (.readReq p) s = .next (settleAll (pushTxn v { fabTxn k p 4 (p.addr.toNat / 128 * 128) with op0 := p.addr.toNat % 128, op1 := p.aux.toNat, mask := 0 }))) ∧
  (∀ (i : Instr) (s u v : State) (p : NxPkt) (k o : Nat),
    (i, o) ∈ [(Instr.nxAtomicAdd p, 0x10), (.nxAtomicSwap p, 0x11), (.nxAtomicCas p, 0x12), (.nxAtomicMin p, 0x13), (.nxAtomicMax p, 0x14)] → fresh s u v p k →
    p.addr.toNat % (if p.aux.getLsbD 4 then 8 else 4) = 0 → exec i s = .next (settleAll (pushTxn v { fabTxn k p o p.addr.toNat with
      attr := flag (p.aux.getLsbD 4) 0 + flag (p.aux.getLsbD 5) 1, op0 := le p.payload 0 8, op1 := le p.payload 8 8 }))) ∧
  (∀ (s u v : State) (p : NxPkt) (k : Nat) (o : ROp), fresh s u v p k → openRop v k p.src.toNat p.opid.toNat 0 = some o →
    p.addr.toNat + p.payload.length ≤ 128 → p.aux = 0 → 128 ≤ o.acked + p.payload.length → let data := lineOf (splice (lineBytes o.data) p.addr.toNat p.payload)
    exec (.readResp p) s = .next (settleAll (finishRop (setRop v { o with data := data, acked := o.acked + p.payload.length }) o.id 0 (some data)))) ∧
  (∀ (s u v : State) (p : NxPkt) (k : Nat) (o : ROp), fresh s u v p k → openRop v k p.src.toNat p.opid.toNat 2 = some o →
    exec (.atomicResp p) s = .next (settleAll (finishRop v o.id p.aux.toNat (some (BitVec.ofNat 1024 (le p.payload 0 8)))))) ∧
  (∀ (s u v : State) (p : NxPkt) (k : Nat) (o : ROp), fresh s u v p k → openRop v k p.src.toNat p.opid.toNat 1 = some o → p.aux.toNat / 256 = 0 →
    let w := setRop v { o with acked := o.acked + p.aux.toNat % 256 }
    exec (.comp p) s = .next (settleAll (if o.packets ≤ o.acked + p.aux.toNat % 256 then finishPacket w o 0 else w)) ∧
    ((∀ x ∈ w.rops, x.within ≠ some o.id) → finishPacket w o 0 = finishRop w o.id 0 none)) ∧
  (∀ (s : State) (tag k m rpa o n pa : Nat) (r : Region) (data : Line) (mask : BitVec 128) (x : TxPkt), (s.job k).state = 2 → fabricTarget s r pa = some (m, rpa) →
    (s.conn k m).state ≠ 2 → s.rops.length < 65536 → connRoom s k m = true → maskRuns mask = [(o, n)] → packInto s tag k m (rpa + o) n false = some x →
    ∃ u op, startFabric s tag k 1 r pa 5 0 0 0 data mask true false = .sent u ∧ u.rops = s.rops ++ [op] ∧ op.within = some x.opid ∧ op.done = none ∧
      (u.conn k m).unacked = (s.conn k m).unacked.dropLast ++ [{ x with payload := x.payload ++ sub (lineBytes data) o n }] ∧ u.out.length = s.out.length) ∧
  (∀ (s u v : State) (p : NxPkt) (k : Nat), received s p false = (u, some k) → takePsn u k p.src.toNat p.psn.toNat = (v, false) → 0 < p.payload.length →
    p.addr.toNat % 4096 + p.payload.length ≤ 4096 → exec (.nxWrite p) s = .next v ∧ exec (.comp p) s = .next v) ∧
  (∀ (s : State) (k peer psn : Nat), let c := s.conn k peer
    let d := (psn + 2 ^ 32 - c.cumPsn) % 2 ^ 32
    ((takePsn s k peer psn).2 = true ↔ d < 1024 ∧ c.bitmap.getLsbD d = false) ∧
    (1024 ≤ d → d < 2 ^ 31 → (takePsn s k peer psn).1 = s) ∧
    (d = 0 → c.bitmap = 0 → c.sinceTack < 15 → ((takePsn s k peer psn).1.conn k peer).cumPsn = (c.cumPsn + 1) % 2 ^ 32))

/-- RECOVERY OF A CONNECTION (R340, R341, R344, R346): a TACK drops the packets it names and is sent 2 µs after the first packet not acknowledged; an
unacknowledged packet goes again, and after eight times its peer is fenced; keepalives go after a quarter of the time and their absence fences; UNFENCE and
OPEN start both sides again at PSN 0.
The model's choices in it are in the log: 8, 20, 27, 28, 79. -/
def Obligations.ConnectionRecovery : Prop :=
  (∀ (s u : State) (p : NxPkt) (k : Nat), received s p false = (u, some k) → exec (.tack p) s = .next (tacked u k p.src.toNat (p.addr.toNat % 2 ^ 32) (leNat p.payload)) ∧
    exec (.keepalive p) s = .next u) ∧
  (∀ (s : State) (k peer cum bm : Nat), (∀ x ∈ (s.conn k peer).unacked, x.skips + (s.conn k peer).unacked.length < 32) →
    let named (x : TxPkt) : Bool := psnAfter cum x.psn || decide ((x.psn + 2 ^ 32 - cum) % 2 ^ 32 < 1024) && bm.testBit ((x.psn + 2 ^ 32 - cum) % 2 ^ 32)
    ((tacked s k peer cum bm).conn k peer).unacked.map (·.psn) = ((s.conn k peer).unacked.filter (fun x => !named x)).map (·.psn)) ∧
  (∀ (s : State) (k : Fin 64) (m : BitVec 14), s.quiet = false → (s.conn k m.toNat).state = 1 → (s.conn k m.toNat).sinceTack ≠ 0 → (s.conn k m.toNat).firstSince + 2000 ≤ s.time →
    exec (.tackTimeout k m) s = .next (sendTack s k m.toNat)) ∧
  (∀ (s : State) (k : Fin 64) (m : BitVec 14) (n : BitVec 32) (x : TxPkt), s.quiet = false → (s.conn k m.toNat).unacked.find? (fun x => x.psn = n.toNat) = some x →
    x.sentAt + rtoNs s ≤ s.time → exec (.retransmitTimeout k m n) s = .next (retransmit s k m.toNat n.toNat) ∧
    (8 ≤ x.retx → retransmit s k m.toNat n.toNat = fencePeer s k m.toNat 2) ∧
    (x.retx < 8 → ((retransmit s k m.toNat n.toNat).conn k m.toNat).unacked.map (·.psn) = (s.conn k m.toNat).unacked.map (·.psn))) ∧
  (∀ (s : State) (k : Fin 64) (m : BitVec 14), s.quiet = false → (s.conn k m.toNat).state = 1 →
    ((s.conn k m.toNat).lastSent + s.cfg.keepaliveMs * 250000 ≤ s.time → exec (.keepaliveTimer k m) s = .next (sendUnnumbered s k m.toNat 0x21 0 0 [])) ∧
    ((s.conn k m.toNat).lastHeard + s.cfg.keepaliveMs * 1000000 ≤ s.time → exec (.keepaliveExpiry k m) s = .next (fencePeer s k m.toNat 1))) ∧
  (∀ (s u : State) (p : NxPkt) (k : Nat), received s p true = (u, some k) → (u.conn k p.src.toNat).state = 2 → (u.conn k p.src.toNat).unfenced = true →
    exec (.nxOpen p) s = .next (sendUnnumbered (setConn u k p.src.toNat { state := 1, lastHeard := u.time, lastSent := u.time }) k p.src.toNat 0x22 0 0 [])) ∧
  (∀ (s : State) (k m : Nat), s.quiet = false → k = bits s.nx.peerSel 19 14 → m = bits s.nx.peerSel 13 0 → (s.conn k m).state = 2 →
    exec .unfence s = .next (sendUnnumbered (setConn s k m { state := 2, reason := (s.conn k m).reason, unfenced := true }) k m 0x22 0 0 [])) ∧
  (∀ (s : State) (k m r : Nat), (s.conn k m).state = 2 → fencePeer s k m r = s)

/-- JOBS AND THEIR KEYS (R347–R350, R362): JOIN reads the descriptor, and fails where it does not list this module's key; a join unanswered for 30 s fails;
LEAVE empties the slot and closes its connections; a rekey sends the next key, and the last acknowledgement switches; the old key is erased 100 ms later; TIME
follows the leader.
The model's choices in it are in the log: 8, 20, 25, 27, 29, 85. -/
def Obligations.JobsAndKeys : Prop :=
  (∀ (s : State) (k : Fin 64), s.quiet = false → (s.job k).state = 0 →
    exec (.join k) s = .next (readJob (setJob s k { desc := (s.job k).desc, retx := (s.job k).retx, state := 1, joinedAt := s.time, hello := s.time }) k)) ∧
  (∀ (s u : State) (k : Nat) (bs : List Byte), readDesc s k = (u, .ok bs) → let n := min 16384 (le bs 12 2)
    let ms := (List.range n).map (memberAt (bs.drop 64))
    2 ≤ n → le bs 10 2 = u.cfg.moduleId → let j := (readJob s k).job k
    let listed := ms.any (fun m => m.module = u.cfg.moduleId && m.digest = Config.likDigest)
    j.state = (if listed then 2 else 4) ∧ j.error = (if listed then (u.job k).error else 1) ∧ j.keys = (if listed then [0] else (u.job k).keys) ∧
    j.keyId = (if listed then 0 else (u.job k).keyId) ∧ j.jobId = le bs 0 8 ∧ j.tag = le bs 8 2 ∧ j.leader = le bs 10 2 ∧ j.members = ms) ∧
  (∀ (s u : State) (k st d : Nat), readDesc s k = (u, .fail st d) → readJob s k = setJob u k { u.job k with state := 4, error := 1 }) ∧
  (∀ (s : State) (k : Fin 64), s.quiet = false → (s.job k).state = 1 → (s.job k).answered = false → (s.job k).members ≠ [] → (s.job k).hello + 1000000 ≤ s.time →
    exec (.helloTimer k) s = .next (sendKey (setJob s k { s.job k with hello := s.time }) k (s.job k).leader 1)) ∧
  (∀ (s : State) (k : Fin 64), s.quiet = false → (s.job k).state = 1 → (s.job k).joinedAt + 30000000000 ≤ s.time →
    exec (.joinTimeout k) s = .next (setJob s k { s.job k with state := 4, error := 2 })) ∧
  (∀ (s : State) (k : Fin 64), s.quiet = false → (s.job k).state ≠ 0 → s.rops = [] → s.nx.colls = [] → ∃ u, exec (.leave k) s = .next (settleAll u) ∧
    u.job k = { desc := (s.job k).desc, retx := (s.job k).retx } ∧ (∀ m, m < 16384 → u.conn k m = {}) ∧ (∀ j m, j ≠ k.val → m < 16384 → u.conn j m = s.conn j m) ∧
    u = { s with nx := u.nx }) ∧
  (∀ (s : State) (k : Fin 64), s.quiet = false → leads s k = true → (s.job k).state = 2 → (s.job k).pend = none → others s k = [] →
    exec (.rekey k) s = .next (clearNonces { setJob s k { s.job k with
      acks := [], keyGen := s.draws, keyId := ((s.job k).keyId + 1) % 4, keys := [(s.job k).keyId, ((s.job k).keyId + 1) % 4], pend := none
      oldKeySince := some ((s.job k).keyId, s.time) } with draws := s.draws + 1 } k (((s.job k).keyId + 1) % 4))) ∧
  (∀ (s : State) (k : Fin 64) (old t : Nat), s.quiet = false → (s.job k).oldKeySince = some (old, t) → t + 100000000 ≤ s.time →
    exec (.oldKeyErase k) s = .next (setJob s k { s.job k with keys := (s.job k).keys.filter (· ≠ old), oldKeySince := none })) ∧
  (∀ (s : State) (p : NxPkt) (kind : KeyMsg) (g : BitVec 384) (ok : Bool) (k : Nat), carries s p.port 0 = true → p.dst.toNat = s.cfg.moduleId → let u := countRx s p.port
    (List.range 64).find? (fun k => ((u.job k).state = 1 || (u.job k).state = 2) && (u.job k).tag = p.jobTag.toNat && !(u.job k).members.isEmpty) = some k →
    (u.conn k p.src.toNat).state ≠ 2 → framed u p = true → exec (.keyExch p kind g ok) s = .next (keyMessage u k p kind g ok)) ∧
  (∀ (s : State) (k : Nat) (p : NxPkt) (g : BitVec 384), (s.job k).state = 1 → p.src.toNat = (s.job k).leader →
    keyMessage s k p .share g false = setJob s k { s.job k with state := 4, error := 3 } ∧
    ((s.job k).answered = true → p.auth = true → (keyMessage s k p .jobKey g false).job k = { s.job k with state := 2, keyId := 0, keys := [0], keyGen := s.draws })) ∧
  (∀ (s : State) (k : Fin 64), s.quiet = false → timeJob s = some k.val → leads s k = false → (∀ t, (s.job k).asked = some t → t + 10000000 ≤ s.time) →
    exec (.timeReq k none) s = .next (sendUnnumbered (setJob s k { s.job k with asked := some s.time }) k (s.job k).leader 0x31 s.time 0 (leBytes 8 s.time))) ∧
  (∀ (s u : State) (k : Fin 64) (p : NxPkt) (n : Nat), s.quiet = false → received s p false = (u, some n) → leads u n = true →
    exec (.timeReq k (some p)) s = .next (sendUnnumbered u n p.src.toNat 0x32 u.time 0 (leBytes 8 p.addr.toNat ++ leBytes 8 u.time ++ leBytes 8 u.time))) ∧
  (∀ (s u : State) (p : NxPkt) (n : Nat), received s p false = (u, some n) → timeJob u = some n → leads u n = false → p.src.toNat = (u.job n).leader →
    let o : BitVec 64 := BitVec.ofInt 64 (((le p.payload 8 8 : Int) - (le p.payload 0 8 : Int) + ((le p.payload 16 8 : Int) - (u.time : Int))) / 2)
    exec (.timeResp p) s = .next (if (u.job n).stepped then { u with nx := { u.nx with timeErr := o, slew := o.toInt, slewNs := 0 } }
      else setJob { u with time := (u.time + o.toNat) % timeMod, nx := { u.nx with timeErr := o } } n { u.job n with stepped := true }))

/-- COLLECTIVES (R353–R359): a COLLECTIVE of a group of the job whose members are there starts its instance under the next CSEQ; an owned element with every
addend is reduced in rank order, rounded once and written; packets of a peer are kept for their instance; an instance that ends frees its engine and gives its
command its elements.
The model's choices in it are in the log: 27, 158. -/
def Obligations.Collectives : Prop :=
  (∀ (i : Instr) (s : State) (q : Fin 4096) (c : Cmd) (op : Nat),
    (i, op) ∈ [(Instr.allReduce q, 0), (.reduceScatter q, 1), (.allGather q, 2), (.broadcast q, 3), (.allToAll q, 4)] → going s q 0x12 c → slotLe c.raw 0x10 1 = op → collOf s q = none →
    let f := slotLe c.raw
    let k := queueSlice s q
    let e := f 0x15 1
    let ms := groupOf s (f 0x11 1)
    let rank := rankOf s (f 0x11 1) s.cfg.moduleId
    let key := seqKey k (f 0x11 1) (f 0x16 2)
    (s.col e).retired = false → (s.job k).state = 2 → rank < ms.length → (∀ m ∈ ms, ∃ j ∈ (s.job k).members, j.module = m) → (op = 3 → f 0x30 2 < ms.length) →
    (∀ m ∈ ms, m = s.cfg.moduleId ∨ (s.conn k m).state ≠ 2) → s.nx.groups = [] → (s.col e).running = none →
    ∃ u, exec i s = .next (settleAll (runColl q 4096 u)) ∧ collOf u q = some { queue := q, raw := c.raw, job := k, eng := e, axis := f 0x11 1, group := f 0x16 2, cseq := Tab.get 0 s.nx.cseq key, opid := s.nx.nextOpid % 2 ^ 32, rank := rank, members := ms } ∧
      (u.col e).running = some q.val ∧ Tab.get 0 u.nx.cseq key = (Tab.get 0 s.nx.cseq key + 1) % 2 ^ 32 ∧ (u.queue q).cmd = some { c with stage := 1 }) ∧
  (∀ (i : Instr) (s : State) (q : Fin 4096) (c : Cmd) (op : Nat),
    (i, op) ∈ [(Instr.allReduce q, 0), (.reduceScatter q, 1), (.allGather q, 2), (.broadcast q, 3), (.allToAll q, 4)] → going s q 0x12 c → slotLe c.raw 0x10 1 = op → collOf s q = none →
    (s.col (slotLe c.raw 0x15 1)).retired = false → (s.job (queueSlice s q)).state ≠ 2 →
    exec i s = .next (settleAll (setCmd s q { c with result := some (0x11, 1, none) }))) ∧
  (∀ (s u v : State) (e : Fin 2) (c : Coll) (n : Nat) (bs r : List Byte) (vs : List Nat), s.quiet = false → (s.col e).running = some c.queue → collOf s c.queue = some c → c.op = 1 →
    (c.owned c.rank).1 ≤ n → n < (c.owned c.rank).2 → c.isOut (n - (c.owned c.rank).1) = false → c.n ≤ c.sentHeads → let out := n - (c.owned c.rank).1
    c.at'.readSpan 2 s (c.srcAddr n) c.width = (u, .ok bs) → c.addendsOf n (leNat bs) = some vs → (c.addendsOf n 0).isSome = true →
    let res := reduceAll (c.f 0x12 1) (c.f 0x13 1) (c.rm n) vs
    c.at'.writeSpan 2 u (c.outAddr out) (leBytes c.width res.1) = (v, .ok r) →
    exec (.collReduce e n) s = .next (settleAll (runColl c.queue 4096 (setColl v
      ({ c with flags := c.flags ||| res.2, addends := c.addends.filter (fun p => p.1 / 65536 ≠ n) }.mark out 1))))) ∧
  (∀ (rm : Rm) (a b : Nat), reduceAll 8 0 rm [a, b] = ((a + b) % 2 ^ 32, 0) ∧ reduceAll 8 1 rm [a, b] = (min a b, 0) ∧ reduceAll 8 2 rm [a, b] = (max a b, 0)) ∧
  (∀ (i : Instr) (s u v : State) (p : NxPkt) (k opc kind : Nat), (i, opc, kind) ∈ [(Instr.collData p, 0x10, 0), (.collHeader p, 0x11, 1), (.collAbandon p, 0x11, 2)] →
    received s p false = (u, some k) → takePsn u k p.src.toNat p.psn.toNat = (v, true) → let e : EarlyPkt :=
      { job := k, peer := p.src.toNat, opc := opc, opid := p.opid.toNat, addr := p.addr.toNat, aux := if opc = 0x11 then kind else p.aux.toNat, payload := p.payload }
    deadPacket v e = false → exec i s = .next (settleAll (runColls { v with nx := { v.nx with early := v.nx.early ++ [e] } } k))) ∧
  (∀ (s : State) (c : Coll) (st d : Nat) (f : Option Nat) (x : Cmd), (s.queue c.queue).cmd = some x → x.result = none → let u := collEnd s c st d f
    (u.col c.eng).running = none ∧ (u.queue c.queue).cmd = some { x with elems := c.done.1, bytes := c.done.2, result := some (st, d, f) } ∧ collOf u c.queue = none)

/-- UNITS, POWER AND SURVEY (R282, R434, R440, R445, R448, R449, R461–R472): a unit retired in place is counted, and raises its source; an idle block gates,
and a core that gates keeps its memories and loses its registers; sensors move their state, and 125 °C trips; ageing raises a margin by the slack that is
missing; Survey tests, counts, and acts on a failure; the collector checks itself, squelches the ports and takes a queue base; a lost PLL raises its source.
The model's choices in it are in the log: 2, 8, 56, 58, 60, 61, 91, 123, 128, 137. -/
def Obligations.PowerAndSurvey : Prop :=
  let counted (s : State) : State := { s with glb := { s.glb with retiredUnits := s.glb.retiredUnits + 1 } }
  let noCommand (s : State) : Prop := ∀ p ∈ s.queues, p.2.cmd = none
  (∀ (s : State) (e : EngineUnit), s.quiet = false → engineRetired s e = true → exec (.engineRetire e) s = .next s) ∧
  (∀ (s : State) (e : Fin 48), s.quiet = false → (s.ce e).retired = false → noCommand s → exec (.engineRetire (.ce e)) s =
    .next (settleAll (raise (counted (setCe s e { s.ce e with retired := true, gated := false })) (1024 + e) { unit := e }))) ∧
  (∀ (s : State) (e : Fin 8), s.quiet = false → (s.cal e).retired = false → (s.cal e).running = false → exec (.engineRetire (.cal e)) s =
    .next (settleAll (raise (counted (setCal s e { s.cal e with retired := true, gated := false })) (1072 + e) { unit := 48 + e }))) ∧
  (∀ (s : State) (e : Fin 2), s.quiet = false → (s.col e).retired = false → s.nx.colls = [] → exec (.engineRetire (.col e)) s =
    .next (settleAll (raise (counted (setCol s e { s.col e with retired := true, gated := false })) (1080 + e) { unit := 56 + e }))) ∧
  (∀ (s : State) (w : Fin 64), s.quiet = false → s.tel.walkersOut.getLsbD w = false → exec (.engineRetire (.walker w)) s =
    .next (settleAll (raise (counted { s with tel := { s.tel with walkersOut := s.tel.walkersOut ||| (1#64 <<< w.val) } }) (1082 + w) { unit := w }))) ∧
  (∀ (s : State) (t : Fin 16), s.quiet = false → s.tel.tlbsOut.getLsbD t = false → exec (.engineRetire (.tlb t)) s =
    .next (settleAll (raise (counted { s with tel := { s.tel with tlbsOut := s.tel.tlbsOut ||| (1#16 <<< t.val) } }) (1146 + t) { unit := t }))) ∧
  (∀ (s : State) (n : Fin 144) (c : Nat), s.quiet = false → coreOf s n = some c → coreIdle s c = true → (s.core c).gated = false →
    ∃ t, exec (.powerGate (.core n)) s = .next t ∧ t = { s with cores := t.cores, draws := s.draws + 1 } ∧ (∀ d, d ≠ c → t.core d = s.core d) ∧
      (t.core c).gated = true ∧ (t.core c).st = (s.core c).st ∧ (t.core c).imem = (s.core c).imem ∧ (t.core c).tmem = (s.core c).tmem ∧ (t.core c).pc = (s.core c).pc ∧
      (t.core c).sem = (s.core c).sem ∧ ∀ r, 1 ≤ r → r ≤ 31 → (t.core c).xr r = Config.freeBits 64 s.draws r) ∧
  (∀ (s : State) (e : Fin 48), s.quiet = false → ceActive s e = 0 → (s.ce e).retired = false → exec (.powerGate (.ce e)) s = .next (setCe s e { s.ce e with gated := true })) ∧
  (∀ (s : State) (e : Fin 8), s.quiet = false → (s.cal e).running = false → (s.cal e).retired = false →
    exec (.powerGate (.cal e)) s = .next (setCal s e { s.cal e with gated := true })) ∧
  (∀ (s : State) (e : Fin 2), s.quiet = false → (s.col e).running = none → (s.col e).retired = false →
    exec (.powerGate (.col e)) s = .next (setCol s e { s.col e with gated := true })) ∧
  (∀ (s : State) (n : Fin 96) (temp : BitVec 8), s.pins.porN = true → s.lc ≠ 4 → let st := thermState (Tab.get ({} : Sensor) s.tel.therm n).state temp.toNat [95, 105, 125]
    let u := { s with tel := { s.tel with therm := Tab.set {} s.tel.therm n { state := st, temp := temp.toNat } } }
    ((32 ≤ n.val ∨ st < 2 ∨ ivrLimit u (8 + n.val / 4) = ivrLimit s (8 + n.val / 4)) → exec (.baseSensorRead n temp) s = .next (if st = 3 then thermTrip u n else u)) ∧
    (n.val < 32 → st = 2 → ivrLimit u (8 + n.val / 4) ≠ ivrLimit s (8 + n.val / 4) → siteUp s (n.val / 4) = true → s.fcu.safe = false →
      exec (.baseSensorRead n temp) s = .next (settleAll (post u (n.val / 4) { cls := 5, opc := 2, addr := ivrLimit u (8 + n.val / 4) })))) ∧
  (∀ old t, old ≤ 3 → (125 ≤ t → thermState old t [95, 105, 125] = 3) ∧ (t < 92 → thermState old t [95, 105, 125] = 0) ∧
    (thermState old t [95, 105, 125] = 0 ∨ thermState old t [95, 105, 125] = 1 ∨ thermState old t [95, 105, 125] = 2 ∨ thermState old t [95, 105, 125] = 3)) ∧
  (∀ (s : State) (n : Nat), s.pins.thermTrip = false → (thermTrip s n).pins.thermTrip = true ∧ (thermTrip s n).tel.tripSensor = some n ∧
    ∀ d, 8 ≤ d → d < 48 → d ≠ 32 → d ≠ 43 → (Tab.get ({} : Pd) (thermTrip s n).tel.pd d).state = 4) ∧
  (∀ (s : State) (d : Fin 48) (x : BitVec 8), s.quiet = false → s.glb.open_ = true →
    let m := Tab.get 0 s.fuses.margin d
    let t := Tab.get 0 s.fuses.target d
    let noted (pd : Tab Pd) : Tel := { s.tel with pd := pd, ageCount := (s.tel.ageCount + 1) % 65536, ageLast := s.time }
    let seen := Tab.modify ({} : Pd) s.tel.pd d (fun p => { p with slack := x.toNat })
    (measured s d = false → exec (.ageingMeasurement [(d, x)]) s = .next { s with tel := noted s.tel.pd }) ∧
    (measured s d = true → t ≤ x.toNat → exec (.ageingMeasurement [(d, x)]) s = .next { s with tel := noted seen }) ∧
    (measured s d = true → x.toNat < t → m < 16 → exec (.ageingMeasurement [(d, x)]) s = .next { s with
      tel := noted seen, fuses := { s.fuses with margin := Tab.set 0 s.fuses.margin d (min 16 (m + min 4 (t - x.toNat))) } }) ∧
    (measured s d = true → x.toNat < t → 16 ≤ m → (d.val < 8 ∨ 15 < d.val ∧ d.val < 33 ∨ 42 < d.val) → exec (.ageingMeasurement [(d, x)]) s = .next { s with
      tel := { noted (Tab.modify ({} : Pd) seen d (fun p => { p with exhausted := true })) with endOfMargin := true } })) ∧
  (∀ (s : State) (e : EngineUnit), surveyRuns s = true → underTest s (surveyUnit (.engine e)) = false → engineIdle s e = true → engineRetired s e = false →
    exec (.surveyTestStart (.engine e)) s = .next { s with tel := { s.tel with testing := s.tel.testing ++ [(surveyUnit (.engine e), 0)] } }) ∧
  (∀ (s : State) (n : Fin 144) (c : Nat), surveyRuns s = true → underTest s (surveyUnit (.core n)) = false → coreOf s n = some c → coreIdle s c = true →
    ∃ t, exec (.surveyTestStart (.core n)) s = .next t ∧ (t.core c).survey = true ∧ (∀ d, d ≠ c → t.core d = s.core d) ∧
      t = { s with cores := t.cores, draws := s.draws + 1, tel := { s.tel with testing := s.tel.testing ++ [(surveyUnit (.core n), 0)] } } ∧
      (t.core c).imem = (s.core c).imem ∧ (t.core c).tmem = (s.core c).tmem ∧ ∀ r, 1 ≤ r → r ≤ 31 → (t.core c).xr r = Config.freeBits 64 s.draws r) ∧
  (∀ (s : State) (k : SurveyKind) (n : Nat), surveyRuns s = true → testHolds s k = true → s.tel.testing = [(surveyUnit k, n)] → n + 1 < segments k →
    exec (.surveySegmentDone k true) s = .next { s with tel := { s.tel with testing := [(surveyUnit k, n + 1)] } }) ∧
  (∀ (s : State) (k : SurveyKind), surveyRuns s = true → underTest s (surveyUnit k) = true → testHolds s k = false →
    exec (.surveySegmentDone k true) s = .next { s with tel := { s.tel with testing := s.tel.testing.filter (fun p => p.1 ≠ surveyUnit k) } }) ∧
  (∀ (s : State) (n : Fin 7) (r : Fin 192), surveyRuns s = true → underTest s (surveyUnit (.link n r)) = true → s.tel.surveyFail.getLsbD 63 = false →
    exec (.surveySegmentDone (.link n r) false) s = .next (raise (endTest { s with tel := { s.tel with
      surveyFail := BitVec.ofNat 64 (2 ^ 63 + 6 * 2 ^ 32 + r) } } (surveyUnit (.link n r))) (1494 + n) { unit := r })) ∧
  (∀ (s : State) (u : SurveyUnit), underTest (endTest s u) u = false ∧ u ∉ (endTest s u).tel.late ∧
    (u ∈ (endTest s u).tel.tested ∨ (endTest s u).tel.tested = [] ∧ (endTest s u).tel.rounds = (s.tel.rounds + 1) % 65536)) ∧
  (∀ (s : State) (n : Fin 7) (r : Fin 192), let u := surveyUnit (.link n r)
    surveyRuns s = true → underTest s u = false → u ∉ s.tel.late →
    exec (.surveyDeadline (.link n r)) s = .next { s with tel := { s.tel with late := u :: s.tel.late, testing := s.tel.testing ++ [(u, 0)] } }) ∧
  (∀ s : State, s.pins.porN = true → s.lc ≠ 4 → exec .fcuSelfCheck s = .next (raise s 6 {}) ∧ (raise s 6 {}).fcu.safe = true ∧ (raise s 6 {}).fcu.selfFault = true) ∧
  (∀ s : State, s.pins.porN = true → s.fcu.safe = true → s.fcu.squelched = false → s.fcu.safeTime + 100000 ≤ s.time →
    ∃ t, exec .safeSquelch s = .next t ∧ t = { s with fcu := { s.fcu with squelched := true }, out := t.out } ∧ ∀ p, p < 128 → (s.port p).state ≠ 0 → Out.squelch p ∈ t.out) ∧
  (∀ (s : State) (v : BitVec 64), s.pins.porN = true → s.lc ≠ 4 → let b := keepFields v [(49, 18), (0, 0)]
    exec (.fcuQBaseWrite v) s = .next (if bit v 0 && !bit s.fcu.qBase 0 then { s with fcu := { s.fcu with qBase := b, prod := 0, cons := 0 } }
      else { s with fcu := { s.fcu with qBase := b } })) ∧
  (∀ (s : State) (i : Fin 9), s.pins.porN = true → (Tab.get ({} : Pd) s.tel.pd (if i.val = 8 then 32 else 24 + i.val)).state = 2 →
    exec (.pllLockLost i) s = .next (raise { s with clk := { s.clk with pllLost := s.clk.pllLost ||| (1#9 <<< i.val) } } (8 + i) { unit := i })) ∧
  (∀ (s : State) (i : Instr), s.fcu.safe = true → i ∈ [Instr.regulatorPeriod, .invComplete, .llaEnable, .nocCntClear, .unfence, .applyDone, .flr] → exec i s = .next s)

/-- THE HOST LINK (R365, R373, R375–R378, R381, R417): the data link comes up with its speed and width; its loss, a narrow reset and an FLR end what is
outstanding with HOST_LINK_LOST, end the host's Chart session, raise source 1492 and put what the host owns at its reset values; retrains and link states hold
requests back and let them go on; D3hot keeps all state; a secure session delivers a key.
The model's choices in it are in the log: 8, 47, 87, 94, 123, 160. -/
def Obligations.HostLink : Prop :=
  let atWork (s : State) : Prop := s.pins.porN = true ∧ s.pcie.dlUp = true
  let event (s : State) (i : Nat) : State := { s with pcie := { s.pcie with events := s.pcie.events ||| (1#5 <<< i) } }
  let down (s : State) : State := { s with pcie := { s.pcie with dlUp := false, speed := 0, width := 0, pmState := 0 } }
  let lost (s : State) : State := let u := event s 0
    endSession { u with
      rops := (u.rops.map (fun o => if toHost o && o.done.isNone then { o with done := some 6 } else o)).filter (fun o => o.keep || o.done.isNone)
      txns := u.txns.filterMap (fun t => if t.src = .host then t.abandon else some t)
      pcie := { u.pcie with pba := 0, losses := (u.pcie.losses + 1) % 2 ^ 64, ideKeys := [], retraining := false, retrainLong := false } } .host
  let gone (s : State) : State := resetHostOwned (settleAll (raise (lost s) 1492 {}))
  (∀ s : State, atWork s → (∀ p ∈ s.queues, p.2.cmd = none) → exec .hostLoss s = .next (gone (down s)) ∧ exec .hotReset s = .next (gone (down (event s 2)))) ∧
  (∀ s : State, s.quiet = false → s.pcie.dlUp = true → s.pcie.flrBusy = false → (∀ p ∈ s.queues, p.2.cmd = none) → let t := gone (event s 3)
    exec .flr s = .next { t with pcie := { t.pcie with flrBusy := true } }) ∧
  (∀ s : State, let t := resetHostOwned s
    t = { s with pcie := t.pcie, mgmt := { s.mgmt with spdmDoe := 0 } } ∧ t.pcie.bar4Win = 0 ∧ t.pcie.msix = [] ∧ t.pcie.pba = 0 ∧ t.pcie.msixEnable = false ∧
      t.pcie.d3hot = false ∧ t.pcie.ideKeys = [] ∧ t.pcie.ats = [] ∧ t.pcie.hwin = [] ∧ t.pcie.hwinPasid = [] ∧ t.pcie.l1IdleUs = 64 ∧ t.pcie.l0pIdleUs = 20 ∧
      t.pcie.dlUp = s.pcie.dlUp ∧ t.pcie.events = s.pcie.events ∧ t.pcie.losses = s.pcie.losses) ∧
  (∀ s : State, s.quiet = false → s.pcie.flrBusy = true →
    exec .flrComplete s = .next (settleAll { s with pcie := { s.pcie with flrBusy := false, msixEnable := true, l1Enable := true, l12Enable := true } })) ∧
  (∀ (s : State) (v : Fin 7) (w : Fin 17), endpointOn s = true → s.pcie.dlUp = false → 1 ≤ v.val → w.val ∈ [1, 2, 4, 8, 16] → s.fcu.safe = false →
    exec (.linkUp v w) s = .next (settleAll { s with
      pcie := { s.pcie with dlUp := true, flrBusy := false, speed := v, width := w, fullWidth := w, pmState := 0, msixEnable := true, l1Enable := true, l12Enable := true }
      wmk := { s.wmk with events := s.wmk.events ||| 1 } })) ∧
  (∀ s : State, atWork s → s.pcie.retraining = false → exec .retrain s = .next { s with pcie := { s.pcie with retraining := true, retrainAt := s.time } }) ∧
  (∀ s : State, atWork s → s.pcie.retraining = true → s.pcie.retrainLong = false → s.pcie.retrainAt + 2000000 ≤ s.time →
    exec .retrainLong s = .next { s with pcie := { s.pcie with retrainLong := true, events := s.pcie.events ||| (1#5 <<< 4) } }) ∧
  (∀ s : State, atWork s → s.pcie.retraining = true → s.fcu.safe = false →
    exec .l0Return s = .next (settleAll (sendPending { s with pcie := { s.pcie with retraining := false, retrainLong := false } }))) ∧
  (∀ s : State, atWork s → s.pcie.l1Enable = true → s.pcie.pmState ≤ 1 → s.pcie.retraining = false → exec .l1Entry s = .next { s with pcie := { s.pcie with pmState := 2 } }) ∧
  (∀ s : State, atWork s → s.pcie.l12Enable = true → s.pcie.pmState = 2 → exec .l12Entry s = .next { s with pcie := { s.pcie with pmState := 3 } }) ∧
  (∀ s : State, atWork s → 2 ≤ s.pcie.pmState → s.fcu.safe = false →
    exec .l1Exit s = .next (settleAll (sendPending { s with pcie := { s.pcie with pmState := if s.pcie.width < s.pcie.fullWidth then 1 else 0 } }))) ∧
  (∀ s : State, s.pcie.pba = 0 → sendPending s = s) ∧
  (∀ (s : State) (v : Nat), v < 2048 → s.quiet = false → s.pcie.msixEnable = true → msixWaits s v = false → s.pcie.pba.getLsbD v = true →
    (sendPending s).pcie.pba.getLsbD v = false ∧ Out.msix v ∈ (sendPending s).out) ∧
  (∀ s : State, atWork s → s.pcie.pmState ≤ 1 → s.pcie.l0pMin ≤ s.pcie.width / 2 → 1 ≤ s.pcie.width / 2 →
    exec .l0pEntry s = .next { s with pcie := { s.pcie with width := s.pcie.width / 2, pmState := 1 } }) ∧
  (∀ s : State, atWork s → s.pcie.pmState = 1 → exec .l0pExit s = .next { s with pcie := { s.pcie with width := s.pcie.fullWidth, pmState := 0 } }) ∧
  (∀ s : State, s.quiet = false → s.pcie.dlUp = true → s.pcie.flrBusy = false → s.pcie.pmState ≤ 1 →
    exec (.d3hotEntry true) s = .next { s with pcie := { s.pcie with d3hot := true } } ∧
    exec (.d3hotEntry false) s = .next (settleAll (sendPending { s with pcie := { s.pcie with d3hot := false } }))) ∧
  (∀ (s : State) (n : Fin 5), s.quiet = false → s.hostUp = true → s.mgmt.spdmDoe ≠ 0 → n.val ∉ s.pcie.ideKeys →
    exec (.keyProg n) s = .next { s with pcie := { s.pcie with ideKeys := s.pcie.ideKeys ++ [n.val] } })

/-- ACCESSES OF THE HOST AND ITS ANSWERS (R368–R372, R379, R381, R414): an access of BAR4 goes to the address of its window, and no further than the BAR; a
line at no address takes no write, and is logged; outside D0 a read is an Unsupported Request; an answer completes its request with the status of R372, and
none in time with HOST_LINK_LOST; a translation is forgotten when the host asks.
The model's choices in it are in the log: 47, 76, 87, 121, 122, 160. -/
def Obligations.HostAccess : Prop :=
  let served (s : State) : State := { s with wmk := { s.wmk with events := s.wmk.events ||| 2 } }
  let open_ (s : State) (id : Nat) (o : ROp) : Prop := s.rops = [o] ∧ o.id = id ∧ o.done = none ∧ toHost o = true ∧ o.keep = true
  let at_ (s : State) (off : BitVec 41) : Nat := bits s.pcie.bar4Win 49 30 * 2 ^ 30 + off.toNat
  (∀ (s : State) (off : BitVec 41) (len : BitVec 13), s.pins.porN = true → s.pcie.dlUp = true → s.fcu.safe = false → s.hostUp = true → s.pcie.pmState ≤ 1 →
    off.toNat + len.toNat ≤ 2 ^ s.pcie.bar4Log2 → 1 ≤ len.toNat → let pa := at_ s off
    pa % 128 + len.toNat ≤ 128 → exec (.bar4Read off len) s = .next (settleAll (pushTxn (served s)
      { id := 0, src := .host, opc := 4, addr := pa / 128 * 128, reg := 65, ini := 205, op0 := pa % 128, op1 := len.toNat }))) ∧
  (∀ (s : State) (off : BitVec 41) (len : BitVec 13), s.pins.porN = true → s.pcie.dlUp = true → (s.fcu.safe = true ∨ s.hostUp = false) →
    off.toNat + len.toNat ≤ 2 ^ s.pcie.bar4Log2 → exec (.bar4Read off len) s = .next { s with out := .unsupported (at_ s off) :: s.out }) ∧
  (∀ (s : State) (off : BitVec 41) (data : List (BitVec 8)) (r : Bool), s.quiet = false → s.hostUp = true → s.pcie.pmState ≤ 1 → 1 ≤ data.length →
    off.toNat + data.length ≤ 2 ^ s.pcie.bar4Log2 → let pa := at_ s off
    pa % 128 + data.length ≤ 128 → let line := pa / 128 * 128
    (s.cfg.locate line ≠ .unmapped → feltBusyRange s pa data.length = false → exec (.bar4Write off data r) s = .next (settleAll (pushTxn (served s)
      { id := 0, src := .host, opc := if data.length = 128 then 5 else 6, addr := line, reg := 65, ini := 205, relaxed := r
        mask := BitVec.ofNat 128 ((2 ^ data.length - 1) <<< (pa % 128)), data := lineOf (List.replicate (pa % 128) 0 ++ data) }))) ∧
    (s.cfg.locate line = .unmapped → exec (.bar4Write off data r) s = .next (settleAll (raise (served s) 1493 { addr := line }))) ∧
    (s.cfg.locate line ≠ .unmapped → feltBusyRange s pa data.length = true → exec (.bar4Write off data r) s = .next (settleAll (served s)))) ∧
  (∀ (s : State) (v : BitVec 64) (p : Path), s.quiet = false → pathUp s p = true → p ≠ .smbus → p ≠ .testPort → let base := bits v 49 30 * 2 ^ 30
    exec (.bar4WinWrite p v) s = .next (if base % 2 ^ s.pcie.bar4Log2 = 0 ∧ base + 2 ^ s.pcie.bar4Log2 ≤ remoteBase
      then { s with pcie := { s.pcie with bar4Win := keepFields v [(49, 30)] } } else s)) ∧
  (∀ (s : State) (id : Nat) (data : BitVec 1024) (o : ROp), s.quiet = false → s.pcie.dlUp = true → s.pcie.retraining = false → s.pcie.pmState ≤ 1 → open_ s id o →
    let done (st : Nat) (d : Line) : State := { (if o.kind = 1 ∧ st ≠ 0 then oweFailure s o.line st else s) with rops := [{ o with done := some st, data := d }] }
    (o.kind = 0 → exec (.hostCompletion id .ok data) s = .next (settleAll (done 0 data))) ∧
    (o.kind = 2 → o.len = 8 → o.signed = false → exec (.hostCompletion id .ok data) s = .next (settleAll (done 0 (BitVec.ofNat 1024 (data.toNat % 2 ^ 64))))) ∧
    (o.kind = 2 → o.len = 4 → o.signed = true → exec (.hostCompletion id .ok data) s = .next (settleAll (done 0 (BitVec.ofNat 1024
      (if data.toNat % 2 ^ 32 < 2 ^ 31 then data.toNat % 2 ^ 32 else data.toNat % 2 ^ 32 + (2 ^ 64 - 2 ^ 32)))))) ∧
    exec (.hostCompletion id .unsupported data) s = .next (settleAll (done 1 o.data)) ∧ exec (.hostCompletion id .abort data) s = .next (settleAll (done 1 o.data)) ∧
    exec (.hostCompletion id .poisoned data) s = .next (settleAll (raise (done 2 o.data) 1493 { addr := o.addr }))) ∧
  (∀ (s : State) (id page : Nat) (data : BitVec 1024) (o : ROp) (bus : Nat) (p : Option Nat), s.quiet = false → s.pcie.dlUp = true → s.pcie.retraining = false →
    s.pcie.pmState ≤ 1 → s.pcie.d3hot = false → s.pcie.flrBusy = false → open_ s id o → o.kind = 4 → o.after = 0 → o.target = .host bus p → page = bits data 63 12 →
    ∃ t, exec (.hostCompletion id .ok data) s = .next (settleAll t) ∧ t.rops = [{ o with kind := 0, target := .host (page * 4096 + bus % 4096) p, sentAt := s.time }] ∧
      t.out = .tlp o.id 0 (page * 4096 + bus % 4096) p o.len o.extra :: s.out ∧ t.pcie.ats.head? = some { window := ((s.cfg.regionOf o.addr).map (·.num)).getD 0, page := bus / 4096, translated := page }) ∧
  (∀ (s : State) (id : Nat) (o : ROp), s.quiet = false → open_ s id o → o.sentAt + 50000000 ≤ s.time →
    exec (.completionTimeout id) s = .next (settleAll (raise { (if o.kind = 1 then oweFailure s o.line 6 else s) with rops := [{ o with done := some 6 }] } 1493
      { addr := o.addr }))) ∧
  (∀ (s : State) (w : Fin 16) (page : BitVec 52), s.quiet = false → s.rops = [] → exec (.atsInvalidate w page) s =
    .next { s with pcie := { s.pcie with ats := s.pcie.ats.filter (fun e => !(decide (e.window = w.val) && decide (e.page = page.toNat))) } }) ∧
  (∀ s : State, configRead s 0 2 = 0x1F9E ∧ configRead s 2 2 = 0x5A01 ∧ configRead s 9 3 = 0x120000 ∧ configRead s 0x2C 2 = 0x1F9E ∧ configRead s 0x34 1 = 0x40 ∧
    configRead s 0x3D 1 = 0 ∧ (s.fuses.stepping < 256 → configRead s 8 1 = s.fuses.stepping) ∧ (s.fuses.variant < 65536 → configRead s 0x2E 2 = s.fuses.variant))

/-- SLICES (R384–R389, R393, R394): BIND takes an UNBOUND slice that is defined, with a PASID of its own and a valid context, and BIND_DONE ends it with a new
generation; RESET and UNBIND stop its queues and cores, and once nothing is in flight reset its cores and take its tokens; after the reset the slice is BOUND
again, or its context and queues are cleared and it is scrubbed; the mirror is written each period, and a control word acts on a queue of the slice and is
acknowledged.
The model's choices in it are in the log: 8, 34, 46, 132, 151. -/
def Obligations.SliceCommands : Prop :=
  let noted (s : State) (n op e : Nat) : State := setSlice s n { s.slice n with lastOp := op, error := e }
  let shared (s : State) (n p : Nat) : Prop := ∃ x ∈ s.slices, x.1 ≠ n ∧ 1 ≤ x.2.state ∧ x.2.state ≤ 4 ∧ x.2.pasid = p
  (∀ (s : State) (n : Fin 64) (p : BitVec 20), s.quiet = false → s.chart.state ≠ 4 → s.chart.reload = false →
    ((s.slice n).state = 6 → exec (.bind n p) s = .next (settleAll (noted s n 1 3))) ∧
    (1 ≤ (s.slice n).state → (s.slice n).state ≤ 5 → exec (.bind n p) s = .next (settleAll (noted s n 1 2))) ∧
    ((s.slice n).state = 0 → shared s n p.toNat → exec (.bind n p) s = .next (settleAll (noted s n 1 4))) ∧
    ((s.slice n).state = 0 → ¬ shared s n p.toNat → bit (s.ctx n).root 0 = false → exec (.bind n p) s = .next (settleAll (noted s n 1 5))) ∧
    ((s.slice n).state = 0 → ¬ shared s n p.toNat → bit (s.ctx n).root 0 = true → p = 0 → exec (.bind n p) s = .next (settleAll (noted s n 1 6))) ∧
    ((s.slice n).state = 0 → ¬ shared s n p.toNat → bit (s.ctx n).root 0 = true → p ≠ 0 → exec (.bind n p) s =
      .next (settleAll (setSlice s n { s.slice n with state := 1, stage := .bindInv, pasid := p.toNat, lastOp := 1, error := 0 })))) ∧
  (∀ (s : State) (n : Fin 64) (p : BitVec 20), s.quiet = false → s.chart.state = 4 → exec (.bind n p) s = .next (settleAll (noted s n 1 1))) ∧
  (∀ (s u : State) (n : Fin 64), s.quiet = false → (s.slice n).state = 1 → invalidateCtx s n = some u → (u.slice n).fenceAfterBind = false →
    ∃ t, exec (.bindDone n) s = .next (settleAll t) ∧ t = { u with slices := t.slices, noc := t.noc } ∧ (∀ k, k ≠ n.val → t.slice k = u.slice k) ∧
      t.slice n = { u.slice n with state := 2, stage := .idle, gen := ((u.slice n).gen + 1) % 2 ^ 32, fenceAfterBind := false } ∧
      Tab.get ({} : Tv) t.noc.tv n = {} ∧ t.regulator n = { u.regulator n with tokens := 0, remainder := 0 }) ∧
  (∀ (i : Instr) (s : State) (n : Fin 64) (op st : Nat), (i, op, st) ∈ [(Instr.sliceReset n 1, 2, 3), (.unbind n 1, 3, 4)] → s.quiet = false → (s.slice n).state = 2 →
    (∀ q ∈ queuesOfSlice s n, (s.queue q).inProgress = false) → (∀ c ∈ coresOfSlice s n, customerDie s (c / 24) = false) →
    ∃ t, exec i s = .next (settleAll (noted (flushIrqs t) n op 0)) ∧ t = { s with slices := t.slices, queues := t.queues, cores := t.cores } ∧
      t.slice n = { s.slice n with state := st, stage := .drain, squash := false } ∧ (∀ k, k ≠ n.val → t.slice k = s.slice k) ∧
      (∀ q, t.queue q = if q ∈ queuesOfSlice s n ∧ (s.queue q).state ≠ 0 then { s.queue q with state := 0, reason := 5, irqDue := true, heldIssued := false } else s.queue q) ∧
      ∀ c, t.core c = if c ∈ coresOfSlice s n then (s.core c).stop 0x12 0 else s.core c) ∧
  (∀ (i : Instr) (s : State) (n : Fin 64) (m : BitVec 2) (op : Nat), (i, op) ∈ [(Instr.sliceReset n m, 2), (.unbind n m, 3)] → s.quiet = false → m ≠ 3 →
    ((s.slice n).state = 6 → exec i s = .next (settleAll (noted s n op 3))) ∧
    ((s.slice n).state < 2 ∨ (s.slice n).state = 5 → exec i s = .next (settleAll (noted s n op 2)))) ∧
  (∀ (s : State) (n : Fin 64), s.quiet = false → (s.slice n).stage = .drain → sliceCores s n + sliceCommands s n + sliceRequests s n = 0 →
    (∀ c ∈ coresOfSlice s n, customerDie s (c / 24) = false) → ∃ t, exec (.sliceInflightZero n) s = .next t ∧
      t = { s with slices := t.slices, cores := t.cores, noc := t.noc } ∧ t.slice n = { s.slice n with stage := .coreReset } ∧
      t.regulator n = { s.regulator n with tokens := 0, remainder := 0 } ∧
      ∀ c, t.core c = if c ∈ coresOfSlice s n ∧ coreHole s c = false then { s.core c with st := .reset, hold := .none, survey := false } else s.core c) ∧
  (∀ (s : State) (n : Fin 64), s.quiet = false → (s.slice n).stage = .coreReset → (∀ c ∈ coresOfSlice s n, (s.core c).st ≠ .reset ∨ coreHole s c = true) →
    ((s.slice n).state = 3 → (s.slice n).unbindNext = false → exec (.sliceResetDone n) s = .next (setSlice s n { s.slice n with
      state := 2, stage := .idle, squash := false, resets := ((s.slice n).resets + 1) % 2 ^ 32 })) ∧
    (∀ u, (s.slice n).state = 4 → (s.job n).state = 0 → invalidateCtx s n = some u → ∃ t, exec (.sliceResetDone n) s = .next t ∧
      (t.slice n).state = 5 ∧ (t.slice n).stage = .scrub ∧ (t.slice n).pasid = 0 ∧ (t.slice n).mirror = 0 ∧ (t.slice n).ctlLine = 0 ∧ bit (t.ctx n).root 0 = false ∧
      (∀ q ∈ queuesOfSlice s n, t.queue q = {}) ∧ t.mem = s.mem ∧ t.cores = s.cores)) ∧
  (∀ (s : State) (n : Fin 64), s.quiet = false → (s.slice n).state = 5 → (s.slice n).stage = .scrub → (s.slice n).scrubsLeft = 0 → exec (.scrubDone n) s =
    .next (if (s.slice n).scrubFailed then raise (setSlice s n { s.slice n with stage := .idle }) (1164 + n) { slice := n, unit := n }
      else setSlice s n { s.slice n with state := 0, stage := .idle, resets := ((s.slice n).resets + 1) % 2 ^ 32 })) ∧
  (∀ (s u : State) (n : Fin 64) (r : List Byte), let p := bits (s.slice n).mirror 3 0
    let e : Eng := { tag := 0x68000 + n, slice := n, port := 8, reg := n, ini := 999 }
    s.quiet = false → p ≠ 0 → (s.slice n).mirrorAt + 10000 * 2 ^ (p - 1) ≤ s.time →
    (e.writeSpan 4 s (bits (s.slice n).mirror 56 8 * 256) (mirrorBytes s n) = (u, .ok r) →
      exec (.mirrorWrite n) s = .next (settleAll (releaseTag (setSlice u n { u.slice n with mirrorAt := u.time }) e.tag))) ∧
    (∀ a b, e.writeSpan 4 s (bits (s.slice n).mirror 56 8 * 256) (mirrorBytes s n) = (u, .fail a b) →
      exec (.mirrorWrite n) s = .next (settleAll (releaseTag (setSlice u n { u.slice n with mirror := (u.slice n).mirror &&& ~~~15#64 }) e.tag)))) ∧
  (∀ (s : State) (n : Nat), (mirrorBytes s n).length = 256 ∧ (mirrorBytes s n).take 8 = leBytes 8 ((s.slice n).pasid % 2 ^ 20 * 2 ^ 24 + (s.slice n).state) ∧
    ((mirrorBytes s n).drop 24).take 8 = leBytes 8 (s.slice n).ctlAck.toNat) ∧
  (∀ (s : State) (n : Fin 64) (w : BitVec 64) (ws : List (BitVec 64)) (r : SliceRec), s.quiet = false → (s.slice n).ctlPend = w :: ws → sliceRec s n = some r →
    let act := bits w 3 0
    let ack (x : Nat) : State := setSlice s n { s.slice n with ctlPend := ws, ctlAck := BitVec.ofNat 64 (bits w 63 48 * 2 ^ 48 + x) }
    exec (.controlWord n w) s = .next (if bits w 15 4 < r.qCount ∧ bits w 47 16 = 0 ∧ 1 ≤ act ∧ act ≤ 4 ∧ (s.slice n).state = 2
      then settleAll (writeCeqCtl (ack 0) (r.qFirst + bits w 15 4) (2 ^ (act - 1))) else ack 1))

/-- SECURITY (R406–R410, R414, R418–R422, R440): a transition is refused with its RESULT or programmed, and what it withdraws ends with its programming;
owners and the boot anchor are provisioned once; a slot is extended by the hash of a range; nonces expire, tokens are checked in order and grant their rights,
which end; a debug access is answered under the rights in force, and otherwise refused.
The model's choices in it are in the log: 2, 8, 37, 40, 42, 43, 44, 74, 76, 77, 125, 126, 127, 133. -/
def Obligations.SecurityCommands : Prop :=
  let locked (s : State) : State := { s with wmk := { s.wmk with rights := 0, dbgSites := 0, dbgUntil := none, dbgCores := [] } }
  let besides (a : DebugAcc) : Bool := match a with | .sideband _ _ _ => false | _ => true
  let result (s : State) (r : Nat) : State := { s with wmk := { s.wmk with result := r } }
  let pair (u c t : Nat) : Bool := if u = 17 then (t = 1 && c = 0) || (t = 2 && c ≤ 1) || (t = 3 && c ≤ 2) else (t ≤ 3 && t = c + 1) || (t = 4 && c ≤ 3)
  (∀ (s : State) (p : Path) (code : BitVec 8) (t : BitVec 3) (u : Nat), pathUp s p = true → p ≠ .smbus → s.lc ≠ 4 → isRetry s code.toNat t.toNat = false →
    unitIndex code.toNat = some u → exec (.lcTransition p code t) s = .next (
      if s.wmk.busy.isSome then result s 6
      else if s.fuses.decode u = 7 ∨ s.lc = 7 then result s 7
      else if pair u (s.fuses.decode u) t.toNat = false then result s 1
      else if s.chart.epoch ≠ 0 then result s 3
      else if transitionPath s p = false then result s 2
      else if transitionReady s u t.toNat = false then result s 4
      else { s with wmk := { s.wmk with busy := some (u, t.toNat), busyAt := s.time, result := 0 } })) ∧
  (∀ (s : State) (u t : Nat), s.pins.porN = true → s.wmk.busy = some (u, t) → s.wmk.busyAt + 720000 ≤ s.time →
    (u < 16 ∨ u = 17 ∧ t < 3 ∨ u = 16 ∧ (t = 1 ∨ t = 3) → exec (.lcProgramDone none) s = .next (dropSessions (locked { s with
      fuses := s.fuses.setStripe u (t - 1) (stripeConst u (t - 1)), wmk := { s.wmk with busy := none, result := 0 } }))) ∧
    (u = 16 → t = 2 → exec (.lcProgramDone none) s = .next (dropSessions (locked { s with
      fuses := ({ s.fuses with testPort := 0xFF } : Fuses).setStripe 16 1 (stripeConst 16 1), wmk := { s.wmk with busy := none, result := 0 } }))) ∧
    (u = 16 → t = 4 → ∃ v, exec (.lcProgramDone none) s = .next v ∧ v.lc = 4 ∧ v.vault = 3 ∧ v.fuses.keysFused = false ∧ v.fuses.destroyed = true ∧ v.pcie.dlUp = false ∧
      v.mgmt.sessions = [] ∧ v.pins.heartbeat = false ∧ rightsNow v = 0)) ∧
  (∀ (s : State) (u t : Nat) (b : Fin 64), s.pins.porN = true → s.wmk.busy = some (u, t) → ¬ (u = 16 ∧ t = 2) → (stripeConst u (t - 1)).getLsbD b = true →
    (s.fuses.stripe u (t - 1)).getLsbD b = false → s.wmk.busyAt + 720000 ≤ s.time → exec (.lcProgramDone (some b)) s = .next (dropSessions (locked { s with
      fuses := s.fuses.setStripe u (t - 1) (s.fuses.stripe u (t - 1) ||| (stripeConst u (t - 1) &&& BitVec.ofNat 64 (2 ^ b.val - 1)))
      wmk := { s.wmk with busy := none, result := 5 } }))) ∧
  (∀ (s : State) (p : Path), wmkWrite s p = true → s.lc = 1 → s.wmk.busy = none →
    (freeOwner s = none → exec (.provisionOwner p) s = .next (result s 4)) ∧
    (∀ i, freeOwner s = some i → activeOwner s = none → exec (.provisionOwner p) s = .next { s with
      fuses := { s.fuses with owners := Tab.set {} s.fuses.owners i { digest := s.wmk.stage, valid := ownerValid } }, wmk := { s.wmk with result := 0 } }) ∧
    (∀ i j, freeOwner s = some i → activeOwner s = some j → ∃ t, exec (.provisionOwner p) s = .next t ∧ t = { s with
        fuses := { s.fuses with owners := t.fuses.owners }, wmk := { s.wmk with result := 0 } } ∧ t.owner i = { digest := s.wmk.stage, valid := ownerValid } ∧
      t.owner j = { s.owner j with revoked := ownerRevoked } ∧ ∀ k, k ≠ i → k ≠ j → t.owner k = s.owner k) ∧
    exec (.provisionBootCa p) s = .next (if s.fuses.bootCaValid ≠ 0 then result s 4
      else { s with fuses := { s.fuses with bootCa := s.wmk.stage, bootCaValid := ownerValid }, wmk := { s.wmk with result := 0 } })) ∧
  (∀ (s : State) (p : Path) (len : BitVec 32) (k : BitVec 3), pathUp s p = true → p ≠ .smbus → p ≠ .testPort → s.lc < 4 → s.wmk.measBusy = false →
    exec (.measExtend p len k) s = .next { s with wmk := if k.toNat < 2 ∨ 5 < k.toNat then { s.wmk with measLen := len.toNat, measSlot := k.toNat, measResult := 3 }
      else { s.wmk with measLen := len.toNat, measSlot := k.toNat, measBusy := true, measResult := 0 } }) ∧
  (∀ (s u : State) (bs : List Byte), s.quiet = false → s.wmk.measBusy = true → measurable s (bits s.wmk.measAddr 49 0) s.wmk.measLen = true →
    ({ tag := 0x66000 } : Hub).read (s.wmk.measLen / 128 + 2) s (bits s.wmk.measAddr 49 0) s.wmk.measLen = (u, .ok bs) → let k := u.wmk.measSlot
    exec .measExtendDone s = .next { u with wmk := { u.wmk with
      ms := Tab.set 0 u.wmk.ms k (sha384 (digestBytes (Tab.get 0 u.wmk.ms k) ++ digestBytes (sha384 bs))), measBusy := false, measResult := 0 } }) ∧
  (∀ s : State, s.quiet = false → s.wmk.measBusy = true → measurable s (bits s.wmk.measAddr 49 0) s.wmk.measLen = false →
    exec .measExtendDone s = .next { s with wmk := { s.wmk with measBusy := false, measResult := 1 } }) ∧
  (∀ (s : State) (p : Path), wmkWrite s p = true →
    exec (.genNonce p) s = .next { s with draws := s.draws + 1, wmk := { s.wmk with nonce := Config.drbg s.draws, nonceAt := some s.time } } ∧
    exec (.debugLock p) s = .next (locked s) ∧ let used := { s with wmk := { s.wmk with nonce := 0, nonceAt := none, tokenResult := tokenCheck s } }
    (tokenLe s 0 4 ≠ 0x4344475A → tokenCheck s ≠ 0 → exec (.tokenPresent p) s = .next used) ∧
    (tokenLe s 0 4 = 0x4344475A → exec (.tokenPresent p) s = .next (if tokenCheck s ≠ 0 then used else { used with wmk := { used.wmk with
      rights := BitVec.ofNat 64 (tokenLe s 0x30 8), dbgSites := BitVec.ofNat 16 (tokenLe s 0x38 2), dbgUntil := some (s.time + 1000000000 * tokenLe s 0x3C 4)
      grantsEpoch := s.wmk.grantsEpoch + 1, grantsPor := s.wmk.grantsPor + 1 } }))) ∧
  (∀ s : State, (tokenFormat s = false → tokenCheck s = 1) ∧ (tokenFormat s = true → tokenLe s 8 8 ≠ s.fuses.serial.toNat → tokenCheck s = 2) ∧
    (tokenFormat s = true → tokenLe s 8 8 = s.fuses.serial.toNat → (s.wmk.nonceAt = none ∨ (∃ t, s.wmk.nonceAt = some t ∧ t + 600000000000 ≤ s.time) ∨ tokenLe s 0x10 32 ≠ s.wmk.nonce.toNat) → tokenCheck s = 3)) ∧
  (∀ (s : State) (t : Nat), s.pins.porN = true →
    (s.wmk.nonceAt = some t → t + 600000000000 ≤ s.time → exec .nonceExpiry s = .next { s with wmk := { s.wmk with nonce := 0, nonceAt := none } }) ∧
    (s.wmk.dbgUntil = some t → t ≤ s.time → exec .debugSessionExpiry s = .next (locked s)) ∧ exec .entropyHealthFail s = .next (raise s 1502 {})) ∧
  (∀ (s : State) (a : DebugAcc), s.pins.porN = true → (s.fcu.safe = true ∨ 4 ≤ s.lc ∨ s.lc = 2 ∧ s.wmk.rights = 0 ∧ s.wmk.dbgSites = 0) → besides a = true →
    exec (.debugAccess a) s = .next { s with out := .debug true [] :: s.out }) ∧
  (∀ (s : State) (n : Fin 144) (c : Nat) (x : BitVec 5) (v : BitVec 64), s.pins.porN = true → s.fcu.safe = false → s.lc < 4 → debugCore s n = some c →
    exec (.debugAccess (.coreReadX n x)) s = .next { s with out := .debug false (leBytes 8 ((s.core c).xr x.toNat).toNat) :: s.out } ∧
    exec (.debugAccess (.coreWriteX n x v)) s = .next { (if x = 0 then s else setCore s c { s.core c with x := Tab.set 0 (s.core c).x x.toNat v }) with
      out := .debug false [] :: s.out }) ∧
  (∀ (s : State) (n : Nat), debugCore s n = none ↔ (rightsNow s).getLsbD 0 = false ∨ coreOf s n = none ∨ ∃ c, coreOf s n = some c ∧ (coreOccupied s c = true ∨ (s.core c).st = .retired)) ∧
  (∀ (s u : State) (a : BitVec 50) (len : BitVec 8) (bs : List Byte), s.pins.porN = true → s.fcu.safe = false → s.lc < 4 → (rightsNow s).getLsbD 2 = true →
    (∀ l ∈ spanLinesOf a.toNat len.toNat, lineOccupied s l = false) → ({ tag := 0x66001, reg := 65 } : Hub).read 4 s a.toNat len.toNat = (u, .ok bs) →
    exec (.debugAccess (.memRead a len)) s = .next { u with out := .debug false bs :: u.out }) ∧
  (∀ (s : State) (n : Fin 144) (c : Nat) (r : CoreReg) (v : BitVec 8192), s.pins.porN = true → s.fcu.safe = false → s.lc < 4 → debugCore s n = some c →
    exec (.debugAccess (.coreRead n r)) s = .next { s with out := .debug false (debugReadReg s c r) :: s.out } ∧
    ∃ t, exec (.debugAccess (.coreWrite n r v)) s = .next t ∧ (∀ d, d ≠ c → t.core d = s.core d) ∧ t = { s with cores := t.cores, out := .debug false [] :: s.out } ∧
      (∀ i : BitVec 6, r = .v i → (t.core c).vr i.toNat = v) ∧ (r = .p 0 → t.core c = s.core c) ∧ (∀ n, r = .csr n → t.core c = writeCsr (s.core c) n.toNat (v.setWidth 64))) ∧
  (∀ (s : State) (j : Fin 32) (k : BitVec 14) (w : Fin 16) (d : BitVec 1024), s.pins.porN = true → s.fcu.safe = false → s.lc < 4 →
    exec (.debugAccess (.wayRead j k w)) s = .next (if (rightsNow s).getLsbD 2 = true ∧ wayOccupied s j k.toNat w = false
      then { s with out := .debug false (lineBytes (s.way j k.toNat w).data) :: s.out } else { s with out := .debug true [] :: s.out }) ∧
    (((rightsNow s).getLsbD 3 = false ∨ wayOccupied s j k.toNat w = true) → exec (.debugAccess (.wayWrite j k w d)) s = .next { s with out := .debug true [] :: s.out })) ∧
  (∀ s : State, rightsNow s = if s.lc = 0 ∨ (s.lc = 1 ∧ s.vault = 2) then 0x7F else s.wmk.rights)

/-- THE MANAGEMENT PORT AND THE SIDEBAND (R411–R415, R485): sessions of the anchor's clients open and close; register and memory requests are answered with
their data, or refused as malformed or denied; the SPDM responder answers, and its measurements are the module's; the sideband reads the register its offset
names.
The model's choices in it are in the log: 37, 41, 54, 55, 71, 72, 73, 74, 75, 76, 77, 161. -/
def Obligations.Management : Prop :=
  let said (s : State) (n op st : Nat) (tag : BitVec 16) (d : List Byte) : State := { s with
    out := .mgmt n op st tag.toNat (leBytes 1 op ++ leBytes 1 st ++ leBytes 2 tag.toNat ++ leBytes 4 d.length ++ leBytes 8 0 ++ d) :: s.out }
  let ready (s : State) (n : Nat) : Prop := pathUp s (.mgmt n) = true
  (∀ (s : State) (a : BitVec 384), s.pins.porN = true → s.keysReady = true → s.mgmt.link = true → s.mgmt.closed = false → s.mgmt.sessions.length < 4 → mgmtAnchor s = some a →
    exec (.mgmtSessionOpen a) s = .next { s with mgmt := { s.mgmt with
      sessions := s.mgmt.sessions ++ [{ id := s.mgmt.nextId, anchor := a }], nextId := s.mgmt.nextId + 1 } }) ∧
  (∀ (s : State) (n : Nat), (∃ m ∈ s.mgmt.sessions, m.id = n) → s.chart.session ≠ some (.mgmt n) →
    exec (.mgmtSessionClose n) s = .next { s with mgmt := { s.mgmt with sessions := s.mgmt.sessions.filter (fun m => m.id ≠ n) } }) ∧
  (∀ s : State, s.pins.porN = true → s.glb.sensed = true → s.lc ≠ 4 → s.mgmt.link = false →
    exec (.mgmtAutoneg true) s = .next { s with mgmt := { s.mgmt with link := true } } ∧
    exec (.mgmtAutoneg false) s = .next { advance 200000000 s with mgmt := { s.mgmt with sgmii := !s.mgmt.sgmii } }) ∧
  (∀ (s : State) (n : Nat) (tag : BitVec 16) (len : BitVec 32) (a : BitVec 64), ready s n →
    (regSpan a.toNat len.toNat = false → exec (.regRead n tag len a) s = .next (said s n 1 2 tag [])) ∧
    (regSpan a.toNat len.toNat = true → regShut s a.toNat len.toNat = true → exec (.regRead n tag len a) s = .next (said s n 1 1 tag [])) ∧
    (regSpan a.toNat len.toNat = true → regShut s a.toNat len.toNat = false → ∃ d, exec (.regRead n tag len a) s = .next (said s n 1 0 tag d) ∧ d.length = 8 * len.toNat ∧
      ∀ i, i < len.toNat → (d.drop (8 * i)).take 8 = leBytes 8 (Machine.regRead s (a.toNat + 8 * i)).toNat)) ∧
  (∀ (s : State) (n : Nat) (tag : BitVec 16) (a v w : BitVec 64), ready s n →
    (regSpan a.toNat 1 = true → regShut s a.toNat 1 = false →
      exec (.regWrite n tag a [v]) s = .next (said (Machine.regWrite s (.mgmt n) a.toNat .full v) n 2 0 tag [])) ∧
    (regSpan a.toNat 2 = true → regShut s a.toNat 2 = false → exec (.regWrite n tag a [v, w]) s =
      .next (said (Machine.regWrite (Machine.regWrite s (.mgmt n) a.toNat .full v) (.mgmt n) (a.toNat + 8) .full w) n 2 0 tag [])) ∧
    (regSpan a.toNat 1 = false → exec (.regWrite n tag a [v]) s = .next (said s n 2 2 tag []))) ∧
  (∀ a n, regSpan a n = true ↔ 1 ≤ n ∧ n ≤ 512 ∧ a % 8 = 0 ∧ a + 8 * n ≤ 0x4000000) ∧
  (∀ (s u : State) (n : Nat) (tag : BitVec 16) (len : BitVec 32) (a : BitVec 64) (bs : List Byte), ready s n → memStatus s a.toNat len.toNat = none →
    mgmtHub.read (len.toNat / 128 + 2) { s with wmk := { s.wmk with events := s.wmk.events ||| 4 } } a.toNat len.toNat = (u, .ok bs) →
    exec (.memRead n tag len a) s = .next (said u n 3 0 tag bs)) ∧
  (∀ (s u : State) (n : Nat) (tag : BitVec 16) (a : BitVec 64) (d r : List (BitVec 8)), ready s n → memStatus s a.toNat d.length = none → feltBusyRange s a.toNat d.length = false →
    mgmtHub.write (d.length / 128 + 2) { s with wmk := { s.wmk with events := s.wmk.events ||| 4 } } a.toNat d = (u, .ok r) →
    exec (.memWrite n tag a d) s = .next (settleAll (said u n 4 0 tag []))) ∧
  (∀ (s : State) (n st : Nat) (tag : BitVec 16) (len : BitVec 32) (a : BitVec 64), ready s n → memStatus s a.toNat len.toNat = some st →
    exec (.memRead n tag len a) s = .next (said s n 3 st tag [])) ∧
  (∀ (s : State) (pa n : Nat), ((n = 0 ∨ 65536 < n) → memStatus s pa n = some 2) ∧ (1 ≤ n → n ≤ 65536 → s.fcu.safe = true → memStatus s pa n = some 1) ∧
    (1 ≤ n → n ≤ 65536 → s.cfg.locate pa = .unmapped → memStatus s pa n = some 1) ∧
    (∀ r ch ca l, 1 ≤ n → n ≤ 65536 → s.fcu.safe = false → s.cfg.locate pa = .hbm r ch ca → pa + n ≤ r.base + r.size → l ∈ spanLinesOf pa n → lineOccupied s l = true →
      memStatus s pa n = some 1)) ∧
  (∀ (s : State) (n : Nat), ready s n → exec (.spdm (.mgmt n) .getVersion) s = .next { s with out := .spdm false 0x04 :: s.out } ∧
    (s.keysReady = true → s.mgmt.spdmMgmt < 4 →
      exec (.spdm (.mgmt n) .finish) s = .next { s with mgmt := { s.mgmt with spdmMgmt := s.mgmt.spdmMgmt + 1 }, out := .spdm false 0x65 :: s.out }) ∧
    (1 ≤ s.mgmt.spdmMgmt →
      exec (.spdm (.mgmt n) .endSession) s = .next { s with mgmt := { s.mgmt with spdmMgmt := s.mgmt.spdmMgmt - 1 }, out := .spdm false 0x6C :: s.out })) ∧
  (∀ (s : State) (n : Nat) (i : Fin 13) (x : BitVec 256), ready s n →
    exec (.getMeasurements (.mgmt n) (some i) false x) s = .next { s with out := .measurements false (if i = 0 then [] else [(i.val, measBlock s i)]) none :: s.out } ∧
    (s.keysReady = true → exec (.getMeasurements (.mgmt n) (some i) true x) s = .next { s with out := .measurements false (if i = 0 then [] else [(i.val, measBlock s i)]) (some (Config.akSign s.wmk.lcBoot s.wmk.vaultBoot x (if i = 0 then [] else measBlock s i))) :: s.out })) ∧
  (∀ s : State, (measBlock s 3).length = 32 ∧ (measBlock s 4).length = 64 ∧ (measBlock s 11).length = 512 ∧ (measBlock s 12).length = 16 ∧
    ∀ k, 5 ≤ k → k ≤ 10 → measBlock s k = digestBytes (Tab.get 0 s.wmk.ms (k - 5))) ∧
  (∀ (s : State) (o : BitVec 32), exec (.setOffset o) s = .next (if o.toNat % 8 = 0 then { s with pins := { s.pins with sbOffset := o } } else s)) ∧
  (∀ s : State, s.lc ≠ 4 → sideReadable s.pins.sbOffset.toNat = true → exec .read64 s = .next { s with out := .smbus (Machine.regRead s s.pins.sbOffset.toNat) :: s.out }) ∧
  (∀ (s : State) (o : BitVec 32) (v : BitVec 64), o.toNat ≠ 0x3800010 → exec (.write64 o v) s = .next s) ∧
  (∀ (s : State) (v : BitVec 64) (u : Nat), pathUp s .smbus = true → s.lc ≠ 4 → s.fcu.safe = false → s.wmk.busy = none → isRetry s (bits v 15 8) (bits v 2 0) = true →
    unitIndex (bits v 15 8) = some u → exec (.write64 0x3800010#32 v) s = .next { s with wmk := { s.wmk with busy := some (u, bits v 2 0), busyAt := s.time, result := 0 } })

/-- REGISTER WRITES (R10–R12, R449): a path that does not reach the hub, an address that is not aligned, and the read-only and the undefined registers change
nothing; a 32-bit write changes its half alone; bits of the write-1-to-clear kind clear where the write has a one; and a register read back has what was
written.
The model's choices in it are in the log: 37, 73, 76. -/
def Obligations.RegisterAccess : Prop :=
  let good (s : State) (n : Nat) : Prop := pathUp s (.mgmt n) = true ∧ s.lc ≠ 4 ∧ s.fcu.safe = false
  let put (old v : BitVec 64) (h : RegHalf) : BitVec 64 := match h with
    | .full => v
    | .low => BitVec.ofNat 64 (old.toNat / 2 ^ 32 * 2 ^ 32 + v.toNat % 2 ^ 32)
    | .high => BitVec.ofNat 64 (v.toNat % 2 ^ 32 * 2 ^ 32 + old.toNat % 2 ^ 32)
  (∀ (s : State) (p : Path) (a : BitVec 26) (h : RegHalf) (v : BitVec 64), pathUp s p = false → exec (.registerWrite p a h v) s = .next s) ∧
  (∀ (s : State) (n : Nat) (a : BitVec 26) (h : RegHalf) (v : BitVec 64), a.toNat % 8 ≠ 0 → exec (.registerWrite (.mgmt n) a h v) s = .next s) ∧
  (∀ (s : State) (n : Nat) (a : BitVec 26) (h : RegHalf) (v : BitVec 64),
    (0x200000 ≤ a.toNat ∧ a.toNat < 0x300000) ∨ (0x410000 ≤ a.toNat ∧ a.toNat < 0x800000) ∨ (0x880000 ≤ a.toNat ∧ a.toNat < 0xC00000) ∨
      (0x2000000 ≤ a.toNat ∧ a.toNat < 0x2800000) → exec (.registerWrite (.mgmt n) a h v) s = .next s) ∧
  (∀ (s : State) (n : Nat) (a : BitVec 26) (h : RegHalf) (v : BitVec 64), s.fcu.safe = true → a.toNat < 0x100000 ∨ (0x200000 ≤ a.toNat ∧ a.toNat < 0x3400000) ∨ 0x3C00000 ≤ a.toNat →
    exec (.registerWrite (.mgmt n) a h v) s = .next s) ∧
  (∀ (s : State) (n q : Nat) (a : BitVec 26) (h : RegHalf) (v : BitVec 64), good s n → q < 4096 → a.toNat = 0x1900000 + 0x100 * q + 0x40 →
    exec (.registerWrite (.mgmt n) a h v) s = .next (setQueue s q { s.queue q with irqData := put (s.queue q).irqData v h })) ∧
  (∀ (s : State) (q : Nat), q < 4096 → s.chart.state ≠ 4 → Machine.regRead s (0x1900000 + 0x100 * q + 0x40) = (s.queue q).irqData) ∧
  (∀ (s : State) (n : Nat) (v : BitVec 64), good s n →
    exec (.registerWrite (.mgmt n) 0x4008 .full v) s = .next { s with pcie := { s.pcie with events := s.pcie.events &&& ~~~(v.setWidth 5) } } ∧
    exec (.registerWrite (.mgmt n) 0x3400058 .full v) s = .next { s with fcu := { s.fcu with irqPending := s.fcu.irqPending && !v.getLsbD 0 } }) ∧
  (∀ (s : State) (n k : Nat) (a : BitVec 26) (v : BitVec 64), good s n → k < 48 → a.toNat = 0x3400100 + 8 * k → exec (.registerWrite (.mgmt n) a .full v) s =
    .next { s with fcu := { s.fcu with sticky := s.fcu.sticky &&& ~~~(BitVec.ofNat 1536 (v.toNat % 2 ^ 32) <<< (32 * k)) } }) ∧
  (∀ (s : State) (n : Nat) (v : BitVec 64), good s n → exec (.registerWrite (.mgmt n) 0x3400020 .full v) s =
    .next (if (s.fcu.prod + 2 ^ 32 - v.toNat % 2 ^ 32) % 2 ^ 32 ≤ 4096 then { s with fcu := { s.fcu with cons := v.toNat % 2 ^ 32 } } else s)) ∧
  (∀ (s : State) (n k : Nat) (a : BitVec 26) (h : RegHalf) (v : BitVec 64), good s n → k < 64 → s.chart.state ≠ 4 → a.toNat = 0x1010008 + 0x40 * k →
    exec (.registerWrite (.mgmt n) a h v) s = .next s) ∧
  (∀ (s : State) (n : Nat) (v : BitVec 64), good s n →
    exec (.registerWrite (.mgmt n) 0x3400040 .full v) s = .next { s with fcu := { s.fcu with irqAddr := v &&& 0x0003FFFFFFFFFFF8 } }) ∧
  (∀ (s : State) (a : BitVec 26) (h : RegHalf) (v : BitVec 64), pathUp s .bar0 = true → s.pcie.pmState ≤ 1 →
    (hostWritesOpen s = true → exec (.registerWrite .bar0 a h v) s = .next s) ∧
    (hostWritesOpen s = false → exec (.registerWrite .bar0 a h v) s = .next (Machine.regWrite s .bar0 a.toNat h v)))

/-- A STEP RUNS THE COMMAND AT THE FRONT: the step of a state with a command at the front of its queue is that command's effect on the state with the rest.
With none waiting TIME goes on by one clock edge and each maintenance operation takes one line step (the model's own choice, log 7). -/
def Obligations.StepRunsFront : Prop :=
  (∀ (c : Instr) (s : State), step { s with pending := c :: s.pending } = exec c s) ∧
  (∀ s : State, s.pending = [] → step s = .next (idle s)) ∧
  (∀ s : State, s.pending = [] → s.pins.porN = false → step s = .next s) ∧
  (∀ s : State, s.pending = [] → s.pins.porN = true → s.clk.rootLock = false → s.pins.refclk = true → s.nx.slew = 0 → (∀ p ∈ s.tel.pd, p.2.state ≠ 3) →
    (∀ j, j < 32 → (s.home j).running = none ∧ (s.home j).sys = []) → step s = .next { s with time := (s.time + 10) % 2 ^ 64 })

/-- AFTER RESET (R22, R32, R54, R84, R383, R441, R460): nothing waits, TIME is 0, no Chart is applied, the sites are OFF and the cores in RESET, no slice is
defined, no source is raised, PD0 alone is on, and memory is in its canonical form, every byte not written reading zero (the model's choice, log 6). -/
def Obligations.ResetState : Prop :=
  let s := State.reset
  s.pending = [] ∧ s.time = 0 ∧ s.quiet = true ∧ s.chart.state = 0 ∧ s.chart.epoch = 0 ∧ s.chart.applied = none ∧ s.glb.open_ = false ∧ s.glb.sensed = false ∧
    s.clk.rootLock = false ∧ s.fcu.safe = false ∧ s.fcu.sticky = 0 ∧ s.fcu.prod = 0 ∧ s.txns = [] ∧ s.rops = [] ∧ s.out = [] ∧ s.lla.enable = false ∧
    (∀ k, (s.site k).state = 0 ∧ (s.site k).pwrReq = false) ∧ (∀ c, (s.core c).st = .reset ∧ ∀ r, (s.core c).xr r = 0) ∧ (∀ n, (s.slice n).state = 6) ∧
    (∀ q, (s.queue q).state = 0 ∧ (s.queue q).cmd = none) ∧ (∀ d, (Tab.get ({} : Pd) s.tel.pd d).state = if d = 0 then 2 else 0) ∧
    Memory.wf s.mem = true ∧ ∀ a, Tab.get 0 s.mem a = 0

/-- MEMORY KEEPS ITS CANONICAL FORM: from every state whose memory lists its bytes in rising order and lists no zero, every step that answers a next state
leaves such a memory. So equal memories are equal data. The form is the model's own (log 6). -/
def Obligations.StepKeepsMemory : Prop := ∀ s t : State, Memory.wf s.mem = true → step s = .next t → Memory.wf t.mem = true

/-- THE WORDS OF OPERATIONS ARE READ BACK (R98, R103, R108, R117): every field of the word of a scalar, memory, vector and matrix operation reads back at
every value it has room for, the reserved ones as zero; and two scalar operations with the same core, slot and word are the same operation with the same
operands. -/
def Obligations.SlotWordsReadBack : Prop :=
  (∀ (o lc imm : Nat) (rd a b : BitVec 5), o < 256 → lc < 2 → imm < 2 ^ 32 →
    scF (scWord o rd a b lc imm) = { opc := o, rd := rd.toNat, rs1 := a.toNat, rs2 := b.toNat, lc := lc, rsvd := 0, imm := imm }) ∧
  (∀ f : MF, f.opc < 256 → f.t < 64 → f.ra < 32 → f.rb < 32 → f.rc < 32 → f.ps < 8 → f.sk < 16 → f.sz < 2 → f.u < 2 → f.rsvd = 0 → f.imm < 2 ^ 32 → mF (mWord f) = f) ∧
  (∀ (o : Nat) (f : VFields), o < 256 → vF (vWord o f) = { opc := o, ty := f.ty.toNat, dty := f.dtype.toNat, vd := f.vd.toNat, va := f.va.toNat, vb := f.vb.toNat, vc := f.vc.toNat, pg := f.pg.toNat, bx := if f.bx then 1 else 0, rm := f.rm.toNat, part := f.part.toNat, rsvd := 0, imm := f.imm.toNat }) ∧
  (∀ f : XF, f.opc < 256 → f.ad < 4 → f.wn < 2 → f.z < 2 → f.sp < 2 → f.fmt < 32 → f.ra < 32 → f.rs < 32 → f.rb < 32 → f.row0 < 128 → f.rows < 256 → f.vd < 64 → f.rsvd = 0 →
    xF (xWord f) = f) ∧
  (∀ (i j : Instr) (a b : Alu), aluOf i = some a → aluOf j = some b → a.core = b.core → a.slot = b.slot → a.word = b.word → i = j)
end

