-- ==== Sys2Proof/Laws/Tab.lean ====
section
/-!
SUPPORT. Laws of sparse tables: reading after a write, and the canonical form.
-/
namespace Sys2Proof

variable {α : Type}

theorem Tab.get_cons (d : α) (k : Nat) (v : α) (t : Tab α) (i : Nat) :
    Tab.get d ((k, v) :: t) i = if k = i then v else Tab.get d t i := rfl

theorem Tab.erase_cons (k : Nat) (v : α) (t : Tab α) (i : Nat) :
    Tab.erase ((k, v) :: t) i = if k = i then Tab.erase t i else (k, v) :: Tab.erase t i := by
  by_cases h : k = i <;> simp [Tab.erase, h]

@[simp] theorem Tab.get_erase_same (d : α) (t : Tab α) (k : Nat) : Tab.get d (Tab.erase t k) k = d := by
  induction t with
  | nil => rfl
  | cons p t ih => obtain ⟨i, v⟩ := p; rw [Tab.erase_cons]; split <;> simp_all [Tab.get_cons]

theorem Tab.get_erase_ne (d : α) (t : Tab α) {k i : Nat} (h : i ≠ k) : Tab.get d (Tab.erase t k) i = Tab.get d t i := by
  induction t with
  | nil => rfl
  | cons p t ih =>
    obtain ⟨j, v⟩ := p
    rw [Tab.erase_cons]
    by_cases hj : j = k
    · rw [if_pos hj, ih, Tab.get_cons, if_neg (by omega)]
    · rw [if_neg hj, Tab.get_cons, Tab.get_cons, ih]

theorem Tab.get_insert_ne (d : α) (t : Tab α) {k i : Nat} (v : α) (h : i ≠ k) : Tab.get d (Tab.insert k v t) i = Tab.get d t i := by
  induction t with
  | nil => simp [Tab.insert, Tab.get, Ne.symm h]
  | cons p t ih =>
    obtain ⟨j, w⟩ := p
    unfold Tab.insert
    split
    · simp [Tab.get_cons, Ne.symm h]
    · simp [Tab.get_cons, ih]

theorem Tab.get_insert_erase (d : α) (t : Tab α) (k : Nat) (v : α) : Tab.get d (Tab.insert k v (Tab.erase t k)) k = v := by
  induction t with
  | nil => simp [Tab.erase, Tab.insert, Tab.get]
  | cons p t ih =>
    obtain ⟨j, w⟩ := p
    rw [Tab.erase_cons]
    by_cases hj : j = k
    · rw [if_pos hj, ih]
    · rw [if_neg hj]
      unfold Tab.insert
      split
      · simp [Tab.get_cons]
      · simp [Tab.get_cons, hj, ih]

@[simp] theorem Tab.erase_erase (t : Tab α) (k : Nat) : Tab.erase (Tab.erase t k) k = Tab.erase t k := by simp [Tab.erase]

@[simp] theorem Tab.erase_insert (t : Tab α) (k : Nat) (v : α) : Tab.erase (Tab.insert k v t) k = Tab.erase t k := by
  induction t with
  | nil => simp [Tab.insert, Tab.erase]
  | cons p t ih =>
    obtain ⟨j, w⟩ := p
    unfold Tab.insert
    split
    · simp [Tab.erase]
    · rw [Tab.erase_cons, Tab.erase_cons, ih]

/-- The later of two writes of one key stands. -/
@[simp] theorem Tab.set_set [DecidableEq α] (d : α) (t : Tab α) (k : Nat) (v w : α) : Tab.set d (Tab.set d t k v) k w = Tab.set d t k w := by
  unfold Tab.set
  split <;> split <;> simp

/-- A read of the key written gives the value written. -/
@[simp] theorem Tab.get_set_same [DecidableEq α] (d : α) (t : Tab α) (k : Nat) (v : α) : Tab.get d (Tab.set d t k v) k = v := by
  unfold Tab.set
  split
  · next h => rw [Tab.get_erase_same, h]
  · exact Tab.get_insert_erase d t k v

/-- A read of another key gives what it gave before. -/
theorem Tab.get_set_ne [DecidableEq α] (d : α) (t : Tab α) {k i : Nat} (v : α) (h : i ≠ k) : Tab.get d (Tab.set d t k v) i = Tab.get d t i := by
  unfold Tab.set
  split
  · exact Tab.get_erase_ne d t h
  · rw [Tab.get_insert_ne d _ v h, Tab.get_erase_ne d t h]

/-- A read after a write, at any key. -/
theorem Tab.get_set [DecidableEq α] (d : α) (t : Tab α) (k i : Nat) (v : α) : Tab.get d (Tab.set d t k v) i = if i = k then v else Tab.get d t i := by
  by_cases h : i = k
  · subst h; simp
  · simp [h, Tab.get_set_ne]

@[simp] theorem Tab.get_modify_same [DecidableEq α] (d : α) (t : Tab α) (k : Nat) (f : α → α) :
    Tab.get d (Tab.modify d t k f) k = f (Tab.get d t k) := by simp [Tab.modify]

theorem Tab.get_modify_ne [DecidableEq α] (d : α) (t : Tab α) {k i : Nat} (f : α → α) (h : i ≠ k) :
    Tab.get d (Tab.modify d t k f) i = Tab.get d t i := by simp [Tab.modify, Tab.get_set_ne, h]

/-! ## The canonical form -/

/-- The canonical form, as a chain of rising keys and listed values that are not the default. -/
theorem Tab.wf_iff [DecidableEq α] (d : α) (t : Tab α) :
    Tab.wf d t = true ↔ t.Pairwise (fun a b => a.1 < b.1) ∧ ∀ p ∈ t, p.2 ≠ d := by
  induction t with
  | nil => simp [Tab.wf]
  | cons p t ih =>
    obtain ⟨k, v⟩ := p
    cases t with
    | nil => simp [Tab.wf]
    | cons q t =>
      obtain ⟨k', v'⟩ := q
      simp only [Tab.wf, Bool.and_eq_true, decide_eq_true_eq, ih, List.pairwise_cons, List.mem_cons, forall_eq_or_imp]
      constructor
      · rintro ⟨⟨hv, hk⟩, ⟨hlt, hp⟩, hv', hd⟩
        exact ⟨⟨⟨hk, fun a ha => Nat.lt_trans hk (hlt a ha)⟩, hlt, hp⟩, hv, hv', hd⟩
      · rintro ⟨⟨⟨hk, _⟩, hlt, hp⟩, hv, hv', hd⟩
        exact ⟨⟨hv, hk⟩, ⟨hlt, hp⟩, hv', hd⟩

/-- Dropping entries keeps the form. -/
theorem Tab.wf_filter [DecidableEq α] (d : α) (t : Tab α) (p : Nat × α → Bool) (h : Tab.wf d t = true) : Tab.wf d (t.filter p) = true := by
  rw [Tab.wf_iff] at h ⊢
  exact ⟨h.1.filter p, fun q hq => h.2 q (List.mem_filter.1 hq).1⟩

theorem Tab.mem_insert (k : Nat) (v : α) (t : Tab α) (p : Nat × α) : p ∈ Tab.insert k v t ↔ p = (k, v) ∨ p ∈ t := by
  induction t with
  | nil => simp [Tab.insert]
  | cons q t ih =>
    obtain ⟨j, w⟩ := q
    unfold Tab.insert
    split
    · simp
    · simp [ih]; tauto

theorem Tab.wf_insert [DecidableEq α] (d : α) (t : Tab α) (k : Nat) (v : α) (hv : v ≠ d) (hk : ∀ p ∈ t, p.1 ≠ k) (h : Tab.wf d t = true) :
    Tab.wf d (Tab.insert k v t) = true := by
  rw [Tab.wf_iff] at h ⊢
  refine ⟨?_, fun p hp => ?_⟩
  · replace h := h.1
    clear hv
    induction t with
    | nil => simp [Tab.insert]
    | cons q t ih =>
      obtain ⟨j, w⟩ := q
      have hj : j ≠ k := hk (j, w) (by simp)
      have hc := List.pairwise_cons.1 h
      unfold Tab.insert
      split
      · next hlt =>
        refine List.pairwise_cons.2 ⟨fun p hp => ?_, h⟩
        rcases List.mem_cons.1 hp with rfl | hp
        · exact hlt
        · exact Nat.lt_trans hlt (hc.1 p hp)
      · next hge =>
        refine List.pairwise_cons.2 ⟨fun p hp => ?_, ih (fun p hp => hk p (by simp [hp])) hc.2⟩
        rcases (Tab.mem_insert k v t p).1 hp with rfl | hp
        · show j < k; omega
        · exact hc.1 p hp
  · rcases (Tab.mem_insert k v t p).1 hp with rfl | hp
    · exact hv
    · exact h.2 p hp

/-- A write keeps the canonical form. -/
theorem Tab.wf_set [DecidableEq α] (d : α) (t : Tab α) (k : Nat) (v : α) (h : Tab.wf d t = true) : Tab.wf d (Tab.set d t k v) = true := by
  have he : Tab.wf d (Tab.erase t k) = true := Tab.wf_filter d t _ h
  unfold Tab.set
  split
  · exact he
  · next hv => exact Tab.wf_insert d _ k v hv (fun p hp => by simpa using (List.mem_filter.1 hp).2) he

theorem Tab.wf_modify [DecidableEq α] (d : α) (t : Tab α) (k : Nat) (f : α → α) (h : Tab.wf d t = true) : Tab.wf d (Tab.modify d t k f) = true :=
  Tab.wf_set d t k _ h

theorem Tab.get_eq_default_of_forall_lt [DecidableEq α] (d : α) (t : Tab α) (i : Nat) (h : ∀ p ∈ t, i < p.1) : Tab.get d t i = d := by
  induction t with
  | nil => rfl
  | cons p t ih =>
    obtain ⟨k, v⟩ := p
    have hk : i < k := h (k, v) (by simp)
    rw [Tab.get_cons, if_neg (by omega)]
    exact ih (fun q hq => h q (by simp [hq]))

/-- Two tables in canonical form that read alike at every key are equal. -/
theorem Tab.ext [DecidableEq α] (d : α) (t u : Tab α) (ht : Tab.wf d t = true) (hu : Tab.wf d u = true)
    (h : ∀ i, Tab.get d t i = Tab.get d u i) : t = u := by
  rw [Tab.wf_iff] at ht hu
  induction t generalizing u with
  | nil =>
    cases u with
    | nil => rfl
    | cons q u =>
      obtain ⟨k, v⟩ := q
      have := h k
      simp only [Tab.get, if_true] at this
      exact absurd this.symm (hu.2 (k, v) (by simp))
  | cons p t ih =>
    obtain ⟨k, v⟩ := p
    have hv : v ≠ d := ht.2 (k, v) (by simp)
    cases u with
    | nil =>
      have := h k
      simp only [Tab.get, if_true] at this
      exact absurd this hv
    | cons q u =>
      obtain ⟨k', v'⟩ := q
      have hv' : v' ≠ d := hu.2 (k', v') (by simp)
      have hct := List.pairwise_cons.1 ht.1
      have hcu := List.pairwise_cons.1 hu.1
      have hkk : k = k' := by
        by_contra hne
        rcases Nat.lt_or_gt_of_ne hne with hlt | hgt
        · have := h k
          rw [Tab.get_cons, if_pos rfl, Tab.get_eq_default_of_forall_lt d _ k] at this
          · exact hv this
          · intro p hp
            rcases List.mem_cons.1 hp with rfl | hp
            · exact hlt
            · exact Nat.lt_trans hlt (hcu.1 p hp)
        · have := h k'
          rw [Tab.get_cons (t := u), if_pos rfl, Tab.get_eq_default_of_forall_lt d _ k'] at this
          · exact hv' this.symm
          · intro p hp
            rcases List.mem_cons.1 hp with rfl | hp
            · exact hgt
            · exact Nat.lt_trans hgt (hct.1 p hp)
      subst hkk
      have hvv : v = v' := by have := h k; simpa [Tab.get_cons] using this
      subst hvv
      rw [ih u ⟨hct.2, fun p hp => ht.2 p (by simp [hp])⟩ ⟨hcu.2, fun p hp => hu.2 p (by simp [hp])⟩]
      intro i
      have := h i
      simp only [Tab.get_cons] at this
      split at this
      · next hi =>
        subst hi
        rw [Tab.get_eq_default_of_forall_lt d t k (fun p hp => hct.1 p hp), Tab.get_eq_default_of_forall_lt d u k (fun p hp => hcu.1 p hp)]
      · exact this

end Sys2Proof
end

