-- ==== Sys2Proof/Laws/State.lean ====
section
/-!
SUPPORT. What each setter of a part of State leaves as it was, field by field, and what its reader gives afterwards.
-/
namespace Sys2Proof.Machine

variable (s : State)

@[simp] theorem setCore_pending (c : Nat) (x : Core) : (setCore s c x).pending = s.pending := rfl
@[simp] theorem setCore_time (c : Nat) (x : Core) : (setCore s c x).time = s.time := rfl
@[simp] theorem setCore_pins (c : Nat) (x : Core) : (setCore s c x).pins = s.pins := rfl
@[simp] theorem setCore_fuses (c : Nat) (x : Core) : (setCore s c x).fuses = s.fuses := rfl
@[simp] theorem setCore_clk (c : Nat) (x : Core) : (setCore s c x).clk = s.clk := rfl
@[simp] theorem setCore_chart (c : Nat) (x : Core) : (setCore s c x).chart = s.chart := rfl
@[simp] theorem setCore_sites (c : Nat) (x : Core) : (setCore s c x).sites = s.sites := rfl
@[simp] theorem setCore_mem (c : Nat) (x : Core) : (setCore s c x).mem = s.mem := rfl
@[simp] theorem setCore_poison (c : Nat) (x : Core) : (setCore s c x).poison = s.poison := rfl
@[simp] theorem setCore_undef (c : Nat) (x : Core) : (setCore s c x).undef = s.undef := rfl
@[simp] theorem setCore_recent (c : Nat) (x : Core) : (setCore s c x).recent = s.recent := rfl
@[simp] theorem setCore_lla (c : Nat) (x : Core) : (setCore s c x).lla = s.lla := rfl
@[simp] theorem setCore_txns (c : Nat) (x : Core) : (setCore s c x).txns = s.txns := rfl
@[simp] theorem setCore_nextTxn (c : Nat) (x : Core) : (setCore s c x).nextTxn = s.nextTxn := rfl
@[simp] theorem setCore_mcs (c : Nat) (x : Core) : (setCore s c x).mcs = s.mcs := rfl
@[simp] theorem setCore_chOut (c : Nat) (x : Core) : (setCore s c x).chOut = s.chOut := rfl
@[simp] theorem setCore_hstacks (c : Nat) (x : Core) : (setCore s c x).hstacks = s.hstacks := rfl
@[simp] theorem setCore_gtu (c : Nat) (x : Core) : (setCore s c x).gtu = s.gtu := rfl
@[simp] theorem setCore_fabOps (c : Nat) (x : Core) : (setCore s c x).fabOps = s.fabOps := rfl
@[simp] theorem setCore_noc (c : Nat) (x : Core) : (setCore s c x).noc = s.noc := rfl
@[simp] theorem setCore_fcu (c : Nat) (x : Core) : (setCore s c x).fcu = s.fcu := rfl
@[simp] theorem setCore_slices (c : Nat) (x : Core) : (setCore s c x).slices = s.slices := rfl
@[simp] theorem setCore_queues (c : Nat) (x : Core) : (setCore s c x).queues = s.queues := rfl
@[simp] theorem setCore_ces (c : Nat) (x : Core) : (setCore s c x).ces = s.ces := rfl
@[simp] theorem setCore_runs (c : Nat) (x : Core) : (setCore s c x).runs = s.runs := rfl
@[simp] theorem setCore_cals (c : Nat) (x : Core) : (setCore s c x).cals = s.cals := rfl
@[simp] theorem setCore_cols (c : Nat) (x : Core) : (setCore s c x).cols = s.cols := rfl
@[simp] theorem setCore_rops (c : Nat) (x : Core) : (setCore s c x).rops = s.rops := rfl
@[simp] theorem setCore_nx (c : Nat) (x : Core) : (setCore s c x).nx = s.nx := rfl
@[simp] theorem setCore_pcie (c : Nat) (x : Core) : (setCore s c x).pcie = s.pcie := rfl
@[simp] theorem setCore_wmk (c : Nat) (x : Core) : (setCore s c x).wmk = s.wmk := rfl
@[simp] theorem setCore_mgmt (c : Nat) (x : Core) : (setCore s c x).mgmt = s.mgmt := rfl
@[simp] theorem setCore_glb (c : Nat) (x : Core) : (setCore s c x).glb = s.glb := rfl
@[simp] theorem setCore_tel (c : Nat) (x : Core) : (setCore s c x).tel = s.tel := rfl
@[simp] theorem setCore_out (c : Nat) (x : Core) : (setCore s c x).out = s.out := rfl
@[simp] theorem setCore_draws (c : Nat) (x : Core) : (setCore s c x).draws = s.draws := rfl

@[simp] theorem setQueue_pending (q : Nat) (x : Queue) : (setQueue s q x).pending = s.pending := rfl
@[simp] theorem setQueue_time (q : Nat) (x : Queue) : (setQueue s q x).time = s.time := rfl
@[simp] theorem setQueue_pins (q : Nat) (x : Queue) : (setQueue s q x).pins = s.pins := rfl
@[simp] theorem setQueue_fuses (q : Nat) (x : Queue) : (setQueue s q x).fuses = s.fuses := rfl
@[simp] theorem setQueue_clk (q : Nat) (x : Queue) : (setQueue s q x).clk = s.clk := rfl
@[simp] theorem setQueue_chart (q : Nat) (x : Queue) : (setQueue s q x).chart = s.chart := rfl
@[simp] theorem setQueue_sites (q : Nat) (x : Queue) : (setQueue s q x).sites = s.sites := rfl
@[simp] theorem setQueue_cores (q : Nat) (x : Queue) : (setQueue s q x).cores = s.cores := rfl
@[simp] theorem setQueue_mem (q : Nat) (x : Queue) : (setQueue s q x).mem = s.mem := rfl
@[simp] theorem setQueue_poison (q : Nat) (x : Queue) : (setQueue s q x).poison = s.poison := rfl
@[simp] theorem setQueue_undef (q : Nat) (x : Queue) : (setQueue s q x).undef = s.undef := rfl
@[simp] theorem setQueue_recent (q : Nat) (x : Queue) : (setQueue s q x).recent = s.recent := rfl
@[simp] theorem setQueue_lla (q : Nat) (x : Queue) : (setQueue s q x).lla = s.lla := rfl
@[simp] theorem setQueue_txns (q : Nat) (x : Queue) : (setQueue s q x).txns = s.txns := rfl
@[simp] theorem setQueue_nextTxn (q : Nat) (x : Queue) : (setQueue s q x).nextTxn = s.nextTxn := rfl
@[simp] theorem setQueue_mcs (q : Nat) (x : Queue) : (setQueue s q x).mcs = s.mcs := rfl
@[simp] theorem setQueue_chOut (q : Nat) (x : Queue) : (setQueue s q x).chOut = s.chOut := rfl
@[simp] theorem setQueue_hstacks (q : Nat) (x : Queue) : (setQueue s q x).hstacks = s.hstacks := rfl
@[simp] theorem setQueue_gtu (q : Nat) (x : Queue) : (setQueue s q x).gtu = s.gtu := rfl
@[simp] theorem setQueue_fabOps (q : Nat) (x : Queue) : (setQueue s q x).fabOps = s.fabOps := rfl
@[simp] theorem setQueue_noc (q : Nat) (x : Queue) : (setQueue s q x).noc = s.noc := rfl
@[simp] theorem setQueue_fcu (q : Nat) (x : Queue) : (setQueue s q x).fcu = s.fcu := rfl
@[simp] theorem setQueue_slices (q : Nat) (x : Queue) : (setQueue s q x).slices = s.slices := rfl
@[simp] theorem setQueue_ces (q : Nat) (x : Queue) : (setQueue s q x).ces = s.ces := rfl
@[simp] theorem setQueue_runs (q : Nat) (x : Queue) : (setQueue s q x).runs = s.runs := rfl
@[simp] theorem setQueue_cals (q : Nat) (x : Queue) : (setQueue s q x).cals = s.cals := rfl
@[simp] theorem setQueue_cols (q : Nat) (x : Queue) : (setQueue s q x).cols = s.cols := rfl
@[simp] theorem setQueue_rops (q : Nat) (x : Queue) : (setQueue s q x).rops = s.rops := rfl
@[simp] theorem setQueue_nx (q : Nat) (x : Queue) : (setQueue s q x).nx = s.nx := rfl
@[simp] theorem setQueue_pcie (q : Nat) (x : Queue) : (setQueue s q x).pcie = s.pcie := rfl
@[simp] theorem setQueue_wmk (q : Nat) (x : Queue) : (setQueue s q x).wmk = s.wmk := rfl
@[simp] theorem setQueue_mgmt (q : Nat) (x : Queue) : (setQueue s q x).mgmt = s.mgmt := rfl
@[simp] theorem setQueue_glb (q : Nat) (x : Queue) : (setQueue s q x).glb = s.glb := rfl
@[simp] theorem setQueue_tel (q : Nat) (x : Queue) : (setQueue s q x).tel = s.tel := rfl
@[simp] theorem setQueue_out (q : Nat) (x : Queue) : (setQueue s q x).out = s.out := rfl
@[simp] theorem setQueue_draws (q : Nat) (x : Queue) : (setQueue s q x).draws = s.draws := rfl

@[simp] theorem setSlice_pending (n : Nat) (x : Slice) : (setSlice s n x).pending = s.pending := rfl
@[simp] theorem setSlice_time (n : Nat) (x : Slice) : (setSlice s n x).time = s.time := rfl
@[simp] theorem setSlice_pins (n : Nat) (x : Slice) : (setSlice s n x).pins = s.pins := rfl
@[simp] theorem setSlice_fuses (n : Nat) (x : Slice) : (setSlice s n x).fuses = s.fuses := rfl
@[simp] theorem setSlice_clk (n : Nat) (x : Slice) : (setSlice s n x).clk = s.clk := rfl
@[simp] theorem setSlice_chart (n : Nat) (x : Slice) : (setSlice s n x).chart = s.chart := rfl
@[simp] theorem setSlice_sites (n : Nat) (x : Slice) : (setSlice s n x).sites = s.sites := rfl
@[simp] theorem setSlice_cores (n : Nat) (x : Slice) : (setSlice s n x).cores = s.cores := rfl
@[simp] theorem setSlice_mem (n : Nat) (x : Slice) : (setSlice s n x).mem = s.mem := rfl
@[simp] theorem setSlice_poison (n : Nat) (x : Slice) : (setSlice s n x).poison = s.poison := rfl
@[simp] theorem setSlice_undef (n : Nat) (x : Slice) : (setSlice s n x).undef = s.undef := rfl
@[simp] theorem setSlice_recent (n : Nat) (x : Slice) : (setSlice s n x).recent = s.recent := rfl
@[simp] theorem setSlice_lla (n : Nat) (x : Slice) : (setSlice s n x).lla = s.lla := rfl
@[simp] theorem setSlice_txns (n : Nat) (x : Slice) : (setSlice s n x).txns = s.txns := rfl
@[simp] theorem setSlice_nextTxn (n : Nat) (x : Slice) : (setSlice s n x).nextTxn = s.nextTxn := rfl
@[simp] theorem setSlice_mcs (n : Nat) (x : Slice) : (setSlice s n x).mcs = s.mcs := rfl
@[simp] theorem setSlice_chOut (n : Nat) (x : Slice) : (setSlice s n x).chOut = s.chOut := rfl
@[simp] theorem setSlice_hstacks (n : Nat) (x : Slice) : (setSlice s n x).hstacks = s.hstacks := rfl
@[simp] theorem setSlice_gtu (n : Nat) (x : Slice) : (setSlice s n x).gtu = s.gtu := rfl
@[simp] theorem setSlice_fabOps (n : Nat) (x : Slice) : (setSlice s n x).fabOps = s.fabOps := rfl
@[simp] theorem setSlice_noc (n : Nat) (x : Slice) : (setSlice s n x).noc = s.noc := rfl
@[simp] theorem setSlice_fcu (n : Nat) (x : Slice) : (setSlice s n x).fcu = s.fcu := rfl
@[simp] theorem setSlice_queues (n : Nat) (x : Slice) : (setSlice s n x).queues = s.queues := rfl
@[simp] theorem setSlice_ces (n : Nat) (x : Slice) : (setSlice s n x).ces = s.ces := rfl
@[simp] theorem setSlice_runs (n : Nat) (x : Slice) : (setSlice s n x).runs = s.runs := rfl
@[simp] theorem setSlice_cals (n : Nat) (x : Slice) : (setSlice s n x).cals = s.cals := rfl
@[simp] theorem setSlice_cols (n : Nat) (x : Slice) : (setSlice s n x).cols = s.cols := rfl
@[simp] theorem setSlice_rops (n : Nat) (x : Slice) : (setSlice s n x).rops = s.rops := rfl
@[simp] theorem setSlice_nx (n : Nat) (x : Slice) : (setSlice s n x).nx = s.nx := rfl
@[simp] theorem setSlice_pcie (n : Nat) (x : Slice) : (setSlice s n x).pcie = s.pcie := rfl
@[simp] theorem setSlice_wmk (n : Nat) (x : Slice) : (setSlice s n x).wmk = s.wmk := rfl
@[simp] theorem setSlice_mgmt (n : Nat) (x : Slice) : (setSlice s n x).mgmt = s.mgmt := rfl
@[simp] theorem setSlice_glb (n : Nat) (x : Slice) : (setSlice s n x).glb = s.glb := rfl
@[simp] theorem setSlice_tel (n : Nat) (x : Slice) : (setSlice s n x).tel = s.tel := rfl
@[simp] theorem setSlice_out (n : Nat) (x : Slice) : (setSlice s n x).out = s.out := rfl
@[simp] theorem setSlice_draws (n : Nat) (x : Slice) : (setSlice s n x).draws = s.draws := rfl

@[simp] theorem setSite_pending (k : Nat) (x : Site) : (setSite s k x).pending = s.pending := rfl
@[simp] theorem setSite_time (k : Nat) (x : Site) : (setSite s k x).time = s.time := rfl
@[simp] theorem setSite_pins (k : Nat) (x : Site) : (setSite s k x).pins = s.pins := rfl
@[simp] theorem setSite_fuses (k : Nat) (x : Site) : (setSite s k x).fuses = s.fuses := rfl
@[simp] theorem setSite_clk (k : Nat) (x : Site) : (setSite s k x).clk = s.clk := rfl
@[simp] theorem setSite_chart (k : Nat) (x : Site) : (setSite s k x).chart = s.chart := rfl
@[simp] theorem setSite_cores (k : Nat) (x : Site) : (setSite s k x).cores = s.cores := rfl
@[simp] theorem setSite_mem (k : Nat) (x : Site) : (setSite s k x).mem = s.mem := rfl
@[simp] theorem setSite_poison (k : Nat) (x : Site) : (setSite s k x).poison = s.poison := rfl
@[simp] theorem setSite_undef (k : Nat) (x : Site) : (setSite s k x).undef = s.undef := rfl
@[simp] theorem setSite_recent (k : Nat) (x : Site) : (setSite s k x).recent = s.recent := rfl
@[simp] theorem setSite_lla (k : Nat) (x : Site) : (setSite s k x).lla = s.lla := rfl
@[simp] theorem setSite_txns (k : Nat) (x : Site) : (setSite s k x).txns = s.txns := rfl
@[simp] theorem setSite_nextTxn (k : Nat) (x : Site) : (setSite s k x).nextTxn = s.nextTxn := rfl
@[simp] theorem setSite_mcs (k : Nat) (x : Site) : (setSite s k x).mcs = s.mcs := rfl
@[simp] theorem setSite_chOut (k : Nat) (x : Site) : (setSite s k x).chOut = s.chOut := rfl
@[simp] theorem setSite_hstacks (k : Nat) (x : Site) : (setSite s k x).hstacks = s.hstacks := rfl
@[simp] theorem setSite_gtu (k : Nat) (x : Site) : (setSite s k x).gtu = s.gtu := rfl
@[simp] theorem setSite_fabOps (k : Nat) (x : Site) : (setSite s k x).fabOps = s.fabOps := rfl
@[simp] theorem setSite_noc (k : Nat) (x : Site) : (setSite s k x).noc = s.noc := rfl
@[simp] theorem setSite_fcu (k : Nat) (x : Site) : (setSite s k x).fcu = s.fcu := rfl
@[simp] theorem setSite_slices (k : Nat) (x : Site) : (setSite s k x).slices = s.slices := rfl
@[simp] theorem setSite_queues (k : Nat) (x : Site) : (setSite s k x).queues = s.queues := rfl
@[simp] theorem setSite_ces (k : Nat) (x : Site) : (setSite s k x).ces = s.ces := rfl
@[simp] theorem setSite_runs (k : Nat) (x : Site) : (setSite s k x).runs = s.runs := rfl
@[simp] theorem setSite_cals (k : Nat) (x : Site) : (setSite s k x).cals = s.cals := rfl
@[simp] theorem setSite_cols (k : Nat) (x : Site) : (setSite s k x).cols = s.cols := rfl
@[simp] theorem setSite_rops (k : Nat) (x : Site) : (setSite s k x).rops = s.rops := rfl
@[simp] theorem setSite_nx (k : Nat) (x : Site) : (setSite s k x).nx = s.nx := rfl
@[simp] theorem setSite_pcie (k : Nat) (x : Site) : (setSite s k x).pcie = s.pcie := rfl
@[simp] theorem setSite_wmk (k : Nat) (x : Site) : (setSite s k x).wmk = s.wmk := rfl
@[simp] theorem setSite_mgmt (k : Nat) (x : Site) : (setSite s k x).mgmt = s.mgmt := rfl
@[simp] theorem setSite_glb (k : Nat) (x : Site) : (setSite s k x).glb = s.glb := rfl
@[simp] theorem setSite_tel (k : Nat) (x : Site) : (setSite s k x).tel = s.tel := rfl
@[simp] theorem setSite_out (k : Nat) (x : Site) : (setSite s k x).out = s.out := rfl
@[simp] theorem setSite_draws (k : Nat) (x : Site) : (setSite s k x).draws = s.draws := rfl

@[simp] theorem setDk_pending (k : Nat) (x : Dk) : (setDk s k x).pending = s.pending := rfl
@[simp] theorem setDk_time (k : Nat) (x : Dk) : (setDk s k x).time = s.time := rfl
@[simp] theorem setDk_pins (k : Nat) (x : Dk) : (setDk s k x).pins = s.pins := rfl
@[simp] theorem setDk_fuses (k : Nat) (x : Dk) : (setDk s k x).fuses = s.fuses := rfl
@[simp] theorem setDk_clk (k : Nat) (x : Dk) : (setDk s k x).clk = s.clk := rfl
@[simp] theorem setDk_chart (k : Nat) (x : Dk) : (setDk s k x).chart = s.chart := rfl
@[simp] theorem setDk_cores (k : Nat) (x : Dk) : (setDk s k x).cores = s.cores := rfl
@[simp] theorem setDk_mem (k : Nat) (x : Dk) : (setDk s k x).mem = s.mem := rfl
@[simp] theorem setDk_poison (k : Nat) (x : Dk) : (setDk s k x).poison = s.poison := rfl
@[simp] theorem setDk_undef (k : Nat) (x : Dk) : (setDk s k x).undef = s.undef := rfl
@[simp] theorem setDk_recent (k : Nat) (x : Dk) : (setDk s k x).recent = s.recent := rfl
@[simp] theorem setDk_lla (k : Nat) (x : Dk) : (setDk s k x).lla = s.lla := rfl
@[simp] theorem setDk_txns (k : Nat) (x : Dk) : (setDk s k x).txns = s.txns := rfl
@[simp] theorem setDk_nextTxn (k : Nat) (x : Dk) : (setDk s k x).nextTxn = s.nextTxn := rfl
@[simp] theorem setDk_mcs (k : Nat) (x : Dk) : (setDk s k x).mcs = s.mcs := rfl
@[simp] theorem setDk_chOut (k : Nat) (x : Dk) : (setDk s k x).chOut = s.chOut := rfl
@[simp] theorem setDk_hstacks (k : Nat) (x : Dk) : (setDk s k x).hstacks = s.hstacks := rfl
@[simp] theorem setDk_gtu (k : Nat) (x : Dk) : (setDk s k x).gtu = s.gtu := rfl
@[simp] theorem setDk_fabOps (k : Nat) (x : Dk) : (setDk s k x).fabOps = s.fabOps := rfl
@[simp] theorem setDk_noc (k : Nat) (x : Dk) : (setDk s k x).noc = s.noc := rfl
@[simp] theorem setDk_fcu (k : Nat) (x : Dk) : (setDk s k x).fcu = s.fcu := rfl
@[simp] theorem setDk_slices (k : Nat) (x : Dk) : (setDk s k x).slices = s.slices := rfl
@[simp] theorem setDk_queues (k : Nat) (x : Dk) : (setDk s k x).queues = s.queues := rfl
@[simp] theorem setDk_ces (k : Nat) (x : Dk) : (setDk s k x).ces = s.ces := rfl
@[simp] theorem setDk_runs (k : Nat) (x : Dk) : (setDk s k x).runs = s.runs := rfl
@[simp] theorem setDk_cals (k : Nat) (x : Dk) : (setDk s k x).cals = s.cals := rfl
@[simp] theorem setDk_cols (k : Nat) (x : Dk) : (setDk s k x).cols = s.cols := rfl
@[simp] theorem setDk_rops (k : Nat) (x : Dk) : (setDk s k x).rops = s.rops := rfl
@[simp] theorem setDk_nx (k : Nat) (x : Dk) : (setDk s k x).nx = s.nx := rfl
@[simp] theorem setDk_pcie (k : Nat) (x : Dk) : (setDk s k x).pcie = s.pcie := rfl
@[simp] theorem setDk_wmk (k : Nat) (x : Dk) : (setDk s k x).wmk = s.wmk := rfl
@[simp] theorem setDk_mgmt (k : Nat) (x : Dk) : (setDk s k x).mgmt = s.mgmt := rfl
@[simp] theorem setDk_glb (k : Nat) (x : Dk) : (setDk s k x).glb = s.glb := rfl
@[simp] theorem setDk_tel (k : Nat) (x : Dk) : (setDk s k x).tel = s.tel := rfl
@[simp] theorem setDk_out (k : Nat) (x : Dk) : (setDk s k x).out = s.out := rfl
@[simp] theorem setDk_draws (k : Nat) (x : Dk) : (setDk s k x).draws = s.draws := rfl

@[simp] theorem setHome_pending (j : Nat) (x : HomeSlice) : (setHome s j x).pending = s.pending := rfl
@[simp] theorem setHome_time (j : Nat) (x : HomeSlice) : (setHome s j x).time = s.time := rfl
@[simp] theorem setHome_pins (j : Nat) (x : HomeSlice) : (setHome s j x).pins = s.pins := rfl
@[simp] theorem setHome_fuses (j : Nat) (x : HomeSlice) : (setHome s j x).fuses = s.fuses := rfl
@[simp] theorem setHome_clk (j : Nat) (x : HomeSlice) : (setHome s j x).clk = s.clk := rfl
@[simp] theorem setHome_chart (j : Nat) (x : HomeSlice) : (setHome s j x).chart = s.chart := rfl
@[simp] theorem setHome_sites (j : Nat) (x : HomeSlice) : (setHome s j x).sites = s.sites := rfl
@[simp] theorem setHome_cores (j : Nat) (x : HomeSlice) : (setHome s j x).cores = s.cores := rfl
@[simp] theorem setHome_mem (j : Nat) (x : HomeSlice) : (setHome s j x).mem = s.mem := rfl
@[simp] theorem setHome_poison (j : Nat) (x : HomeSlice) : (setHome s j x).poison = s.poison := rfl
@[simp] theorem setHome_undef (j : Nat) (x : HomeSlice) : (setHome s j x).undef = s.undef := rfl
@[simp] theorem setHome_recent (j : Nat) (x : HomeSlice) : (setHome s j x).recent = s.recent := rfl
@[simp] theorem setHome_txns (j : Nat) (x : HomeSlice) : (setHome s j x).txns = s.txns := rfl
@[simp] theorem setHome_nextTxn (j : Nat) (x : HomeSlice) : (setHome s j x).nextTxn = s.nextTxn := rfl
@[simp] theorem setHome_mcs (j : Nat) (x : HomeSlice) : (setHome s j x).mcs = s.mcs := rfl
@[simp] theorem setHome_chOut (j : Nat) (x : HomeSlice) : (setHome s j x).chOut = s.chOut := rfl
@[simp] theorem setHome_hstacks (j : Nat) (x : HomeSlice) : (setHome s j x).hstacks = s.hstacks := rfl
@[simp] theorem setHome_gtu (j : Nat) (x : HomeSlice) : (setHome s j x).gtu = s.gtu := rfl
@[simp] theorem setHome_fabOps (j : Nat) (x : HomeSlice) : (setHome s j x).fabOps = s.fabOps := rfl
@[simp] theorem setHome_noc (j : Nat) (x : HomeSlice) : (setHome s j x).noc = s.noc := rfl
@[simp] theorem setHome_fcu (j : Nat) (x : HomeSlice) : (setHome s j x).fcu = s.fcu := rfl
@[simp] theorem setHome_slices (j : Nat) (x : HomeSlice) : (setHome s j x).slices = s.slices := rfl
@[simp] theorem setHome_queues (j : Nat) (x : HomeSlice) : (setHome s j x).queues = s.queues := rfl
@[simp] theorem setHome_ces (j : Nat) (x : HomeSlice) : (setHome s j x).ces = s.ces := rfl
@[simp] theorem setHome_runs (j : Nat) (x : HomeSlice) : (setHome s j x).runs = s.runs := rfl
@[simp] theorem setHome_cals (j : Nat) (x : HomeSlice) : (setHome s j x).cals = s.cals := rfl
@[simp] theorem setHome_cols (j : Nat) (x : HomeSlice) : (setHome s j x).cols = s.cols := rfl
@[simp] theorem setHome_rops (j : Nat) (x : HomeSlice) : (setHome s j x).rops = s.rops := rfl
@[simp] theorem setHome_nx (j : Nat) (x : HomeSlice) : (setHome s j x).nx = s.nx := rfl
@[simp] theorem setHome_pcie (j : Nat) (x : HomeSlice) : (setHome s j x).pcie = s.pcie := rfl
@[simp] theorem setHome_wmk (j : Nat) (x : HomeSlice) : (setHome s j x).wmk = s.wmk := rfl
@[simp] theorem setHome_mgmt (j : Nat) (x : HomeSlice) : (setHome s j x).mgmt = s.mgmt := rfl
@[simp] theorem setHome_glb (j : Nat) (x : HomeSlice) : (setHome s j x).glb = s.glb := rfl
@[simp] theorem setHome_tel (j : Nat) (x : HomeSlice) : (setHome s j x).tel = s.tel := rfl
@[simp] theorem setHome_out (j : Nat) (x : HomeSlice) : (setHome s j x).out = s.out := rfl
@[simp] theorem setHome_draws (j : Nat) (x : HomeSlice) : (setHome s j x).draws = s.draws := rfl

@[simp] theorem setWay_pending (j st w : Nat) (x : LlaLine) : (setWay s j st w x).pending = s.pending := rfl
@[simp] theorem setWay_time (j st w : Nat) (x : LlaLine) : (setWay s j st w x).time = s.time := rfl
@[simp] theorem setWay_pins (j st w : Nat) (x : LlaLine) : (setWay s j st w x).pins = s.pins := rfl
@[simp] theorem setWay_fuses (j st w : Nat) (x : LlaLine) : (setWay s j st w x).fuses = s.fuses := rfl
@[simp] theorem setWay_clk (j st w : Nat) (x : LlaLine) : (setWay s j st w x).clk = s.clk := rfl
@[simp] theorem setWay_chart (j st w : Nat) (x : LlaLine) : (setWay s j st w x).chart = s.chart := rfl
@[simp] theorem setWay_sites (j st w : Nat) (x : LlaLine) : (setWay s j st w x).sites = s.sites := rfl
@[simp] theorem setWay_cores (j st w : Nat) (x : LlaLine) : (setWay s j st w x).cores = s.cores := rfl
@[simp] theorem setWay_mem (j st w : Nat) (x : LlaLine) : (setWay s j st w x).mem = s.mem := rfl
@[simp] theorem setWay_poison (j st w : Nat) (x : LlaLine) : (setWay s j st w x).poison = s.poison := rfl
@[simp] theorem setWay_undef (j st w : Nat) (x : LlaLine) : (setWay s j st w x).undef = s.undef := rfl
@[simp] theorem setWay_recent (j st w : Nat) (x : LlaLine) : (setWay s j st w x).recent = s.recent := rfl
@[simp] theorem setWay_txns (j st w : Nat) (x : LlaLine) : (setWay s j st w x).txns = s.txns := rfl
@[simp] theorem setWay_nextTxn (j st w : Nat) (x : LlaLine) : (setWay s j st w x).nextTxn = s.nextTxn := rfl
@[simp] theorem setWay_mcs (j st w : Nat) (x : LlaLine) : (setWay s j st w x).mcs = s.mcs := rfl
@[simp] theorem setWay_chOut (j st w : Nat) (x : LlaLine) : (setWay s j st w x).chOut = s.chOut := rfl
@[simp] theorem setWay_hstacks (j st w : Nat) (x : LlaLine) : (setWay s j st w x).hstacks = s.hstacks := rfl
@[simp] theorem setWay_gtu (j st w : Nat) (x : LlaLine) : (setWay s j st w x).gtu = s.gtu := rfl
@[simp] theorem setWay_fabOps (j st w : Nat) (x : LlaLine) : (setWay s j st w x).fabOps = s.fabOps := rfl
@[simp] theorem setWay_noc (j st w : Nat) (x : LlaLine) : (setWay s j st w x).noc = s.noc := rfl
@[simp] theorem setWay_fcu (j st w : Nat) (x : LlaLine) : (setWay s j st w x).fcu = s.fcu := rfl
@[simp] theorem setWay_slices (j st w : Nat) (x : LlaLine) : (setWay s j st w x).slices = s.slices := rfl
@[simp] theorem setWay_queues (j st w : Nat) (x : LlaLine) : (setWay s j st w x).queues = s.queues := rfl
@[simp] theorem setWay_ces (j st w : Nat) (x : LlaLine) : (setWay s j st w x).ces = s.ces := rfl
@[simp] theorem setWay_runs (j st w : Nat) (x : LlaLine) : (setWay s j st w x).runs = s.runs := rfl
@[simp] theorem setWay_cals (j st w : Nat) (x : LlaLine) : (setWay s j st w x).cals = s.cals := rfl
@[simp] theorem setWay_cols (j st w : Nat) (x : LlaLine) : (setWay s j st w x).cols = s.cols := rfl
@[simp] theorem setWay_rops (j st w : Nat) (x : LlaLine) : (setWay s j st w x).rops = s.rops := rfl
@[simp] theorem setWay_nx (j st w : Nat) (x : LlaLine) : (setWay s j st w x).nx = s.nx := rfl
@[simp] theorem setWay_pcie (j st w : Nat) (x : LlaLine) : (setWay s j st w x).pcie = s.pcie := rfl
@[simp] theorem setWay_wmk (j st w : Nat) (x : LlaLine) : (setWay s j st w x).wmk = s.wmk := rfl
@[simp] theorem setWay_mgmt (j st w : Nat) (x : LlaLine) : (setWay s j st w x).mgmt = s.mgmt := rfl
@[simp] theorem setWay_glb (j st w : Nat) (x : LlaLine) : (setWay s j st w x).glb = s.glb := rfl
@[simp] theorem setWay_tel (j st w : Nat) (x : LlaLine) : (setWay s j st w x).tel = s.tel := rfl
@[simp] theorem setWay_out (j st w : Nat) (x : LlaLine) : (setWay s j st w x).out = s.out := rfl
@[simp] theorem setWay_draws (j st w : Nat) (x : LlaLine) : (setWay s j st w x).draws = s.draws := rfl

@[simp] theorem setCtx_pending (n : Nat) (x : GtuCtx) : (setCtx s n x).pending = s.pending := rfl
@[simp] theorem setCtx_time (n : Nat) (x : GtuCtx) : (setCtx s n x).time = s.time := rfl
@[simp] theorem setCtx_pins (n : Nat) (x : GtuCtx) : (setCtx s n x).pins = s.pins := rfl
@[simp] theorem setCtx_fuses (n : Nat) (x : GtuCtx) : (setCtx s n x).fuses = s.fuses := rfl
@[simp] theorem setCtx_clk (n : Nat) (x : GtuCtx) : (setCtx s n x).clk = s.clk := rfl
@[simp] theorem setCtx_chart (n : Nat) (x : GtuCtx) : (setCtx s n x).chart = s.chart := rfl
@[simp] theorem setCtx_sites (n : Nat) (x : GtuCtx) : (setCtx s n x).sites = s.sites := rfl
@[simp] theorem setCtx_cores (n : Nat) (x : GtuCtx) : (setCtx s n x).cores = s.cores := rfl
@[simp] theorem setCtx_mem (n : Nat) (x : GtuCtx) : (setCtx s n x).mem = s.mem := rfl
@[simp] theorem setCtx_poison (n : Nat) (x : GtuCtx) : (setCtx s n x).poison = s.poison := rfl
@[simp] theorem setCtx_undef (n : Nat) (x : GtuCtx) : (setCtx s n x).undef = s.undef := rfl
@[simp] theorem setCtx_recent (n : Nat) (x : GtuCtx) : (setCtx s n x).recent = s.recent := rfl
@[simp] theorem setCtx_lla (n : Nat) (x : GtuCtx) : (setCtx s n x).lla = s.lla := rfl
@[simp] theorem setCtx_txns (n : Nat) (x : GtuCtx) : (setCtx s n x).txns = s.txns := rfl
@[simp] theorem setCtx_nextTxn (n : Nat) (x : GtuCtx) : (setCtx s n x).nextTxn = s.nextTxn := rfl
@[simp] theorem setCtx_mcs (n : Nat) (x : GtuCtx) : (setCtx s n x).mcs = s.mcs := rfl
@[simp] theorem setCtx_chOut (n : Nat) (x : GtuCtx) : (setCtx s n x).chOut = s.chOut := rfl
@[simp] theorem setCtx_hstacks (n : Nat) (x : GtuCtx) : (setCtx s n x).hstacks = s.hstacks := rfl
@[simp] theorem setCtx_fabOps (n : Nat) (x : GtuCtx) : (setCtx s n x).fabOps = s.fabOps := rfl
@[simp] theorem setCtx_noc (n : Nat) (x : GtuCtx) : (setCtx s n x).noc = s.noc := rfl
@[simp] theorem setCtx_fcu (n : Nat) (x : GtuCtx) : (setCtx s n x).fcu = s.fcu := rfl
@[simp] theorem setCtx_slices (n : Nat) (x : GtuCtx) : (setCtx s n x).slices = s.slices := rfl
@[simp] theorem setCtx_queues (n : Nat) (x : GtuCtx) : (setCtx s n x).queues = s.queues := rfl
@[simp] theorem setCtx_ces (n : Nat) (x : GtuCtx) : (setCtx s n x).ces = s.ces := rfl
@[simp] theorem setCtx_runs (n : Nat) (x : GtuCtx) : (setCtx s n x).runs = s.runs := rfl
@[simp] theorem setCtx_cals (n : Nat) (x : GtuCtx) : (setCtx s n x).cals = s.cals := rfl
@[simp] theorem setCtx_cols (n : Nat) (x : GtuCtx) : (setCtx s n x).cols = s.cols := rfl
@[simp] theorem setCtx_rops (n : Nat) (x : GtuCtx) : (setCtx s n x).rops = s.rops := rfl
@[simp] theorem setCtx_nx (n : Nat) (x : GtuCtx) : (setCtx s n x).nx = s.nx := rfl
@[simp] theorem setCtx_pcie (n : Nat) (x : GtuCtx) : (setCtx s n x).pcie = s.pcie := rfl
@[simp] theorem setCtx_wmk (n : Nat) (x : GtuCtx) : (setCtx s n x).wmk = s.wmk := rfl
@[simp] theorem setCtx_mgmt (n : Nat) (x : GtuCtx) : (setCtx s n x).mgmt = s.mgmt := rfl
@[simp] theorem setCtx_glb (n : Nat) (x : GtuCtx) : (setCtx s n x).glb = s.glb := rfl
@[simp] theorem setCtx_tel (n : Nat) (x : GtuCtx) : (setCtx s n x).tel = s.tel := rfl
@[simp] theorem setCtx_out (n : Nat) (x : GtuCtx) : (setCtx s n x).out = s.out := rfl
@[simp] theorem setCtx_draws (n : Nat) (x : GtuCtx) : (setCtx s n x).draws = s.draws := rfl

@[simp] theorem setConn_pending (k m : Nat) (x : Conn) : (setConn s k m x).pending = s.pending := rfl
@[simp] theorem setConn_time (k m : Nat) (x : Conn) : (setConn s k m x).time = s.time := rfl
@[simp] theorem setConn_pins (k m : Nat) (x : Conn) : (setConn s k m x).pins = s.pins := rfl
@[simp] theorem setConn_fuses (k m : Nat) (x : Conn) : (setConn s k m x).fuses = s.fuses := rfl
@[simp] theorem setConn_clk (k m : Nat) (x : Conn) : (setConn s k m x).clk = s.clk := rfl
@[simp] theorem setConn_chart (k m : Nat) (x : Conn) : (setConn s k m x).chart = s.chart := rfl
@[simp] theorem setConn_sites (k m : Nat) (x : Conn) : (setConn s k m x).sites = s.sites := rfl
@[simp] theorem setConn_cores (k m : Nat) (x : Conn) : (setConn s k m x).cores = s.cores := rfl
@[simp] theorem setConn_mem (k m : Nat) (x : Conn) : (setConn s k m x).mem = s.mem := rfl
@[simp] theorem setConn_poison (k m : Nat) (x : Conn) : (setConn s k m x).poison = s.poison := rfl
@[simp] theorem setConn_undef (k m : Nat) (x : Conn) : (setConn s k m x).undef = s.undef := rfl
@[simp] theorem setConn_recent (k m : Nat) (x : Conn) : (setConn s k m x).recent = s.recent := rfl
@[simp] theorem setConn_lla (k m : Nat) (x : Conn) : (setConn s k m x).lla = s.lla := rfl
@[simp] theorem setConn_txns (k m : Nat) (x : Conn) : (setConn s k m x).txns = s.txns := rfl
@[simp] theorem setConn_nextTxn (k m : Nat) (x : Conn) : (setConn s k m x).nextTxn = s.nextTxn := rfl
@[simp] theorem setConn_mcs (k m : Nat) (x : Conn) : (setConn s k m x).mcs = s.mcs := rfl
@[simp] theorem setConn_chOut (k m : Nat) (x : Conn) : (setConn s k m x).chOut = s.chOut := rfl
@[simp] theorem setConn_hstacks (k m : Nat) (x : Conn) : (setConn s k m x).hstacks = s.hstacks := rfl
@[simp] theorem setConn_gtu (k m : Nat) (x : Conn) : (setConn s k m x).gtu = s.gtu := rfl
@[simp] theorem setConn_fabOps (k m : Nat) (x : Conn) : (setConn s k m x).fabOps = s.fabOps := rfl
@[simp] theorem setConn_noc (k m : Nat) (x : Conn) : (setConn s k m x).noc = s.noc := rfl
@[simp] theorem setConn_fcu (k m : Nat) (x : Conn) : (setConn s k m x).fcu = s.fcu := rfl
@[simp] theorem setConn_slices (k m : Nat) (x : Conn) : (setConn s k m x).slices = s.slices := rfl
@[simp] theorem setConn_queues (k m : Nat) (x : Conn) : (setConn s k m x).queues = s.queues := rfl
@[simp] theorem setConn_ces (k m : Nat) (x : Conn) : (setConn s k m x).ces = s.ces := rfl
@[simp] theorem setConn_runs (k m : Nat) (x : Conn) : (setConn s k m x).runs = s.runs := rfl
@[simp] theorem setConn_cals (k m : Nat) (x : Conn) : (setConn s k m x).cals = s.cals := rfl
@[simp] theorem setConn_cols (k m : Nat) (x : Conn) : (setConn s k m x).cols = s.cols := rfl
@[simp] theorem setConn_rops (k m : Nat) (x : Conn) : (setConn s k m x).rops = s.rops := rfl
@[simp] theorem setConn_pcie (k m : Nat) (x : Conn) : (setConn s k m x).pcie = s.pcie := rfl
@[simp] theorem setConn_wmk (k m : Nat) (x : Conn) : (setConn s k m x).wmk = s.wmk := rfl
@[simp] theorem setConn_mgmt (k m : Nat) (x : Conn) : (setConn s k m x).mgmt = s.mgmt := rfl
@[simp] theorem setConn_glb (k m : Nat) (x : Conn) : (setConn s k m x).glb = s.glb := rfl
@[simp] theorem setConn_tel (k m : Nat) (x : Conn) : (setConn s k m x).tel = s.tel := rfl
@[simp] theorem setConn_out (k m : Nat) (x : Conn) : (setConn s k m x).out = s.out := rfl
@[simp] theorem setConn_draws (k m : Nat) (x : Conn) : (setConn s k m x).draws = s.draws := rfl

@[simp] theorem setJob_pending (k : Nat) (x : Job) : (setJob s k x).pending = s.pending := rfl
@[simp] theorem setJob_time (k : Nat) (x : Job) : (setJob s k x).time = s.time := rfl
@[simp] theorem setJob_pins (k : Nat) (x : Job) : (setJob s k x).pins = s.pins := rfl
@[simp] theorem setJob_fuses (k : Nat) (x : Job) : (setJob s k x).fuses = s.fuses := rfl
@[simp] theorem setJob_clk (k : Nat) (x : Job) : (setJob s k x).clk = s.clk := rfl
@[simp] theorem setJob_chart (k : Nat) (x : Job) : (setJob s k x).chart = s.chart := rfl
@[simp] theorem setJob_sites (k : Nat) (x : Job) : (setJob s k x).sites = s.sites := rfl
@[simp] theorem setJob_cores (k : Nat) (x : Job) : (setJob s k x).cores = s.cores := rfl
@[simp] theorem setJob_mem (k : Nat) (x : Job) : (setJob s k x).mem = s.mem := rfl
@[simp] theorem setJob_poison (k : Nat) (x : Job) : (setJob s k x).poison = s.poison := rfl
@[simp] theorem setJob_undef (k : Nat) (x : Job) : (setJob s k x).undef = s.undef := rfl
@[simp] theorem setJob_recent (k : Nat) (x : Job) : (setJob s k x).recent = s.recent := rfl
@[simp] theorem setJob_lla (k : Nat) (x : Job) : (setJob s k x).lla = s.lla := rfl
@[simp] theorem setJob_txns (k : Nat) (x : Job) : (setJob s k x).txns = s.txns := rfl
@[simp] theorem setJob_nextTxn (k : Nat) (x : Job) : (setJob s k x).nextTxn = s.nextTxn := rfl
@[simp] theorem setJob_mcs (k : Nat) (x : Job) : (setJob s k x).mcs = s.mcs := rfl
@[simp] theorem setJob_chOut (k : Nat) (x : Job) : (setJob s k x).chOut = s.chOut := rfl
@[simp] theorem setJob_hstacks (k : Nat) (x : Job) : (setJob s k x).hstacks = s.hstacks := rfl
@[simp] theorem setJob_gtu (k : Nat) (x : Job) : (setJob s k x).gtu = s.gtu := rfl
@[simp] theorem setJob_fabOps (k : Nat) (x : Job) : (setJob s k x).fabOps = s.fabOps := rfl
@[simp] theorem setJob_noc (k : Nat) (x : Job) : (setJob s k x).noc = s.noc := rfl
@[simp] theorem setJob_fcu (k : Nat) (x : Job) : (setJob s k x).fcu = s.fcu := rfl
@[simp] theorem setJob_slices (k : Nat) (x : Job) : (setJob s k x).slices = s.slices := rfl
@[simp] theorem setJob_queues (k : Nat) (x : Job) : (setJob s k x).queues = s.queues := rfl
@[simp] theorem setJob_ces (k : Nat) (x : Job) : (setJob s k x).ces = s.ces := rfl
@[simp] theorem setJob_runs (k : Nat) (x : Job) : (setJob s k x).runs = s.runs := rfl
@[simp] theorem setJob_cals (k : Nat) (x : Job) : (setJob s k x).cals = s.cals := rfl
@[simp] theorem setJob_cols (k : Nat) (x : Job) : (setJob s k x).cols = s.cols := rfl
@[simp] theorem setJob_rops (k : Nat) (x : Job) : (setJob s k x).rops = s.rops := rfl
@[simp] theorem setJob_pcie (k : Nat) (x : Job) : (setJob s k x).pcie = s.pcie := rfl
@[simp] theorem setJob_wmk (k : Nat) (x : Job) : (setJob s k x).wmk = s.wmk := rfl
@[simp] theorem setJob_mgmt (k : Nat) (x : Job) : (setJob s k x).mgmt = s.mgmt := rfl
@[simp] theorem setJob_glb (k : Nat) (x : Job) : (setJob s k x).glb = s.glb := rfl
@[simp] theorem setJob_tel (k : Nat) (x : Job) : (setJob s k x).tel = s.tel := rfl
@[simp] theorem setJob_out (k : Nat) (x : Job) : (setJob s k x).out = s.out := rfl
@[simp] theorem setJob_draws (k : Nat) (x : Job) : (setJob s k x).draws = s.draws := rfl

@[simp] theorem setPort_pending (p : Nat) (x : Port) : (setPort s p x).pending = s.pending := rfl
@[simp] theorem setPort_time (p : Nat) (x : Port) : (setPort s p x).time = s.time := rfl
@[simp] theorem setPort_pins (p : Nat) (x : Port) : (setPort s p x).pins = s.pins := rfl
@[simp] theorem setPort_fuses (p : Nat) (x : Port) : (setPort s p x).fuses = s.fuses := rfl
@[simp] theorem setPort_clk (p : Nat) (x : Port) : (setPort s p x).clk = s.clk := rfl
@[simp] theorem setPort_chart (p : Nat) (x : Port) : (setPort s p x).chart = s.chart := rfl
@[simp] theorem setPort_sites (p : Nat) (x : Port) : (setPort s p x).sites = s.sites := rfl
@[simp] theorem setPort_cores (p : Nat) (x : Port) : (setPort s p x).cores = s.cores := rfl
@[simp] theorem setPort_mem (p : Nat) (x : Port) : (setPort s p x).mem = s.mem := rfl
@[simp] theorem setPort_poison (p : Nat) (x : Port) : (setPort s p x).poison = s.poison := rfl
@[simp] theorem setPort_undef (p : Nat) (x : Port) : (setPort s p x).undef = s.undef := rfl
@[simp] theorem setPort_recent (p : Nat) (x : Port) : (setPort s p x).recent = s.recent := rfl
@[simp] theorem setPort_lla (p : Nat) (x : Port) : (setPort s p x).lla = s.lla := rfl
@[simp] theorem setPort_txns (p : Nat) (x : Port) : (setPort s p x).txns = s.txns := rfl
@[simp] theorem setPort_nextTxn (p : Nat) (x : Port) : (setPort s p x).nextTxn = s.nextTxn := rfl
@[simp] theorem setPort_mcs (p : Nat) (x : Port) : (setPort s p x).mcs = s.mcs := rfl
@[simp] theorem setPort_chOut (p : Nat) (x : Port) : (setPort s p x).chOut = s.chOut := rfl
@[simp] theorem setPort_hstacks (p : Nat) (x : Port) : (setPort s p x).hstacks = s.hstacks := rfl
@[simp] theorem setPort_gtu (p : Nat) (x : Port) : (setPort s p x).gtu = s.gtu := rfl
@[simp] theorem setPort_fabOps (p : Nat) (x : Port) : (setPort s p x).fabOps = s.fabOps := rfl
@[simp] theorem setPort_noc (p : Nat) (x : Port) : (setPort s p x).noc = s.noc := rfl
@[simp] theorem setPort_fcu (p : Nat) (x : Port) : (setPort s p x).fcu = s.fcu := rfl
@[simp] theorem setPort_slices (p : Nat) (x : Port) : (setPort s p x).slices = s.slices := rfl
@[simp] theorem setPort_queues (p : Nat) (x : Port) : (setPort s p x).queues = s.queues := rfl
@[simp] theorem setPort_ces (p : Nat) (x : Port) : (setPort s p x).ces = s.ces := rfl
@[simp] theorem setPort_runs (p : Nat) (x : Port) : (setPort s p x).runs = s.runs := rfl
@[simp] theorem setPort_cals (p : Nat) (x : Port) : (setPort s p x).cals = s.cals := rfl
@[simp] theorem setPort_cols (p : Nat) (x : Port) : (setPort s p x).cols = s.cols := rfl
@[simp] theorem setPort_rops (p : Nat) (x : Port) : (setPort s p x).rops = s.rops := rfl
@[simp] theorem setPort_pcie (p : Nat) (x : Port) : (setPort s p x).pcie = s.pcie := rfl
@[simp] theorem setPort_wmk (p : Nat) (x : Port) : (setPort s p x).wmk = s.wmk := rfl
@[simp] theorem setPort_mgmt (p : Nat) (x : Port) : (setPort s p x).mgmt = s.mgmt := rfl
@[simp] theorem setPort_glb (p : Nat) (x : Port) : (setPort s p x).glb = s.glb := rfl
@[simp] theorem setPort_tel (p : Nat) (x : Port) : (setPort s p x).tel = s.tel := rfl
@[simp] theorem setPort_out (p : Nat) (x : Port) : (setPort s p x).out = s.out := rfl
@[simp] theorem setPort_draws (p : Nat) (x : Port) : (setPort s p x).draws = s.draws := rfl

@[simp] theorem setRegulator_pending (n : Nat) (x : Regulator) : (setRegulator s n x).pending = s.pending := rfl
@[simp] theorem setRegulator_time (n : Nat) (x : Regulator) : (setRegulator s n x).time = s.time := rfl
@[simp] theorem setRegulator_pins (n : Nat) (x : Regulator) : (setRegulator s n x).pins = s.pins := rfl
@[simp] theorem setRegulator_fuses (n : Nat) (x : Regulator) : (setRegulator s n x).fuses = s.fuses := rfl
@[simp] theorem setRegulator_clk (n : Nat) (x : Regulator) : (setRegulator s n x).clk = s.clk := rfl
@[simp] theorem setRegulator_chart (n : Nat) (x : Regulator) : (setRegulator s n x).chart = s.chart := rfl
@[simp] theorem setRegulator_sites (n : Nat) (x : Regulator) : (setRegulator s n x).sites = s.sites := rfl
@[simp] theorem setRegulator_cores (n : Nat) (x : Regulator) : (setRegulator s n x).cores = s.cores := rfl
@[simp] theorem setRegulator_mem (n : Nat) (x : Regulator) : (setRegulator s n x).mem = s.mem := rfl
@[simp] theorem setRegulator_poison (n : Nat) (x : Regulator) : (setRegulator s n x).poison = s.poison := rfl
@[simp] theorem setRegulator_undef (n : Nat) (x : Regulator) : (setRegulator s n x).undef = s.undef := rfl
@[simp] theorem setRegulator_recent (n : Nat) (x : Regulator) : (setRegulator s n x).recent = s.recent := rfl
@[simp] theorem setRegulator_lla (n : Nat) (x : Regulator) : (setRegulator s n x).lla = s.lla := rfl
@[simp] theorem setRegulator_txns (n : Nat) (x : Regulator) : (setRegulator s n x).txns = s.txns := rfl
@[simp] theorem setRegulator_nextTxn (n : Nat) (x : Regulator) : (setRegulator s n x).nextTxn = s.nextTxn := rfl
@[simp] theorem setRegulator_mcs (n : Nat) (x : Regulator) : (setRegulator s n x).mcs = s.mcs := rfl
@[simp] theorem setRegulator_chOut (n : Nat) (x : Regulator) : (setRegulator s n x).chOut = s.chOut := rfl
@[simp] theorem setRegulator_hstacks (n : Nat) (x : Regulator) : (setRegulator s n x).hstacks = s.hstacks := rfl
@[simp] theorem setRegulator_gtu (n : Nat) (x : Regulator) : (setRegulator s n x).gtu = s.gtu := rfl
@[simp] theorem setRegulator_fabOps (n : Nat) (x : Regulator) : (setRegulator s n x).fabOps = s.fabOps := rfl
@[simp] theorem setRegulator_fcu (n : Nat) (x : Regulator) : (setRegulator s n x).fcu = s.fcu := rfl
@[simp] theorem setRegulator_slices (n : Nat) (x : Regulator) : (setRegulator s n x).slices = s.slices := rfl
@[simp] theorem setRegulator_queues (n : Nat) (x : Regulator) : (setRegulator s n x).queues = s.queues := rfl
@[simp] theorem setRegulator_ces (n : Nat) (x : Regulator) : (setRegulator s n x).ces = s.ces := rfl
@[simp] theorem setRegulator_runs (n : Nat) (x : Regulator) : (setRegulator s n x).runs = s.runs := rfl
@[simp] theorem setRegulator_cals (n : Nat) (x : Regulator) : (setRegulator s n x).cals = s.cals := rfl
@[simp] theorem setRegulator_cols (n : Nat) (x : Regulator) : (setRegulator s n x).cols = s.cols := rfl
@[simp] theorem setRegulator_rops (n : Nat) (x : Regulator) : (setRegulator s n x).rops = s.rops := rfl
@[simp] theorem setRegulator_nx (n : Nat) (x : Regulator) : (setRegulator s n x).nx = s.nx := rfl
@[simp] theorem setRegulator_pcie (n : Nat) (x : Regulator) : (setRegulator s n x).pcie = s.pcie := rfl
@[simp] theorem setRegulator_wmk (n : Nat) (x : Regulator) : (setRegulator s n x).wmk = s.wmk := rfl
@[simp] theorem setRegulator_mgmt (n : Nat) (x : Regulator) : (setRegulator s n x).mgmt = s.mgmt := rfl
@[simp] theorem setRegulator_glb (n : Nat) (x : Regulator) : (setRegulator s n x).glb = s.glb := rfl
@[simp] theorem setRegulator_tel (n : Nat) (x : Regulator) : (setRegulator s n x).tel = s.tel := rfl
@[simp] theorem setRegulator_out (n : Nat) (x : Regulator) : (setRegulator s n x).out = s.out := rfl
@[simp] theorem setRegulator_draws (n : Nat) (x : Regulator) : (setRegulator s n x).draws = s.draws := rfl

@[simp] theorem setFelt_pending (h : Nat) (x : Felt) : (setFelt s h x).pending = s.pending := rfl
@[simp] theorem setFelt_time (h : Nat) (x : Felt) : (setFelt s h x).time = s.time := rfl
@[simp] theorem setFelt_pins (h : Nat) (x : Felt) : (setFelt s h x).pins = s.pins := rfl
@[simp] theorem setFelt_fuses (h : Nat) (x : Felt) : (setFelt s h x).fuses = s.fuses := rfl
@[simp] theorem setFelt_clk (h : Nat) (x : Felt) : (setFelt s h x).clk = s.clk := rfl
@[simp] theorem setFelt_chart (h : Nat) (x : Felt) : (setFelt s h x).chart = s.chart := rfl
@[simp] theorem setFelt_sites (h : Nat) (x : Felt) : (setFelt s h x).sites = s.sites := rfl
@[simp] theorem setFelt_cores (h : Nat) (x : Felt) : (setFelt s h x).cores = s.cores := rfl
@[simp] theorem setFelt_mem (h : Nat) (x : Felt) : (setFelt s h x).mem = s.mem := rfl
@[simp] theorem setFelt_poison (h : Nat) (x : Felt) : (setFelt s h x).poison = s.poison := rfl
@[simp] theorem setFelt_undef (h : Nat) (x : Felt) : (setFelt s h x).undef = s.undef := rfl
@[simp] theorem setFelt_recent (h : Nat) (x : Felt) : (setFelt s h x).recent = s.recent := rfl
@[simp] theorem setFelt_lla (h : Nat) (x : Felt) : (setFelt s h x).lla = s.lla := rfl
@[simp] theorem setFelt_txns (h : Nat) (x : Felt) : (setFelt s h x).txns = s.txns := rfl
@[simp] theorem setFelt_nextTxn (h : Nat) (x : Felt) : (setFelt s h x).nextTxn = s.nextTxn := rfl
@[simp] theorem setFelt_mcs (h : Nat) (x : Felt) : (setFelt s h x).mcs = s.mcs := rfl
@[simp] theorem setFelt_chOut (h : Nat) (x : Felt) : (setFelt s h x).chOut = s.chOut := rfl
@[simp] theorem setFelt_hstacks (h : Nat) (x : Felt) : (setFelt s h x).hstacks = s.hstacks := rfl
@[simp] theorem setFelt_gtu (h : Nat) (x : Felt) : (setFelt s h x).gtu = s.gtu := rfl
@[simp] theorem setFelt_fabOps (h : Nat) (x : Felt) : (setFelt s h x).fabOps = s.fabOps := rfl
@[simp] theorem setFelt_noc (h : Nat) (x : Felt) : (setFelt s h x).noc = s.noc := rfl
@[simp] theorem setFelt_fcu (h : Nat) (x : Felt) : (setFelt s h x).fcu = s.fcu := rfl
@[simp] theorem setFelt_slices (h : Nat) (x : Felt) : (setFelt s h x).slices = s.slices := rfl
@[simp] theorem setFelt_queues (h : Nat) (x : Felt) : (setFelt s h x).queues = s.queues := rfl
@[simp] theorem setFelt_ces (h : Nat) (x : Felt) : (setFelt s h x).ces = s.ces := rfl
@[simp] theorem setFelt_runs (h : Nat) (x : Felt) : (setFelt s h x).runs = s.runs := rfl
@[simp] theorem setFelt_cals (h : Nat) (x : Felt) : (setFelt s h x).cals = s.cals := rfl
@[simp] theorem setFelt_cols (h : Nat) (x : Felt) : (setFelt s h x).cols = s.cols := rfl
@[simp] theorem setFelt_rops (h : Nat) (x : Felt) : (setFelt s h x).rops = s.rops := rfl
@[simp] theorem setFelt_nx (h : Nat) (x : Felt) : (setFelt s h x).nx = s.nx := rfl
@[simp] theorem setFelt_pcie (h : Nat) (x : Felt) : (setFelt s h x).pcie = s.pcie := rfl
@[simp] theorem setFelt_wmk (h : Nat) (x : Felt) : (setFelt s h x).wmk = s.wmk := rfl
@[simp] theorem setFelt_mgmt (h : Nat) (x : Felt) : (setFelt s h x).mgmt = s.mgmt := rfl
@[simp] theorem setFelt_tel (h : Nat) (x : Felt) : (setFelt s h x).tel = s.tel := rfl
@[simp] theorem setFelt_out (h : Nat) (x : Felt) : (setFelt s h x).out = s.out := rfl
@[simp] theorem setFelt_draws (h : Nat) (x : Felt) : (setFelt s h x).draws = s.draws := rfl

@[simp] theorem setPd_pending (d st : Nat) : (setPd s d st).pending = s.pending := rfl
@[simp] theorem setPd_time (d st : Nat) : (setPd s d st).time = s.time := rfl
@[simp] theorem setPd_pins (d st : Nat) : (setPd s d st).pins = s.pins := rfl
@[simp] theorem setPd_fuses (d st : Nat) : (setPd s d st).fuses = s.fuses := rfl
@[simp] theorem setPd_chart (d st : Nat) : (setPd s d st).chart = s.chart := rfl
@[simp] theorem setPd_sites (d st : Nat) : (setPd s d st).sites = s.sites := rfl
@[simp] theorem setPd_cores (d st : Nat) : (setPd s d st).cores = s.cores := rfl
@[simp] theorem setPd_mem (d st : Nat) : (setPd s d st).mem = s.mem := rfl
@[simp] theorem setPd_poison (d st : Nat) : (setPd s d st).poison = s.poison := rfl
@[simp] theorem setPd_undef (d st : Nat) : (setPd s d st).undef = s.undef := rfl
@[simp] theorem setPd_recent (d st : Nat) : (setPd s d st).recent = s.recent := rfl
@[simp] theorem setPd_lla (d st : Nat) : (setPd s d st).lla = s.lla := rfl
@[simp] theorem setPd_txns (d st : Nat) : (setPd s d st).txns = s.txns := rfl
@[simp] theorem setPd_nextTxn (d st : Nat) : (setPd s d st).nextTxn = s.nextTxn := rfl
@[simp] theorem setPd_mcs (d st : Nat) : (setPd s d st).mcs = s.mcs := rfl
@[simp] theorem setPd_chOut (d st : Nat) : (setPd s d st).chOut = s.chOut := rfl
@[simp] theorem setPd_hstacks (d st : Nat) : (setPd s d st).hstacks = s.hstacks := rfl
@[simp] theorem setPd_gtu (d st : Nat) : (setPd s d st).gtu = s.gtu := rfl
@[simp] theorem setPd_fabOps (d st : Nat) : (setPd s d st).fabOps = s.fabOps := rfl
@[simp] theorem setPd_noc (d st : Nat) : (setPd s d st).noc = s.noc := rfl
@[simp] theorem setPd_fcu (d st : Nat) : (setPd s d st).fcu = s.fcu := rfl
@[simp] theorem setPd_slices (d st : Nat) : (setPd s d st).slices = s.slices := rfl
@[simp] theorem setPd_queues (d st : Nat) : (setPd s d st).queues = s.queues := rfl
@[simp] theorem setPd_ces (d st : Nat) : (setPd s d st).ces = s.ces := rfl
@[simp] theorem setPd_runs (d st : Nat) : (setPd s d st).runs = s.runs := rfl
@[simp] theorem setPd_cals (d st : Nat) : (setPd s d st).cals = s.cals := rfl
@[simp] theorem setPd_cols (d st : Nat) : (setPd s d st).cols = s.cols := rfl
@[simp] theorem setPd_rops (d st : Nat) : (setPd s d st).rops = s.rops := rfl
@[simp] theorem setPd_nx (d st : Nat) : (setPd s d st).nx = s.nx := rfl
@[simp] theorem setPd_pcie (d st : Nat) : (setPd s d st).pcie = s.pcie := rfl
@[simp] theorem setPd_wmk (d st : Nat) : (setPd s d st).wmk = s.wmk := rfl
@[simp] theorem setPd_mgmt (d st : Nat) : (setPd s d st).mgmt = s.mgmt := rfl
@[simp] theorem setPd_glb (d st : Nat) : (setPd s d st).glb = s.glb := rfl
@[simp] theorem setPd_out (d st : Nat) : (setPd s d st).out = s.out := rfl
@[simp] theorem setPd_draws (d st : Nat) : (setPd s d st).draws = s.draws := rfl

@[simp] theorem setCal_pending (k : Nat) (x : CalEngine) : (setCal s k x).pending = s.pending := rfl
@[simp] theorem setCal_time (k : Nat) (x : CalEngine) : (setCal s k x).time = s.time := rfl
@[simp] theorem setCal_pins (k : Nat) (x : CalEngine) : (setCal s k x).pins = s.pins := rfl
@[simp] theorem setCal_fuses (k : Nat) (x : CalEngine) : (setCal s k x).fuses = s.fuses := rfl
@[simp] theorem setCal_clk (k : Nat) (x : CalEngine) : (setCal s k x).clk = s.clk := rfl
@[simp] theorem setCal_chart (k : Nat) (x : CalEngine) : (setCal s k x).chart = s.chart := rfl
@[simp] theorem setCal_sites (k : Nat) (x : CalEngine) : (setCal s k x).sites = s.sites := rfl
@[simp] theorem setCal_cores (k : Nat) (x : CalEngine) : (setCal s k x).cores = s.cores := rfl
@[simp] theorem setCal_mem (k : Nat) (x : CalEngine) : (setCal s k x).mem = s.mem := rfl
@[simp] theorem setCal_poison (k : Nat) (x : CalEngine) : (setCal s k x).poison = s.poison := rfl
@[simp] theorem setCal_undef (k : Nat) (x : CalEngine) : (setCal s k x).undef = s.undef := rfl
@[simp] theorem setCal_recent (k : Nat) (x : CalEngine) : (setCal s k x).recent = s.recent := rfl
@[simp] theorem setCal_lla (k : Nat) (x : CalEngine) : (setCal s k x).lla = s.lla := rfl
@[simp] theorem setCal_txns (k : Nat) (x : CalEngine) : (setCal s k x).txns = s.txns := rfl
@[simp] theorem setCal_nextTxn (k : Nat) (x : CalEngine) : (setCal s k x).nextTxn = s.nextTxn := rfl
@[simp] theorem setCal_mcs (k : Nat) (x : CalEngine) : (setCal s k x).mcs = s.mcs := rfl
@[simp] theorem setCal_chOut (k : Nat) (x : CalEngine) : (setCal s k x).chOut = s.chOut := rfl
@[simp] theorem setCal_hstacks (k : Nat) (x : CalEngine) : (setCal s k x).hstacks = s.hstacks := rfl
@[simp] theorem setCal_gtu (k : Nat) (x : CalEngine) : (setCal s k x).gtu = s.gtu := rfl
@[simp] theorem setCal_fabOps (k : Nat) (x : CalEngine) : (setCal s k x).fabOps = s.fabOps := rfl
@[simp] theorem setCal_noc (k : Nat) (x : CalEngine) : (setCal s k x).noc = s.noc := rfl
@[simp] theorem setCal_fcu (k : Nat) (x : CalEngine) : (setCal s k x).fcu = s.fcu := rfl
@[simp] theorem setCal_slices (k : Nat) (x : CalEngine) : (setCal s k x).slices = s.slices := rfl
@[simp] theorem setCal_queues (k : Nat) (x : CalEngine) : (setCal s k x).queues = s.queues := rfl
@[simp] theorem setCal_ces (k : Nat) (x : CalEngine) : (setCal s k x).ces = s.ces := rfl
@[simp] theorem setCal_runs (k : Nat) (x : CalEngine) : (setCal s k x).runs = s.runs := rfl
@[simp] theorem setCal_cols (k : Nat) (x : CalEngine) : (setCal s k x).cols = s.cols := rfl
@[simp] theorem setCal_rops (k : Nat) (x : CalEngine) : (setCal s k x).rops = s.rops := rfl
@[simp] theorem setCal_nx (k : Nat) (x : CalEngine) : (setCal s k x).nx = s.nx := rfl
@[simp] theorem setCal_pcie (k : Nat) (x : CalEngine) : (setCal s k x).pcie = s.pcie := rfl
@[simp] theorem setCal_wmk (k : Nat) (x : CalEngine) : (setCal s k x).wmk = s.wmk := rfl
@[simp] theorem setCal_mgmt (k : Nat) (x : CalEngine) : (setCal s k x).mgmt = s.mgmt := rfl
@[simp] theorem setCal_glb (k : Nat) (x : CalEngine) : (setCal s k x).glb = s.glb := rfl
@[simp] theorem setCal_tel (k : Nat) (x : CalEngine) : (setCal s k x).tel = s.tel := rfl
@[simp] theorem setCal_out (k : Nat) (x : CalEngine) : (setCal s k x).out = s.out := rfl
@[simp] theorem setCal_draws (k : Nat) (x : CalEngine) : (setCal s k x).draws = s.draws := rfl

@[simp] theorem setCol_pending (c : Nat) (x : ColEngine) : (setCol s c x).pending = s.pending := rfl
@[simp] theorem setCol_time (c : Nat) (x : ColEngine) : (setCol s c x).time = s.time := rfl
@[simp] theorem setCol_pins (c : Nat) (x : ColEngine) : (setCol s c x).pins = s.pins := rfl
@[simp] theorem setCol_fuses (c : Nat) (x : ColEngine) : (setCol s c x).fuses = s.fuses := rfl
@[simp] theorem setCol_clk (c : Nat) (x : ColEngine) : (setCol s c x).clk = s.clk := rfl
@[simp] theorem setCol_chart (c : Nat) (x : ColEngine) : (setCol s c x).chart = s.chart := rfl
@[simp] theorem setCol_sites (c : Nat) (x : ColEngine) : (setCol s c x).sites = s.sites := rfl
@[simp] theorem setCol_cores (c : Nat) (x : ColEngine) : (setCol s c x).cores = s.cores := rfl
@[simp] theorem setCol_mem (c : Nat) (x : ColEngine) : (setCol s c x).mem = s.mem := rfl
@[simp] theorem setCol_poison (c : Nat) (x : ColEngine) : (setCol s c x).poison = s.poison := rfl
@[simp] theorem setCol_undef (c : Nat) (x : ColEngine) : (setCol s c x).undef = s.undef := rfl
@[simp] theorem setCol_recent (c : Nat) (x : ColEngine) : (setCol s c x).recent = s.recent := rfl
@[simp] theorem setCol_lla (c : Nat) (x : ColEngine) : (setCol s c x).lla = s.lla := rfl
@[simp] theorem setCol_txns (c : Nat) (x : ColEngine) : (setCol s c x).txns = s.txns := rfl
@[simp] theorem setCol_nextTxn (c : Nat) (x : ColEngine) : (setCol s c x).nextTxn = s.nextTxn := rfl
@[simp] theorem setCol_mcs (c : Nat) (x : ColEngine) : (setCol s c x).mcs = s.mcs := rfl
@[simp] theorem setCol_chOut (c : Nat) (x : ColEngine) : (setCol s c x).chOut = s.chOut := rfl
@[simp] theorem setCol_hstacks (c : Nat) (x : ColEngine) : (setCol s c x).hstacks = s.hstacks := rfl
@[simp] theorem setCol_gtu (c : Nat) (x : ColEngine) : (setCol s c x).gtu = s.gtu := rfl
@[simp] theorem setCol_fabOps (c : Nat) (x : ColEngine) : (setCol s c x).fabOps = s.fabOps := rfl
@[simp] theorem setCol_noc (c : Nat) (x : ColEngine) : (setCol s c x).noc = s.noc := rfl
@[simp] theorem setCol_fcu (c : Nat) (x : ColEngine) : (setCol s c x).fcu = s.fcu := rfl
@[simp] theorem setCol_slices (c : Nat) (x : ColEngine) : (setCol s c x).slices = s.slices := rfl
@[simp] theorem setCol_queues (c : Nat) (x : ColEngine) : (setCol s c x).queues = s.queues := rfl
@[simp] theorem setCol_ces (c : Nat) (x : ColEngine) : (setCol s c x).ces = s.ces := rfl
@[simp] theorem setCol_runs (c : Nat) (x : ColEngine) : (setCol s c x).runs = s.runs := rfl
@[simp] theorem setCol_cals (c : Nat) (x : ColEngine) : (setCol s c x).cals = s.cals := rfl
@[simp] theorem setCol_rops (c : Nat) (x : ColEngine) : (setCol s c x).rops = s.rops := rfl
@[simp] theorem setCol_nx (c : Nat) (x : ColEngine) : (setCol s c x).nx = s.nx := rfl
@[simp] theorem setCol_pcie (c : Nat) (x : ColEngine) : (setCol s c x).pcie = s.pcie := rfl
@[simp] theorem setCol_wmk (c : Nat) (x : ColEngine) : (setCol s c x).wmk = s.wmk := rfl
@[simp] theorem setCol_mgmt (c : Nat) (x : ColEngine) : (setCol s c x).mgmt = s.mgmt := rfl
@[simp] theorem setCol_glb (c : Nat) (x : ColEngine) : (setCol s c x).glb = s.glb := rfl
@[simp] theorem setCol_tel (c : Nat) (x : ColEngine) : (setCol s c x).tel = s.tel := rfl
@[simp] theorem setCol_out (c : Nat) (x : ColEngine) : (setCol s c x).out = s.out := rfl
@[simp] theorem setCol_draws (c : Nat) (x : ColEngine) : (setCol s c x).draws = s.draws := rfl

@[simp] theorem setCe_pending (e : Nat) (x : CopyEngine) : (setCe s e x).pending = s.pending := rfl
@[simp] theorem setCe_time (e : Nat) (x : CopyEngine) : (setCe s e x).time = s.time := rfl
@[simp] theorem setCe_pins (e : Nat) (x : CopyEngine) : (setCe s e x).pins = s.pins := rfl
@[simp] theorem setCe_fuses (e : Nat) (x : CopyEngine) : (setCe s e x).fuses = s.fuses := rfl
@[simp] theorem setCe_clk (e : Nat) (x : CopyEngine) : (setCe s e x).clk = s.clk := rfl
@[simp] theorem setCe_chart (e : Nat) (x : CopyEngine) : (setCe s e x).chart = s.chart := rfl
@[simp] theorem setCe_sites (e : Nat) (x : CopyEngine) : (setCe s e x).sites = s.sites := rfl
@[simp] theorem setCe_cores (e : Nat) (x : CopyEngine) : (setCe s e x).cores = s.cores := rfl
@[simp] theorem setCe_mem (e : Nat) (x : CopyEngine) : (setCe s e x).mem = s.mem := rfl
@[simp] theorem setCe_poison (e : Nat) (x : CopyEngine) : (setCe s e x).poison = s.poison := rfl
@[simp] theorem setCe_undef (e : Nat) (x : CopyEngine) : (setCe s e x).undef = s.undef := rfl
@[simp] theorem setCe_recent (e : Nat) (x : CopyEngine) : (setCe s e x).recent = s.recent := rfl
@[simp] theorem setCe_lla (e : Nat) (x : CopyEngine) : (setCe s e x).lla = s.lla := rfl
@[simp] theorem setCe_txns (e : Nat) (x : CopyEngine) : (setCe s e x).txns = s.txns := rfl
@[simp] theorem setCe_nextTxn (e : Nat) (x : CopyEngine) : (setCe s e x).nextTxn = s.nextTxn := rfl
@[simp] theorem setCe_mcs (e : Nat) (x : CopyEngine) : (setCe s e x).mcs = s.mcs := rfl
@[simp] theorem setCe_chOut (e : Nat) (x : CopyEngine) : (setCe s e x).chOut = s.chOut := rfl
@[simp] theorem setCe_hstacks (e : Nat) (x : CopyEngine) : (setCe s e x).hstacks = s.hstacks := rfl
@[simp] theorem setCe_gtu (e : Nat) (x : CopyEngine) : (setCe s e x).gtu = s.gtu := rfl
@[simp] theorem setCe_fabOps (e : Nat) (x : CopyEngine) : (setCe s e x).fabOps = s.fabOps := rfl
@[simp] theorem setCe_noc (e : Nat) (x : CopyEngine) : (setCe s e x).noc = s.noc := rfl
@[simp] theorem setCe_fcu (e : Nat) (x : CopyEngine) : (setCe s e x).fcu = s.fcu := rfl
@[simp] theorem setCe_slices (e : Nat) (x : CopyEngine) : (setCe s e x).slices = s.slices := rfl
@[simp] theorem setCe_queues (e : Nat) (x : CopyEngine) : (setCe s e x).queues = s.queues := rfl
@[simp] theorem setCe_runs (e : Nat) (x : CopyEngine) : (setCe s e x).runs = s.runs := rfl
@[simp] theorem setCe_cals (e : Nat) (x : CopyEngine) : (setCe s e x).cals = s.cals := rfl
@[simp] theorem setCe_cols (e : Nat) (x : CopyEngine) : (setCe s e x).cols = s.cols := rfl
@[simp] theorem setCe_rops (e : Nat) (x : CopyEngine) : (setCe s e x).rops = s.rops := rfl
@[simp] theorem setCe_nx (e : Nat) (x : CopyEngine) : (setCe s e x).nx = s.nx := rfl
@[simp] theorem setCe_pcie (e : Nat) (x : CopyEngine) : (setCe s e x).pcie = s.pcie := rfl
@[simp] theorem setCe_wmk (e : Nat) (x : CopyEngine) : (setCe s e x).wmk = s.wmk := rfl
@[simp] theorem setCe_mgmt (e : Nat) (x : CopyEngine) : (setCe s e x).mgmt = s.mgmt := rfl
@[simp] theorem setCe_glb (e : Nat) (x : CopyEngine) : (setCe s e x).glb = s.glb := rfl
@[simp] theorem setCe_tel (e : Nat) (x : CopyEngine) : (setCe s e x).tel = s.tel := rfl
@[simp] theorem setCe_out (e : Nat) (x : CopyEngine) : (setCe s e x).out = s.out := rfl
@[simp] theorem setCe_draws (e : Nat) (x : CopyEngine) : (setCe s e x).draws = s.draws := rfl

@[simp] theorem setMc_pending (i : Nat) (x : Mc) : (setMc s i x).pending = s.pending := rfl
@[simp] theorem setMc_time (i : Nat) (x : Mc) : (setMc s i x).time = s.time := rfl
@[simp] theorem setMc_pins (i : Nat) (x : Mc) : (setMc s i x).pins = s.pins := rfl
@[simp] theorem setMc_fuses (i : Nat) (x : Mc) : (setMc s i x).fuses = s.fuses := rfl
@[simp] theorem setMc_clk (i : Nat) (x : Mc) : (setMc s i x).clk = s.clk := rfl
@[simp] theorem setMc_chart (i : Nat) (x : Mc) : (setMc s i x).chart = s.chart := rfl
@[simp] theorem setMc_sites (i : Nat) (x : Mc) : (setMc s i x).sites = s.sites := rfl
@[simp] theorem setMc_cores (i : Nat) (x : Mc) : (setMc s i x).cores = s.cores := rfl
@[simp] theorem setMc_mem (i : Nat) (x : Mc) : (setMc s i x).mem = s.mem := rfl
@[simp] theorem setMc_poison (i : Nat) (x : Mc) : (setMc s i x).poison = s.poison := rfl
@[simp] theorem setMc_undef (i : Nat) (x : Mc) : (setMc s i x).undef = s.undef := rfl
@[simp] theorem setMc_recent (i : Nat) (x : Mc) : (setMc s i x).recent = s.recent := rfl
@[simp] theorem setMc_lla (i : Nat) (x : Mc) : (setMc s i x).lla = s.lla := rfl
@[simp] theorem setMc_txns (i : Nat) (x : Mc) : (setMc s i x).txns = s.txns := rfl
@[simp] theorem setMc_nextTxn (i : Nat) (x : Mc) : (setMc s i x).nextTxn = s.nextTxn := rfl
@[simp] theorem setMc_chOut (i : Nat) (x : Mc) : (setMc s i x).chOut = s.chOut := rfl
@[simp] theorem setMc_hstacks (i : Nat) (x : Mc) : (setMc s i x).hstacks = s.hstacks := rfl
@[simp] theorem setMc_gtu (i : Nat) (x : Mc) : (setMc s i x).gtu = s.gtu := rfl
@[simp] theorem setMc_fabOps (i : Nat) (x : Mc) : (setMc s i x).fabOps = s.fabOps := rfl
@[simp] theorem setMc_noc (i : Nat) (x : Mc) : (setMc s i x).noc = s.noc := rfl
@[simp] theorem setMc_fcu (i : Nat) (x : Mc) : (setMc s i x).fcu = s.fcu := rfl
@[simp] theorem setMc_slices (i : Nat) (x : Mc) : (setMc s i x).slices = s.slices := rfl
@[simp] theorem setMc_queues (i : Nat) (x : Mc) : (setMc s i x).queues = s.queues := rfl
@[simp] theorem setMc_ces (i : Nat) (x : Mc) : (setMc s i x).ces = s.ces := rfl
@[simp] theorem setMc_runs (i : Nat) (x : Mc) : (setMc s i x).runs = s.runs := rfl
@[simp] theorem setMc_cals (i : Nat) (x : Mc) : (setMc s i x).cals = s.cals := rfl
@[simp] theorem setMc_cols (i : Nat) (x : Mc) : (setMc s i x).cols = s.cols := rfl
@[simp] theorem setMc_rops (i : Nat) (x : Mc) : (setMc s i x).rops = s.rops := rfl
@[simp] theorem setMc_nx (i : Nat) (x : Mc) : (setMc s i x).nx = s.nx := rfl
@[simp] theorem setMc_pcie (i : Nat) (x : Mc) : (setMc s i x).pcie = s.pcie := rfl
@[simp] theorem setMc_wmk (i : Nat) (x : Mc) : (setMc s i x).wmk = s.wmk := rfl
@[simp] theorem setMc_mgmt (i : Nat) (x : Mc) : (setMc s i x).mgmt = s.mgmt := rfl
@[simp] theorem setMc_glb (i : Nat) (x : Mc) : (setMc s i x).glb = s.glb := rfl
@[simp] theorem setMc_tel (i : Nat) (x : Mc) : (setMc s i x).tel = s.tel := rfl
@[simp] theorem setMc_out (i : Nat) (x : Mc) : (setMc s i x).out = s.out := rfl
@[simp] theorem setMc_draws (i : Nat) (x : Mc) : (setMc s i x).draws = s.draws := rfl

@[simp] theorem setChan_pending (ch st : Nat) : (setChan s ch st).pending = s.pending := rfl
@[simp] theorem setChan_time (ch st : Nat) : (setChan s ch st).time = s.time := rfl
@[simp] theorem setChan_pins (ch st : Nat) : (setChan s ch st).pins = s.pins := rfl
@[simp] theorem setChan_fuses (ch st : Nat) : (setChan s ch st).fuses = s.fuses := rfl
@[simp] theorem setChan_clk (ch st : Nat) : (setChan s ch st).clk = s.clk := rfl
@[simp] theorem setChan_chart (ch st : Nat) : (setChan s ch st).chart = s.chart := rfl
@[simp] theorem setChan_sites (ch st : Nat) : (setChan s ch st).sites = s.sites := rfl
@[simp] theorem setChan_cores (ch st : Nat) : (setChan s ch st).cores = s.cores := rfl
@[simp] theorem setChan_mem (ch st : Nat) : (setChan s ch st).mem = s.mem := rfl
@[simp] theorem setChan_poison (ch st : Nat) : (setChan s ch st).poison = s.poison := rfl
@[simp] theorem setChan_undef (ch st : Nat) : (setChan s ch st).undef = s.undef := rfl
@[simp] theorem setChan_recent (ch st : Nat) : (setChan s ch st).recent = s.recent := rfl
@[simp] theorem setChan_lla (ch st : Nat) : (setChan s ch st).lla = s.lla := rfl
@[simp] theorem setChan_txns (ch st : Nat) : (setChan s ch st).txns = s.txns := rfl
@[simp] theorem setChan_nextTxn (ch st : Nat) : (setChan s ch st).nextTxn = s.nextTxn := rfl
@[simp] theorem setChan_chOut (ch st : Nat) : (setChan s ch st).chOut = s.chOut := rfl
@[simp] theorem setChan_hstacks (ch st : Nat) : (setChan s ch st).hstacks = s.hstacks := rfl
@[simp] theorem setChan_gtu (ch st : Nat) : (setChan s ch st).gtu = s.gtu := rfl
@[simp] theorem setChan_fabOps (ch st : Nat) : (setChan s ch st).fabOps = s.fabOps := rfl
@[simp] theorem setChan_noc (ch st : Nat) : (setChan s ch st).noc = s.noc := rfl
@[simp] theorem setChan_fcu (ch st : Nat) : (setChan s ch st).fcu = s.fcu := rfl
@[simp] theorem setChan_slices (ch st : Nat) : (setChan s ch st).slices = s.slices := rfl
@[simp] theorem setChan_queues (ch st : Nat) : (setChan s ch st).queues = s.queues := rfl
@[simp] theorem setChan_ces (ch st : Nat) : (setChan s ch st).ces = s.ces := rfl
@[simp] theorem setChan_runs (ch st : Nat) : (setChan s ch st).runs = s.runs := rfl
@[simp] theorem setChan_cals (ch st : Nat) : (setChan s ch st).cals = s.cals := rfl
@[simp] theorem setChan_cols (ch st : Nat) : (setChan s ch st).cols = s.cols := rfl
@[simp] theorem setChan_rops (ch st : Nat) : (setChan s ch st).rops = s.rops := rfl
@[simp] theorem setChan_nx (ch st : Nat) : (setChan s ch st).nx = s.nx := rfl
@[simp] theorem setChan_pcie (ch st : Nat) : (setChan s ch st).pcie = s.pcie := rfl
@[simp] theorem setChan_wmk (ch st : Nat) : (setChan s ch st).wmk = s.wmk := rfl
@[simp] theorem setChan_mgmt (ch st : Nat) : (setChan s ch st).mgmt = s.mgmt := rfl
@[simp] theorem setChan_glb (ch st : Nat) : (setChan s ch st).glb = s.glb := rfl
@[simp] theorem setChan_tel (ch st : Nat) : (setChan s ch st).tel = s.tel := rfl
@[simp] theorem setChan_out (ch st : Nat) : (setChan s ch st).out = s.out := rfl
@[simp] theorem setChan_draws (ch st : Nat) : (setChan s ch st).draws = s.draws := rfl

@[simp] theorem setQp_pending (n : Nat) (x : Qp) : (setQp s n x).pending = s.pending := rfl
@[simp] theorem setQp_time (n : Nat) (x : Qp) : (setQp s n x).time = s.time := rfl
@[simp] theorem setQp_pins (n : Nat) (x : Qp) : (setQp s n x).pins = s.pins := rfl
@[simp] theorem setQp_fuses (n : Nat) (x : Qp) : (setQp s n x).fuses = s.fuses := rfl
@[simp] theorem setQp_clk (n : Nat) (x : Qp) : (setQp s n x).clk = s.clk := rfl
@[simp] theorem setQp_chart (n : Nat) (x : Qp) : (setQp s n x).chart = s.chart := rfl
@[simp] theorem setQp_sites (n : Nat) (x : Qp) : (setQp s n x).sites = s.sites := rfl
@[simp] theorem setQp_cores (n : Nat) (x : Qp) : (setQp s n x).cores = s.cores := rfl
@[simp] theorem setQp_mem (n : Nat) (x : Qp) : (setQp s n x).mem = s.mem := rfl
@[simp] theorem setQp_poison (n : Nat) (x : Qp) : (setQp s n x).poison = s.poison := rfl
@[simp] theorem setQp_undef (n : Nat) (x : Qp) : (setQp s n x).undef = s.undef := rfl
@[simp] theorem setQp_recent (n : Nat) (x : Qp) : (setQp s n x).recent = s.recent := rfl
@[simp] theorem setQp_lla (n : Nat) (x : Qp) : (setQp s n x).lla = s.lla := rfl
@[simp] theorem setQp_txns (n : Nat) (x : Qp) : (setQp s n x).txns = s.txns := rfl
@[simp] theorem setQp_nextTxn (n : Nat) (x : Qp) : (setQp s n x).nextTxn = s.nextTxn := rfl
@[simp] theorem setQp_mcs (n : Nat) (x : Qp) : (setQp s n x).mcs = s.mcs := rfl
@[simp] theorem setQp_chOut (n : Nat) (x : Qp) : (setQp s n x).chOut = s.chOut := rfl
@[simp] theorem setQp_hstacks (n : Nat) (x : Qp) : (setQp s n x).hstacks = s.hstacks := rfl
@[simp] theorem setQp_gtu (n : Nat) (x : Qp) : (setQp s n x).gtu = s.gtu := rfl
@[simp] theorem setQp_fabOps (n : Nat) (x : Qp) : (setQp s n x).fabOps = s.fabOps := rfl
@[simp] theorem setQp_noc (n : Nat) (x : Qp) : (setQp s n x).noc = s.noc := rfl
@[simp] theorem setQp_fcu (n : Nat) (x : Qp) : (setQp s n x).fcu = s.fcu := rfl
@[simp] theorem setQp_slices (n : Nat) (x : Qp) : (setQp s n x).slices = s.slices := rfl
@[simp] theorem setQp_queues (n : Nat) (x : Qp) : (setQp s n x).queues = s.queues := rfl
@[simp] theorem setQp_ces (n : Nat) (x : Qp) : (setQp s n x).ces = s.ces := rfl
@[simp] theorem setQp_runs (n : Nat) (x : Qp) : (setQp s n x).runs = s.runs := rfl
@[simp] theorem setQp_cals (n : Nat) (x : Qp) : (setQp s n x).cals = s.cals := rfl
@[simp] theorem setQp_cols (n : Nat) (x : Qp) : (setQp s n x).cols = s.cols := rfl
@[simp] theorem setQp_rops (n : Nat) (x : Qp) : (setQp s n x).rops = s.rops := rfl
@[simp] theorem setQp_pcie (n : Nat) (x : Qp) : (setQp s n x).pcie = s.pcie := rfl
@[simp] theorem setQp_wmk (n : Nat) (x : Qp) : (setQp s n x).wmk = s.wmk := rfl
@[simp] theorem setQp_mgmt (n : Nat) (x : Qp) : (setQp s n x).mgmt = s.mgmt := rfl
@[simp] theorem setQp_glb (n : Nat) (x : Qp) : (setQp s n x).glb = s.glb := rfl
@[simp] theorem setQp_tel (n : Nat) (x : Qp) : (setQp s n x).tel = s.tel := rfl
@[simp] theorem setQp_out (n : Nat) (x : Qp) : (setQp s n x).out = s.out := rfl
@[simp] theorem setQp_draws (n : Nat) (x : Qp) : (setQp s n x).draws = s.draws := rfl

@[simp] theorem emit_pending (o : Out) : (emit s o).pending = s.pending := rfl
@[simp] theorem emit_time (o : Out) : (emit s o).time = s.time := rfl
@[simp] theorem emit_pins (o : Out) : (emit s o).pins = s.pins := rfl
@[simp] theorem emit_fuses (o : Out) : (emit s o).fuses = s.fuses := rfl
@[simp] theorem emit_clk (o : Out) : (emit s o).clk = s.clk := rfl
@[simp] theorem emit_chart (o : Out) : (emit s o).chart = s.chart := rfl
@[simp] theorem emit_sites (o : Out) : (emit s o).sites = s.sites := rfl
@[simp] theorem emit_cores (o : Out) : (emit s o).cores = s.cores := rfl
@[simp] theorem emit_mem (o : Out) : (emit s o).mem = s.mem := rfl
@[simp] theorem emit_poison (o : Out) : (emit s o).poison = s.poison := rfl
@[simp] theorem emit_undef (o : Out) : (emit s o).undef = s.undef := rfl
@[simp] theorem emit_recent (o : Out) : (emit s o).recent = s.recent := rfl
@[simp] theorem emit_lla (o : Out) : (emit s o).lla = s.lla := rfl
@[simp] theorem emit_txns (o : Out) : (emit s o).txns = s.txns := rfl
@[simp] theorem emit_nextTxn (o : Out) : (emit s o).nextTxn = s.nextTxn := rfl
@[simp] theorem emit_mcs (o : Out) : (emit s o).mcs = s.mcs := rfl
@[simp] theorem emit_chOut (o : Out) : (emit s o).chOut = s.chOut := rfl
@[simp] theorem emit_hstacks (o : Out) : (emit s o).hstacks = s.hstacks := rfl
@[simp] theorem emit_gtu (o : Out) : (emit s o).gtu = s.gtu := rfl
@[simp] theorem emit_fabOps (o : Out) : (emit s o).fabOps = s.fabOps := rfl
@[simp] theorem emit_noc (o : Out) : (emit s o).noc = s.noc := rfl
@[simp] theorem emit_fcu (o : Out) : (emit s o).fcu = s.fcu := rfl
@[simp] theorem emit_slices (o : Out) : (emit s o).slices = s.slices := rfl
@[simp] theorem emit_queues (o : Out) : (emit s o).queues = s.queues := rfl
@[simp] theorem emit_ces (o : Out) : (emit s o).ces = s.ces := rfl
@[simp] theorem emit_runs (o : Out) : (emit s o).runs = s.runs := rfl
@[simp] theorem emit_cals (o : Out) : (emit s o).cals = s.cals := rfl
@[simp] theorem emit_cols (o : Out) : (emit s o).cols = s.cols := rfl
@[simp] theorem emit_rops (o : Out) : (emit s o).rops = s.rops := rfl
@[simp] theorem emit_nx (o : Out) : (emit s o).nx = s.nx := rfl
@[simp] theorem emit_pcie (o : Out) : (emit s o).pcie = s.pcie := rfl
@[simp] theorem emit_wmk (o : Out) : (emit s o).wmk = s.wmk := rfl
@[simp] theorem emit_mgmt (o : Out) : (emit s o).mgmt = s.mgmt := rfl
@[simp] theorem emit_glb (o : Out) : (emit s o).glb = s.glb := rfl
@[simp] theorem emit_tel (o : Out) : (emit s o).tel = s.tel := rfl
@[simp] theorem emit_draws (o : Out) : (emit s o).draws = s.draws := rfl

@[simp] theorem writeMem_pending (k : Nat) (bs : List Byte) : (writeMem s k bs).pending = s.pending := rfl
@[simp] theorem writeMem_time (k : Nat) (bs : List Byte) : (writeMem s k bs).time = s.time := rfl
@[simp] theorem writeMem_pins (k : Nat) (bs : List Byte) : (writeMem s k bs).pins = s.pins := rfl
@[simp] theorem writeMem_fuses (k : Nat) (bs : List Byte) : (writeMem s k bs).fuses = s.fuses := rfl
@[simp] theorem writeMem_clk (k : Nat) (bs : List Byte) : (writeMem s k bs).clk = s.clk := rfl
@[simp] theorem writeMem_chart (k : Nat) (bs : List Byte) : (writeMem s k bs).chart = s.chart := rfl
@[simp] theorem writeMem_sites (k : Nat) (bs : List Byte) : (writeMem s k bs).sites = s.sites := rfl
@[simp] theorem writeMem_cores (k : Nat) (bs : List Byte) : (writeMem s k bs).cores = s.cores := rfl
@[simp] theorem writeMem_poison (k : Nat) (bs : List Byte) : (writeMem s k bs).poison = s.poison := rfl
@[simp] theorem writeMem_lla (k : Nat) (bs : List Byte) : (writeMem s k bs).lla = s.lla := rfl
@[simp] theorem writeMem_txns (k : Nat) (bs : List Byte) : (writeMem s k bs).txns = s.txns := rfl
@[simp] theorem writeMem_nextTxn (k : Nat) (bs : List Byte) : (writeMem s k bs).nextTxn = s.nextTxn := rfl
@[simp] theorem writeMem_mcs (k : Nat) (bs : List Byte) : (writeMem s k bs).mcs = s.mcs := rfl
@[simp] theorem writeMem_chOut (k : Nat) (bs : List Byte) : (writeMem s k bs).chOut = s.chOut := rfl
@[simp] theorem writeMem_hstacks (k : Nat) (bs : List Byte) : (writeMem s k bs).hstacks = s.hstacks := rfl
@[simp] theorem writeMem_gtu (k : Nat) (bs : List Byte) : (writeMem s k bs).gtu = s.gtu := rfl
@[simp] theorem writeMem_fabOps (k : Nat) (bs : List Byte) : (writeMem s k bs).fabOps = s.fabOps := rfl
@[simp] theorem writeMem_noc (k : Nat) (bs : List Byte) : (writeMem s k bs).noc = s.noc := rfl
@[simp] theorem writeMem_fcu (k : Nat) (bs : List Byte) : (writeMem s k bs).fcu = s.fcu := rfl
@[simp] theorem writeMem_slices (k : Nat) (bs : List Byte) : (writeMem s k bs).slices = s.slices := rfl
@[simp] theorem writeMem_queues (k : Nat) (bs : List Byte) : (writeMem s k bs).queues = s.queues := rfl
@[simp] theorem writeMem_ces (k : Nat) (bs : List Byte) : (writeMem s k bs).ces = s.ces := rfl
@[simp] theorem writeMem_runs (k : Nat) (bs : List Byte) : (writeMem s k bs).runs = s.runs := rfl
@[simp] theorem writeMem_cals (k : Nat) (bs : List Byte) : (writeMem s k bs).cals = s.cals := rfl
@[simp] theorem writeMem_cols (k : Nat) (bs : List Byte) : (writeMem s k bs).cols = s.cols := rfl
@[simp] theorem writeMem_rops (k : Nat) (bs : List Byte) : (writeMem s k bs).rops = s.rops := rfl
@[simp] theorem writeMem_nx (k : Nat) (bs : List Byte) : (writeMem s k bs).nx = s.nx := rfl
@[simp] theorem writeMem_pcie (k : Nat) (bs : List Byte) : (writeMem s k bs).pcie = s.pcie := rfl
@[simp] theorem writeMem_wmk (k : Nat) (bs : List Byte) : (writeMem s k bs).wmk = s.wmk := rfl
@[simp] theorem writeMem_mgmt (k : Nat) (bs : List Byte) : (writeMem s k bs).mgmt = s.mgmt := rfl
@[simp] theorem writeMem_glb (k : Nat) (bs : List Byte) : (writeMem s k bs).glb = s.glb := rfl
@[simp] theorem writeMem_tel (k : Nat) (bs : List Byte) : (writeMem s k bs).tel = s.tel := rfl
@[simp] theorem writeMem_out (k : Nat) (bs : List Byte) : (writeMem s k bs).out = s.out := rfl
@[simp] theorem writeMem_draws (k : Nat) (bs : List Byte) : (writeMem s k bs).draws = s.draws := rfl

@[simp] theorem setCore_core_same (c : Nat) (x : Core) : (setCore s c x).core c = x := by simp [setCore, State.core]
theorem setCore_core_ne (c i' : Nat) (x : Core) (h : i' ≠ c) : (setCore s c x).core i' = s.core i' := by simp [setCore, State.core, Tab.get_set_ne, h]
@[simp] theorem setQueue_queue_same (q : Nat) (x : Queue) : (setQueue s q x).queue q = x := by simp [setQueue, State.queue]
theorem setQueue_queue_ne (q i' : Nat) (x : Queue) (h : i' ≠ q) : (setQueue s q x).queue i' = s.queue i' := by simp [setQueue, State.queue, Tab.get_set_ne, h]
@[simp] theorem setSlice_slice_same (n : Nat) (x : Slice) : (setSlice s n x).slice n = x := by simp [setSlice, State.slice]
theorem setSlice_slice_ne (n i' : Nat) (x : Slice) (h : i' ≠ n) : (setSlice s n x).slice i' = s.slice i' := by simp [setSlice, State.slice, Tab.get_set_ne, h]
@[simp] theorem setSite_site_same (k : Nat) (x : Site) : (setSite s k x).site k = x := by simp [setSite, State.site]
theorem setSite_site_ne (k i' : Nat) (x : Site) (h : i' ≠ k) : (setSite s k x).site i' = s.site i' := by simp [setSite, State.site, Tab.get_set_ne, h]
@[simp] theorem setHome_home_same (j : Nat) (x : HomeSlice) : (setHome s j x).home j = x := by simp [setHome, State.home]
theorem setHome_home_ne (j i' : Nat) (x : HomeSlice) (h : i' ≠ j) : (setHome s j x).home i' = s.home i' := by simp [setHome, State.home, Tab.get_set_ne, h]
@[simp] theorem setCtx_ctx_same (n : Nat) (x : GtuCtx) : (setCtx s n x).ctx n = x := by simp [setCtx, State.ctx]
theorem setCtx_ctx_ne (n i' : Nat) (x : GtuCtx) (h : i' ≠ n) : (setCtx s n x).ctx i' = s.ctx i' := by simp [setCtx, State.ctx, Tab.get_set_ne, h]
@[simp] theorem setJob_job_same (k : Nat) (x : Job) : (setJob s k x).job k = x := by simp [setJob, State.job]
theorem setJob_job_ne (k i' : Nat) (x : Job) (h : i' ≠ k) : (setJob s k x).job i' = s.job i' := by simp [setJob, State.job, Tab.get_set_ne, h]
@[simp] theorem setPort_port_same (p : Nat) (x : Port) : (setPort s p x).port p = x := by simp [setPort, State.port]
theorem setPort_port_ne (p i' : Nat) (x : Port) (h : i' ≠ p) : (setPort s p x).port i' = s.port i' := by simp [setPort, State.port, Tab.get_set_ne, h]
@[simp] theorem setRegulator_regulator_same (n : Nat) (x : Regulator) : (setRegulator s n x).regulator n = x := by simp [setRegulator, State.regulator]
theorem setRegulator_regulator_ne (n i' : Nat) (x : Regulator) (h : i' ≠ n) : (setRegulator s n x).regulator i' = s.regulator i' := by simp [setRegulator, State.regulator, Tab.get_set_ne, h]
@[simp] theorem setCal_cal_same (k : Nat) (x : CalEngine) : (setCal s k x).cal k = x := by simp [setCal, State.cal]
theorem setCal_cal_ne (k i' : Nat) (x : CalEngine) (h : i' ≠ k) : (setCal s k x).cal i' = s.cal i' := by simp [setCal, State.cal, Tab.get_set_ne, h]
@[simp] theorem setCol_col_same (c : Nat) (x : ColEngine) : (setCol s c x).col c = x := by simp [setCol, State.col]
theorem setCol_col_ne (c i' : Nat) (x : ColEngine) (h : i' ≠ c) : (setCol s c x).col i' = s.col i' := by simp [setCol, State.col, Tab.get_set_ne, h]
@[simp] theorem setCe_ce_same (e : Nat) (x : CopyEngine) : (setCe s e x).ce e = x := by simp [setCe, State.ce]
theorem setCe_ce_ne (e i' : Nat) (x : CopyEngine) (h : i' ≠ e) : (setCe s e x).ce i' = s.ce i' := by simp [setCe, State.ce, Tab.get_set_ne, h]
@[simp] theorem setMc_mc_same (i : Nat) (x : Mc) : (setMc s i x).mc i = x := by simp [setMc, State.mc]
theorem setMc_mc_ne (i i' : Nat) (x : Mc) (h : i' ≠ i) : (setMc s i x).mc i' = s.mc i' := by simp [setMc, State.mc, Tab.get_set_ne, h]
@[simp] theorem setQp_qp_same (n : Nat) (x : Qp) : (setQp s n x).qp n = x := by simp [setQp, State.qp]
theorem setQp_qp_ne (n i' : Nat) (x : Qp) (h : i' ≠ n) : (setQp s n x).qp i' = s.qp i' := by simp [setQp, State.qp, Tab.get_set_ne, h]

@[simp] theorem setDk_site_same (k : Nat) (x : Dk) : (setDk s k x).site k = { s.site k with dk := x } := by simp [setDk]
theorem setDk_site_ne (k i : Nat) (x : Dk) (h : i ≠ k) : (setDk s k x).site i = s.site i := by simp [setDk, setSite_site_ne, h]
@[simp] theorem setFelt_felt_same (h : Nat) (x : Felt) : felt (setFelt s h x) h = x := by simp [setFelt, felt]
theorem setFelt_felt_ne (h i : Nat) (x : Felt) (hi : i ≠ h) : felt (setFelt s h x) i = felt s i := by simp [setFelt, felt, Tab.get_set_ne, hi]
@[simp] theorem setConn_conn_same (k m : Nat) (x : Conn) : (setConn s k m x).conn k m = x := by simp [setConn, State.conn]
@[simp] theorem setWay_way_same (j st w : Nat) (x : LlaLine) : (setWay s j st w x).way j st w = x := by simp [setWay, State.way]
@[simp] theorem emit_out (o : Out) : (emit s o).out = o :: s.out := rfl

end Sys2Proof.Machine
end

