-- ==== Sys2Proof/Laws/Memory.lean ====
section
/-!
SUPPORT. Laws of the bytes of HBM: what a write leaves at every key, and that every operation that changes memory keeps its canonical form.
-/
namespace Sys2Proof.Machine

/-! ## Reading after a write -/

/-- The table after a store: the bytes stored at their keys, every other key as before. -/
theorem get_storeBytes (bs : List Byte) (t : Tab Byte) (k a : Nat) :
    Tab.get 0 (storeBytes t k bs) a = if k ≤ a ∧ a < k + bs.length then bs.getD (a - k) 0 else Tab.get 0 t a := by
  induction bs generalizing t k with
  | nil => simp [storeBytes]
  | cons b r ih =>
    rw [storeBytes, ih, Tab.get_set]
    by_cases h1 : k + 1 ≤ a ∧ a < k + 1 + r.length
    · rw [if_pos h1, if_pos (by simp only [List.length_cons]; omega), show a - k = (a - (k + 1)) + 1 by omega, List.getD_cons_succ]
    · rw [if_neg h1]
      by_cases h2 : a = k
      · subst h2; simp
      · rw [if_neg h2, if_neg (by simp only [List.length_cons]; omega)]

/-- Whether a range of undefined bytes holds a key. -/
def URange.holds (a : Nat) (u : URange) : Bool := u.lo ≤ a && a < u.lo + u.len

/-- Which generation of undefined bytes a key is in, once a span is written: none inside the span, the same as before outside. -/
theorem find_punch (lo len a : Nat) (l : List URange) :
    ((punch lo len l).find? (fun u => u.lo ≤ a && a < u.lo + u.len)).map (·.gen) =
      if lo ≤ a ∧ a < lo + len then none else (l.find? (fun u => u.lo ≤ a && a < u.lo + u.len)).map (·.gen) := by
  induction l with
  | nil => simp [punch]
  | cons u r ih =>
    rw [punch, List.find?_append, List.find?_append, List.find?_cons]
    by_cases hin : lo ≤ a ∧ a < lo + len
    · rw [if_pos hin] at ih ⊢
      have h1 : (if min (u.lo + u.len) lo - u.lo > 0 then [{ u with len := min (u.lo + u.len) lo - u.lo }] else []).find?
          (fun u => u.lo ≤ a && a < u.lo + u.len) = none := by
        split <;> simp; omega
      have h2 : (if u.lo + u.len - max u.lo (lo + len) > 0 then
          [{ u with lo := max u.lo (lo + len), len := u.lo + u.len - max u.lo (lo + len) }] else []).find?
          (fun u => u.lo ≤ a && a < u.lo + u.len) = none := by
        split <;> simp; omega
      rw [h1, h2]
      simpa using ih
    · rw [if_neg hin] at ih ⊢
      by_cases hu : (decide (u.lo ≤ a) && decide (a < u.lo + u.len)) = true
      · rw [hu]
        simp only [Bool.and_eq_true, decide_eq_true_eq] at hu
        by_cases hl : a < lo
        · rw [if_pos (by omega), List.find?_cons_of_pos (by simp; omega)]
          simp
        · have h1 : (if min (u.lo + u.len) lo - u.lo > 0 then [{ u with len := min (u.lo + u.len) lo - u.lo }] else []).find?
              (fun u => u.lo ≤ a && a < u.lo + u.len) = none := by
            split <;> simp; omega
          rw [h1, if_pos (by omega), List.find?_cons_of_pos (by simp; omega)]
          simp
      · rw [Bool.eq_false_iff.2 hu]
        simp only [Bool.and_eq_true, decide_eq_true_eq] at hu
        have h1 : (if min (u.lo + u.len) lo - u.lo > 0 then [{ u with len := min (u.lo + u.len) lo - u.lo }] else []).find?
            (fun u => u.lo ≤ a && a < u.lo + u.len) = none := by
          split <;> simp; omega
        have h2 : (if u.lo + u.len - max u.lo (lo + len) > 0 then
            [{ u with lo := max u.lo (lo + len), len := u.lo + u.len - max u.lo (lo + len) }] else []).find?
            (fun u => u.lo ≤ a && a < u.lo + u.len) = none := by
          split <;> simp; omega
        rw [h1, h2]
        simpa using ih

/-- A byte of HBM by the generation of undefined bytes its key is in. -/
theorem readByte_eq (s : State) (a : Nat) : readByte s a =
    match (s.undef.find? (fun u => u.lo ≤ a && a < u.lo + u.len)).map (·.gen) with
    | some g => Config.freeByte g a
    | none => Tab.get 0 s.mem a := by
  unfold readByte
  cases s.undef.find? (fun u => u.lo ≤ a && a < u.lo + u.len) <;> rfl

/-- Read after write: the bytes written read back, and every other byte reads as before. -/
theorem readByte_writeMem (s : State) (k a : Nat) (bs : List Byte) :
    readByte (writeMem s k bs) a = if k ≤ a ∧ a < k + bs.length then bs.getD (a - k) 0 else readByte s a := by
  rw [readByte_eq, readByte_eq]
  have hu : (writeMem s k bs).undef = punch k bs.length s.undef := rfl
  have hm : (writeMem s k bs).mem = storeBytes s.mem k bs := rfl
  rw [hu, hm, find_punch, get_storeBytes]
  by_cases h : k ≤ a ∧ a < k + bs.length
  · simp only [if_pos h]
  · simp only [if_neg h]

/-! ## The canonical form -/

theorem storeBytes_wf (bs : List Byte) (t : Tab Byte) (k : Nat) (h : Memory.wf t = true) : Memory.wf (storeBytes t k bs) = true := by
  induction bs generalizing t k with
  | nil => exact h
  | cons b r ih => exact ih _ _ (Tab.wf_set 0 t k b h)

theorem reset_wf : Memory.wf State.reset.mem = true := rfl

/-- `t` keeps the form of `s`'s memory. -/
def Kept (s t : State) : Prop := Memory.wf s.mem = true → Memory.wf t.mem = true

theorem Kept.refl (s : State) : Kept s s := id
theorem Kept.trans {s t u : State} (h : Kept s t) (g : Kept t u) : Kept s u := fun x => g (h x)
theorem Kept.of_eq {s t : State} (h : t.mem = s.mem) : Kept s t := fun x => h ▸ x

/-- A fold keeps the form if each of its steps does. -/
theorem Kept.foldl {α : Type} {f : State → α → State} (h : ∀ s a, Kept s (f s a)) (l : List α) (s : State) : Kept s (l.foldl f s) := by
  induction l generalizing s with
  | nil => exact Kept.refl s
  | cons a l ih => exact (h s a).trans (ih _)

theorem mem_foldl {α : Type} {f : State → α → State} (h : ∀ s a, (f s a).mem = s.mem) (l : List α) (s : State) : (l.foldl f s).mem = s.mem := by
  induction l generalizing s with
  | nil => rfl
  | cons a l ih => rw [List.foldl_cons, ih, h]

theorem writeMem_kept (s : State) (k : Nat) (bs : List Byte) : Kept s (writeMem s k bs) := fun h => storeBytes_wf bs s.mem k h

theorem setMemLine_kept (s : State) (ch ca : Nat) (l : Line) (p : Bool) : Kept s (setMemLine s ch ca l p) := writeMem_kept s _ _

theorem loseStack_kept (s : State) (m : Nat) : Kept s (loseStack s m) := fun h => Tab.wf_filter 0 s.mem _ h

theorem loseSpan_kept (s : State) (ch lo len : Nat) : Kept s (loseSpan s ch lo len) := fun h => Tab.wf_filter 0 s.mem _ h

theorem zeroSpan_kept (s : State) (ch ca len : Nat) : Kept s (zeroSpan s ch ca len) := fun h => Tab.wf_filter 0 s.mem _ h

end Sys2Proof.Machine
end

