-- ==== Sys2Proof/Laws/Shared.lean ====
section
/-!
SUPPORT. What the shared operations do to memory: most leave it as it is, and those that serve a request at its home keep its canonical form.
-/
namespace Sys2Proof.Machine

variable (s : State)

/-! ## Operations that leave memory as it is -/

@[simp] theorem timeAfter_mem (n : Nat) : (timeAfter n s).mem = s.mem := by unfold timeAfter; split <;> rfl
@[simp] theorem countLimiting_mem (n : Nat) : (countLimiting n s).mem = s.mem := by unfold countLimiting; split <;> rfl
@[simp] theorem advance_mem (n : Nat) : (advance n s).mem = s.mem := by unfold advance; dsimp only; split <;> simp
@[simp] theorem advanceTo_mem (n : Nat) : (advanceTo n s).mem = s.mem := by unfold advanceTo; split <;> simp
@[simp] theorem tick_mem : (tick s).mem = s.mem := by unfold tick; split <;> [split; skip] <;> [skip; split; skip] <;> simp
@[simp] theorem sendPending_mem : (sendPending s).mem = s.mem := by unfold sendPending; dsimp only; split <;> rfl
@[simp] theorem wakeLink_mem : (wakeLink s).mem = s.mem := by unfold wakeLink; split <;> simp
@[simp] theorem updTxn_mem (t : Txn) : (updTxn s t).mem = s.mem := rfl
@[simp] theorem dropTxn_mem (id : Nat) : (dropTxn s id).mem = s.mem := rfl
@[simp] theorem dropRop_mem (id : Nat) : (dropRop s id).mem = s.mem := rfl
@[simp] theorem dropRops_mem (tag : Nat) : (dropRops s tag).mem = s.mem := rfl
@[simp] theorem oweFailure_mem (l st : Nat) : (oweFailure s l st).mem = s.mem := rfl
@[simp] theorem finishRop_mem (id st : Nat) (d : Option Line) : (finishRop s id st d).mem = s.mem := by
  unfold finishRop; dsimp only; (repeat' split) <;> rfl
@[simp] theorem finishPacket_mem (o : ROp) (st : Nat) : (finishPacket s o st).mem = s.mem := by
  unfold finishPacket; rw [mem_foldl (fun s i => finishRop_mem s i st none), finishRop_mem]
@[simp] theorem arriveHome_mem (t : Txn) : (arriveHome s t).mem = s.mem := rfl
@[simp] theorem lostRecall_mem (t : Txn) (st : Nat) : (lostRecall s t st).mem = s.mem := by unfold lostRecall; (repeat' split) <;> rfl
@[simp] theorem releaseTag_mem (tag : Nat) : (releaseTag s tag).mem = s.mem := rfl
@[simp] theorem deliverWord_mem (l w : Nat) : (deliverWord s l w).mem = s.mem := rfl
@[simp] theorem countLookup_mem (j : Nat) (h : Bool) : (countLookup s j h).mem = s.mem := rfl
@[simp] theorem clearNonces_mem (j k : Nat) : (clearNonces s j k).mem = s.mem := rfl
@[simp] theorem endDebug_mem : (endDebug s).mem = s.mem := rfl
@[simp] theorem keepRecord_mem (n : Nat) (r : FaultRec) : (keepRecord s n r).mem = s.mem := rfl

@[simp] theorem sendKey_mem (j p st : Nat) : (sendKey s j p st).mem = s.mem := by unfold sendKey; split <;> rfl
@[simp] theorem switchKey_mem (k : Nat) : (switchKey s k).mem = s.mem := by unfold switchKey; dsimp only; split <;> rfl
@[simp] theorem finishRekey_mem (k : Nat) : (finishRekey s k).mem = s.mem := by
  unfold finishRekey; rw [switchKey_mem]; exact mem_foldl (fun s a => by simp) _ _
@[simp] theorem startRekey_mem (k : Nat) : (startRekey s k).mem = s.mem := by
  have h : ∀ (l : List Nat) (s : State), (l.foldl (fun s m => sendKey s k m 4) s).mem = s.mem := mem_foldl (fun s a => by simp)
  unfold startRekey; dsimp only; (repeat' split) <;> simp [h]
@[simp] theorem wire_mem (p j q o f n i a x : Nat) (d : List Byte) (e : Bool) : (wire s p j q o f n i a x d e).mem = s.mem := by
  unfold wire; dsimp only; split <;> [rfl; split] <;> [split; rfl] <;> simp
@[simp] theorem sendUnnumbered_mem (j p o a x : Nat) (d : List Byte) : (sendUnnumbered s j p o a x d).mem = s.mem := by
  unfold sendUnnumbered; dsimp only; split <;> simp
@[simp] theorem sendNumbered_mem (j p o f i a x n : Nat) (d : List Byte) (e : Bool) : (sendNumbered s j p o f i a x n d e).mem = s.mem := by
  unfold sendNumbered; dsimp only; split <;> [rfl; split] <;> simp
@[simp] theorem sendWrites_mem (j p o a n : Nat) (d : Line) (e : Bool) (l : List (Nat × Nat)) : (sendWrites s j p o a n d e l).mem = s.mem := by
  induction l generalizing s with
  | nil => rfl
  | cons x r ih =>
    cases r with
    | nil => simp [sendWrites]
    | cons y r => rw [sendWrites, ih, sendNumbered_mem]; simp
@[simp] theorem growPacket_mem (j p : Nat) (x : TxPkt) (bs : List Byte) : (growPacket s j p x bs).mem = s.mem := rfl
@[simp] theorem sendTlps_mem (o : ROp) (b : Nat) : (sendTlps s o b).mem = s.mem := by
  unfold sendTlps
  split
  · split
    · exact mem_foldl (fun s a => emit_mem s _) _ _
    · rfl
  · rfl

/-- Starting an operation of a REMOTE region leaves memory as it is. -/
theorem startRemote_mem {tag slice kind : Nat} {r : Region} {pa opc attr op0 op1 : Nat} {data : Line} {mask : BitVec 128} {keep e : Bool} {t : State}
    (h : startRemote s tag slice kind r pa opc attr op0 op1 data mask keep e = .sent t) : t.mem = s.mem := by
  unfold startRemote startHost startFabric at h
  dsimp only at h
  repeat' split at h
  all_goals cases h
  all_goals simp


@[simp] theorem countRequest_mem (i : Nat) (sl : Option Nat) : (countRequest s i sl).mem = s.mem := by
  unfold countRequest; dsimp only; (repeat' split) <;> rfl
@[simp] theorem countLatency_mem (i : Nat) (sl : Option Nat) (n : Nat) : (countLatency s i sl n).mem = s.mem := by
  unfold countLatency; dsimp only; (repeat' split) <;> rfl
@[simp] theorem mcPush_mem (q : McReq) : (mcPush s q).mem = s.mem := rfl
@[simp] theorem maintOffer_mem (r c a : Nat) : (maintOffer s r c a).mem = s.mem := by unfold maintOffer; split <;> rfl
@[simp] theorem slotIn_mem (t : Txn) (tag sv dl : Nat) : (slotIn s t tag sv dl).1.mem = s.mem := by
  unfold slotIn; dsimp only; (repeat' split) <;> simp
@[simp] theorem holdAtMeter_mem (t : Txn) : (holdAtMeter s t).mem = s.mem := by unfold holdAtMeter; dsimp only; split <;> rfl
@[simp] theorem reachMeter_mem (t : Txn) : (reachMeter s t).1.mem = s.mem := by
  unfold reachMeter; dsimp only; (repeat' split) <;> simp
@[simp] theorem charge_mem (t : Txn) : (charge s t).1.mem = s.mem := by
  unfold charge; dsimp only; (repeat' split) <;> simp
@[simp] theorem post_mem (k : Nat) (m : DkMsg) : (post s k m).mem = s.mem := by unfold post; dsimp only; split <;> rfl
@[simp] theorem retire_mem (k n : Nat) : (retire s k n).mem = s.mem := rfl
@[simp] theorem complete_mem (k n h c o g a st ad : Nat) (l : Line) : (complete s k n h c o g a st ad l).mem = s.mem := by simp [complete]
@[simp] theorem refuse_mem (k n h o st a : Nat) : (refuse s k n h o st a).mem = s.mem := by unfold refuse; split <;> simp
@[simp] theorem setDir_mem (pa : Nat) (d : DirState) : (setDir s pa d).mem = s.mem := by
  unfold setDir; dsimp only; (repeat' split) <;> rfl
@[simp] theorem quarWritten_mem (t : Txn) : (quarWritten s t).mem = s.mem := by unfold quarWritten; (repeat' split) <;> rfl
@[simp] theorem noteOwed_mem (tag : Nat) (t : Txn) : (noteOwed s tag t).mem = s.mem := by unfold noteOwed; (repeat' split) <;> rfl
@[simp] theorem hostAnswer_mem (t : Txn) (st : Nat) (v : Line) : (hostAnswer s t st v).mem = s.mem := by
  unfold hostAnswer; (repeat' split) <;> rfl
@[simp] theorem fabricAnswer_mem (t : Txn) (j p o n st : Nat) (v : Line) : (fabricAnswer s t j p o n st v).mem = s.mem := by
  unfold fabricAnswer; dsimp only; (repeat' split) <;> simp
@[simp] theorem answer_mem (t : Txn) (st : Nat) (v : Line) : (answer s t st v).mem = s.mem := by
  unfold answer; dsimp only; (repeat' split) <;> simp
@[simp] theorem grantLine_mem (t : Txn) (k n : Nat) (v : Line) (d : Bool) : (grantLine s t k n v d).mem = s.mem := by
  unfold grantLine; dsimp only; (repeat' split) <;> simp
@[simp] theorem sendMsix_mem (v : Nat) : (sendMsix s v).mem = s.mem := by unfold sendMsix; (repeat' split) <;> rfl

theorem victim_mem {j st w : Nat} {t : State} (h : victim s j st = some (t, w)) : t.mem = s.mem := by
  unfold victim at h
  split at h
  · cases h
  · dsimp only at h
    split at h <;> cases h <;> rfl

theorem recallFor_mem {t : Txn} {u : State} (h : recallFor s t = some u) : u.mem = s.mem := by
  unfold recallFor at h
  dsimp only at h
  repeat' split at h
  all_goals cases h
  all_goals first | rfl | exact mem_foldl (fun s a => by simp) _ _

/-! ## Serving a request keeps the form -/

theorem writeBackFor_kept {tag j sl reg st : Nat} {keep : Bool} {l : LlaLine} {t : State}
    (h : writeBackFor s tag keep j sl reg l = some (t, st)) : Kept s t := by
  unfold writeBackFor at h
  dsimp only at h
  have h0 : Kept s (setHome s j { s.home j with writebacks := (s.home j).writebacks + 1 }) := Kept.of_eq (setHome_mem s j _)
  repeat' split at h
  all_goals cases h
  · exact h0
  · exact h0.trans ((setMemLine_kept _ _ _ _ _).trans (Kept.of_eq (maintOffer_mem _ _ _ _)))
  · next hs => exact h0.trans (Kept.of_eq (startRemote_mem _ hs))
  · exact h0.trans (Kept.of_eq (oweFailure_mem _ _ _))
  · exact h0

theorem writeBack_kept {j sl : Nat} {l : LlaLine} {t : State} (h : writeBack s j sl l = some t) : Kept s t := by
  unfold writeBack at h
  obtain ⟨⟨u, st⟩, hu, rfl⟩ := Option.map_eq_some_iff.1 h
  exact writeBackFor_kept s hu

theorem allocWay_kept {j st sl w : Nat} {t : State} (h : allocWay s j st sl = .way t w) : Kept s t := by
  unfold allocWay at h
  split at h
  · cases h
  · next v hv =>
    dsimp only at h
    repeat' split at h
    all_goals cases h
    · next hw => exact (Kept.of_eq (victim_mem _ hv)).trans (writeBack_kept _ hw)
    · exact Kept.of_eq (victim_mem _ hv)

/-- The states a served request may leave. -/
def Served.keeps (s : State) : Served → Prop
  | .done t _ _ => Kept s t
  | .left t _ => Kept s t
  | .hold => True

theorem Served.keeps_trans {s t : State} (h : Kept s t) {r : Served} (g : r.keeps t) : r.keeps s := by
  cases r <;> first | exact h.trans g | trivial

theorem serveWay_keeps (j st w : Nat) (sc : Bool) (t : Txn) : (serveWay s j st w sc t).keeps s := by
  unfold serveWay; dsimp only; (repeat' split) <;> exact Kept.of_eq (by simp)


theorem countMiss_kept (j : Nat) : Kept s (if llaOn s = true then countLookup s j false else s) := by split <;> exact Kept.of_eq (by simp)

theorem queueLine_mem {ch ca : Nat} {t : Txn} {u : State} (h : queueLine s ch ca t = some u) : u.mem = s.mem := by
  unfold queueLine at h; split at h <;> cases h; rfl

theorem serveMem_keeps (ch ca : Nat) (t : Txn) (m : Miss) : (serveMem s ch ca t m).keeps s := by
  unfold serveMem
  split
  · trivial
  · next u hu =>
    have h := Kept.of_eq (queueLine_mem s hu)
    split
    · exact h.trans (setMemLine_kept u _ _ _ _)
    · exact h

theorem fillWay_keeps (ch ca w : Nat) (t : Txn) (m : Miss) : (fillWay s ch ca w t m).keeps s := by
  unfold fillWay
  split
  · trivial
  · next u hu =>
    have h : Kept s u := by
      split at hu
      · cases hu; exact Kept.refl s
      · exact Kept.of_eq (queueLine_mem s hu)
    exact h.trans (Kept.of_eq (setWay_mem u _ _ _ _))

theorem serveHbm_keeps (r : Region) (ch ca : Nat) (t : Txn) : (serveHbm s r ch ca t).keeps s := by
  unfold serveHbm
  split
  · exact Served.keeps_trans (Kept.of_eq (countLookup_mem s _ _)) (serveWay_keeps _ _ _ _ _ _)
  · split
    · exact Kept.refl s
    · split
      · trivial
      · dsimp only
        have h1 := countMiss_kept s (ch / 8)
        generalize (if llaOn s = true then countLookup s (ch / 8) false else s) = s1 at h1 ⊢
        split
        · exact Served.keeps_trans h1 (serveMem_keeps s1 _ _ _ _)
        · trivial
        · next hw =>
          split at hw
          · exact Served.keeps_trans (h1.trans (allocWay_kept s1 hw)) (fillWay_keeps _ _ _ _ _ _)
          · cases hw

theorem sendOn_keeps (r : Region) (tag kind : Nat) (mask : BitVec 128) (t : Txn) : (sendOn s r tag kind mask t).keeps s := by
  unfold sendOn
  split
  · next hs => exact Kept.of_eq (startRemote_mem s hs)
  · exact Kept.refl s
  · trivial

theorem serveRemote_keeps (r : Region) (j st tag : Nat) (t : Txn) : (serveRemote s r j st tag t).keeps s := by
  unfold serveRemote
  dsimp only
  split
  · exact Served.keeps_trans (Kept.of_eq (countLookup_mem s _ _)) (serveWay_keeps _ _ _ _ _ _)
  · have h1 := countMiss_kept s j
    generalize (if llaOn s = true then countLookup s j false else s) = s1 at h1 ⊢
    have hs : ∀ k m, (sendOn s1 r tag k m t).keeps s := fun k m => Served.keeps_trans h1 (sendOn_keeps s1 r tag k m t)
    split
    · split
      · split
        · next hw => exact h1.trans ((allocWay_kept s1 hw).trans (Kept.of_eq (setWay_mem _ _ _ _ _)))
        · trivial
        · exact hs _ _
      · exact hs _ _
    · split
      · exact hs _ _
      · split <;> exact hs _ _

theorem serveLine_keeps (tag : Nat) (t : Txn) : (serveLine s tag t).keeps s := by
  unfold serveLine
  split
  · exact Kept.refl s
  · exact serveWay_keeps _ _ _ _ _ _
  · next r ch ca _ =>
    split
    · exact Kept.refl s
    · have h := serveHbm_keeps s r ch ca t
      split
      · next he => rw [he] at h; exact Kept.trans h (Kept.of_eq (quarWritten_mem _ _))
      · exact h
  · exact serveRemote_keeps _ _ _ _ _ _

/-- Serving a request keeps the form. -/
theorem serve_keeps (tag : Nat) (t : Txn) : (serve s tag t).keeps s := by
  unfold serve
  split
  · exact serveLine_keeps _ _ _
  · have h := serveLine_keeps s tag t
    split
    · next he =>
      rw [he] at h
      refine Kept.trans h ?_
      split <;> exact Kept.of_eq (by simp)
    · exact h

theorem serveFetched_keeps (t : Txn) (l : Line) : (serveFetched s t l).keeps s := by
  unfold serveFetched
  dsimp only
  repeat' split
  all_goals first | exact Kept.refl s | trivial | skip
  next hw => exact (allocWay_kept _ hw).trans (Kept.of_eq (setWay_mem _ _ _ _ _))

theorem onServed_kept {s s0 : State} (h0 : Kept s0 s) (t : Txn) {r : Served} (h : r.keeps s0) : Kept s0 (onServed s t r) := by
  unfold onServed
  split
  · exact h0
  · exact Kept.trans h (Kept.of_eq (updTxn_mem _ _))
  · repeat' split
    all_goals exact Kept.trans h (Kept.of_eq (by simp))

theorem finishWrite_kept (t : Txn) (k n : Nat) : Kept s (finishWrite s t k n) := by
  unfold finishWrite
  dsimp only
  generalize hs : (if t.opc = 7 then setDir s t.addr .none else s) = s1
  have h1 : Kept s s1 := by rw [← hs]; split <;> exact Kept.of_eq (by simp)
  have h := serve_keeps s1 t.src.tag t
  split
  · next he => rw [he] at h; split <;> exact h1.trans (Kept.trans h (Kept.of_eq (by simp)))
  · next he => rw [he] at h; exact h1.trans (Kept.trans h (Kept.of_eq (by simp)))
  · exact h1.trans (Kept.of_eq (by simp))

theorem performAgent_kept (t : Txn) (k n o : Nat) : Kept s (performAgent s t k n o) := by
  unfold performAgent
  split
  · dsimp only
    repeat' split
    all_goals first | exact Kept.of_eq (by simp) | exact onServed_kept (Kept.refl s) t (serve_keeps s _ t)
  · dsimp only
    repeat' split
    all_goals exact Kept.of_eq (by simp)
  · dsimp only
    split
    · exact Kept.of_eq (by simp)
    · generalize hs : (if o ≥ 0x10 then setDir s t.addr .none else s) = s1
      have h1 : Kept s s1 := by rw [← hs]; split <;> exact Kept.of_eq (by simp)
      exact h1.trans (onServed_kept (Kept.refl _) t (serve_keeps _ _ t))

/-- The states dirty data on its way home may leave. -/
def HomeData.keeps (s : State) : HomeData → Prop
  | .home t _ => Kept s t
  | .away t _ => Kept s t
  | .hold => True

theorem dataHome_keeps (t : Txn) : (dataHome s t).keeps s := by
  unfold dataHome
  split
  · exact Kept.refl s
  · next l _ =>
    dsimp only
    have g := serve_keeps s 0x60001 { id := t.id, src := .posted 0, opc := 5, addr := t.line * 128, slice := t.slice, mask := BitVec.allOnes 128, data := l }
    split
    · next he => rw [he] at g; exact Kept.trans g (Kept.of_eq (by simp))
    · next he => rw [he] at g; exact g
    · trivial

theorem perform_kept (t : Txn) : Kept s (perform s t) := by
  unfold perform
  have h := dataHome_keeps s t
  split
  · exact Kept.refl s
  · next he => rw [he] at h; exact Kept.trans h (Kept.of_eq (updTxn_mem _ _))
  · next he =>
    rw [he] at h
    refine Kept.trans h ?_
    dsimp only
    repeat' split
    all_goals first
      | exact Kept.of_eq (by simp)
      | exact finishWrite_kept _ _ _ _
      | exact performAgent_kept _ _ _ _ _
      | exact onServed_kept (Kept.refl _) _ (serve_keeps _ _ _)
      | exact (Kept.of_eq (setDir_mem _ _ _)).trans (onServed_kept (Kept.refl _) _ (serve_keeps _ _ _))

@[simp] theorem passMeter_mem (t : Txn) : (passMeter s t).1.mem = s.mem := by
  unfold passMeter; dsimp only; split <;> [rfl; split] <;> simp

theorem sendSnoops_kept (t : Txn) : Kept s (sendSnoops s t) := by
  unfold sendSnoops
  dsimp only
  split
  · exact (Kept.of_eq (updTxn_mem _ _)).trans (perform_kept _ _)
  · exact (Kept.of_eq (updTxn_mem _ _)).trans (Kept.of_eq (mem_foldl (fun s a => post_mem s _ _) _ _))

/-- Letting a waiting transaction go keeps the form. -/
theorem runTxn_kept (id : Nat) : Kept s (runTxn s id) := by
  unfold runTxn
  split
  · exact Kept.refl s
  · next t _ =>
    split
    · exact Kept.refl s
    · split
      · exact Kept.of_eq (answer_mem _ _ _ _)
      · refine (Kept.of_eq (passMeter_mem s t)).trans ?_
        generalize passMeter s t = p
        obtain ⟨s1, t1⟩ := p
        dsimp only
        split
        · exact Kept.refl s1
        · split
          · exact perform_kept s1 t1
          · split
            · exact Kept.of_eq (answer_mem _ _ _ _)
            · split
              · exact Kept.refl s1
              · split
                · exact Kept.of_eq (answer_mem _ _ _ _)
                · cases hr : recallFor s1 t1 with
                  | none => exact sendSnoops_kept s1 t1
                  | some u => exact Kept.of_eq (recallFor_mem s1 hr)

theorem settle_kept : Kept s (settle s) := Kept.foldl (fun s (t : Txn) => runTxn_kept s t.id) _ _

theorem snoopAnswered_kept (id k n : Nat) (d : Option Line) : Kept s (snoopAnswered s id k n d) := by
  unfold snoopAnswered
  dsimp only
  repeat' split
  all_goals first
    | exact Kept.refl _
    | exact (Kept.of_eq (by simp : (updTxn (setDir s _ _) _).mem = s.mem)).trans (perform_kept _ _)
    | exact Kept.of_eq (by simp)

theorem dataArrived_kept (t : Txn) (m : BitVec 128) (d : Line) : Kept s (dataArrived s t m d) := by
  unfold dataArrived; split <;> [exact finishWrite_kept _ _ _ _; exact Kept.refl _]

@[simp] theorem remoteDone_mem (t : Txn) (st : Nat) (v : Line) : (remoteDone s t st v).mem = s.mem := by
  unfold remoteDone; (repeat' split) <;> simp

theorem dataAway_kept (t : Txn) (l : Line) : Kept s (dataAway s t l) := by
  unfold dataAway
  dsimp only
  repeat' split
  all_goals first
    | exact Kept.of_eq (remoteDone_mem _ _ _ _)
    | exact (Kept.of_eq (updTxn_mem _ _)).trans (perform_kept _ _)

theorem lineFetched_kept (t : Txn) (l : Line) : Kept s (lineFetched s t l) := by
  unfold lineFetched
  have h1 := serveFetched_keeps s t l
  split
  · next he => rw [he] at h1; exact Kept.trans h1 (Kept.of_eq (remoteDone_mem _ _ _ _))
  · have h2 := serve_keeps s t.src.tag { t with noalloc := true }
    split
    · next he => rw [he] at h2; exact Kept.trans h2 (Kept.of_eq (remoteDone_mem _ _ _ _))
    · next he => rw [he] at h2; exact Kept.trans h2 (Kept.of_eq (updTxn_mem _ _))
    · exact Kept.of_eq (updTxn_mem _ _)

theorem remoteArrived_kept (t : Txn) : Kept s (remoteArrived s t) := by
  unfold remoteArrived
  split
  · next o _ =>
    split
    · exact Kept.refl s
    · refine (Kept.of_eq (dropRop_mem s o.id)).trans ?_
      dsimp only
      repeat' split
      all_goals first
        | exact Kept.of_eq (remoteDone_mem _ _ _ _)
        | exact dataAway_kept _ _ _
        | exact lineFetched_kept _ _ _
  · exact Kept.refl s

theorem settleRemote_kept : Kept s (settleRemote s) := by
  unfold settleRemote
  refine Kept.trans (Kept.foldl (fun s t => ?_) _ _) (settle_kept _)
  repeat' split
  all_goals first | exact Kept.refl _ | exact remoteArrived_kept _ _

/-! ## The engines' and the hub's own accesses -/

@[simp] theorem accessTxn_mem (tag : Nat) (t : Txn) : (accessTxn s tag t).1.mem = s.mem := by unfold accessTxn; split <;> rfl
@[simp] theorem takeAnswer_mem (tag id : Nat) (t : Txn) : (takeAnswer s tag id t).1.mem = s.mem := by
  unfold takeAnswer; (repeat' split) <;> rfl

theorem access_kept (tag : Nat) (t : Txn) : Kept s (access s tag t).1 := by
  unfold access
  exact (Kept.of_eq (accessTxn_mem s tag t)).trans ((runTxn_kept _ _).trans (Kept.of_eq (takeAnswer_mem _ _ _ _)))

theorem readPart_kept (tag : Nat) (t : Txn) (n : Nat) : Kept s (readPart s tag t n).1 := access_kept _ _ _
theorem writePart_kept (tag : Nat) (t : Txn) (bs : List Byte) : Kept s (writePart s tag t bs).1 := access_kept _ _ _
theorem postWrite_kept (w pa : Nat) (bs : List Byte) : Kept s (postWrite s w pa bs) := by
  unfold postWrite; dsimp only; refine Kept.trans ?_ (runTxn_kept _ _); exact Kept.of_eq rfl

end Sys2Proof.Machine
end

