-- ==== Sys2Proof/Laws/Units.lean ====
section
/-!
SUPPORT. What raising a source, stopping a slice, translating, and the accesses of the engines and the hub do to memory: each keeps its
canonical form, and those that cannot write leave it as it is.
-/
namespace Sys2Proof.Machine

variable (s : State)

/-! ## Stops and raises -/

@[simp] theorem stopCore_mem (c n : Nat) (v : BitVec 64) : (stopCore s c n v).mem = s.mem := rfl
@[simp] theorem haltReq_mem (c : Nat) : (haltReq s c).mem = s.mem := by unfold haltReq; dsimp only; (repeat' split) <;> simp
@[simp] theorem resetCore_mem (c : Nat) : (resetCore s c).mem = s.mem := by unfold resetCore; split <;> simp
@[simp] theorem haltLaunched_mem (q : Nat) : (haltLaunched s q).mem = s.mem := mem_foldl (fun s c => by split <;> simp) _ _
@[simp] theorem abortCmd_mem (q : Nat) : (abortCmd s q).mem = s.mem := by unfold abortCmd; dsimp only; (repeat' split) <;> simp
@[simp] theorem squashSlice_mem (n : Nat) : (squashSlice s n).mem = s.mem := by
  unfold squashSlice; dsimp only
  rw [mem_foldl (fun s c => by simp), mem_foldl (fun s q => by simp)]
  rfl
@[simp] theorem beginReset_mem (n : Nat) (a b : Bool) : (beginReset s n a b).mem = s.mem := by
  unfold beginReset; dsimp only
  have h1 : ∀ (l : List Nat) (s : State), (l.foldl (fun s q => setQueue s q ((s.queue q).stop 5)) s).mem = s.mem := mem_foldl (fun s a => by simp)
  have h2 : ∀ (l : List Nat) (s : State), (l.foldl haltReq s).mem = s.mem := mem_foldl (fun s a => by simp)
  split
  · simp [h1, h2]
  · rw [mem_foldl (fun s q => by (repeat' split) <;> simp)]; simp [h1, h2]
@[simp] theorem fenceSlice_mem (n : Nat) : (fenceSlice s n).mem = s.mem := by unfold fenceSlice; dsimp only; (repeat' split) <;> simp
@[simp] theorem loseRecent_mem : (loseRecent s).mem = s.mem := rfl
@[simp] theorem enterSafe_mem (n : Nat) : (enterSafe s n).mem = s.mem := by
  unfold enterSafe; dsimp only
  split
  · rfl
  · have h : ∀ (l : List Nat) (s : State), (l.foldl (fun s p => emit s (.remoteFault p)) s).mem = s.mem := mem_foldl (fun s a => by simp)
    simp only [loseRecent_mem, endDebug_mem, h]
    split <;> rfl

theorem fcuSend_kept : Kept s (fcuSend s) := by
  unfold fcuSend; dsimp only
  generalize hs : (if bits s.fcu.irq 31 30 % 2 = 1 then sendMsix s (bits s.fcu.irq 10 0) else s) = s1
  have h1 : Kept s s1 := by rw [← hs]; split <;> exact Kept.of_eq (by simp)
  split
  · exact h1.trans (postWrite_kept _ _ _ _)
  · exact h1

theorem fcuInterrupt_kept : Kept s (fcuInterrupt s) := by
  unfold fcuInterrupt; dsimp only
  (repeat' split) <;> [exact Kept.refl s; exact Kept.of_eq rfl; exact Kept.of_eq rfl; exact fun h => fcuSend_kept _ h]

/-- An interrupt that waited for its record keeps the form. -/
theorem fcuLate_kept : Kept s (fcuLate s) := by
  unfold fcuLate; split <;> [exact fun h => fcuSend_kept _ h; exact Kept.refl s]

/-- The state a queueing of a record leaves. -/
def Queued.state : Queued → State
  | .ok s => s
  | .full s => s
  | .failed s => s

theorem queueRecord_kept (r : FaultRec) : Kept s (queueRecord s r).state := by
  unfold queueRecord; dsimp only
  split
  · exact Kept.of_eq rfl
  · split
    · exact Kept.of_eq rfl
    · exact (postWrite_kept s _ _ _).trans (Kept.of_eq rfl)

theorem react_kept (r : Nat) (e : Event) : Kept s (react s r e) := by
  unfold react; dsimp only
  have h : Kept s (if r ≥ 1 then fcuInterrupt s else s) := by split <;> [exact fcuInterrupt_kept s; exact Kept.refl s]
  generalize (if r ≥ 1 then fcuInterrupt s else s) = s1 at h ⊢
  split
  · exact h.trans (Kept.of_eq (fenceSlice_mem _ _))
  · exact h

theorem raiseOne_kept (n : Nat) (e : Event) : Kept s (raiseOne s n e).1 := by
  unfold raiseOne; dsimp only
  split
  · (repeat' split) <;> exact Kept.of_eq (by simp)
  · split
    · refine Kept.trans ?_ (react_kept _ _ _); exact Kept.of_eq rfl
    · split
      · refine Kept.trans ?_ (react_kept _ _ _); exact Kept.of_eq rfl
      · generalize hs : keepRecord _ _ _ = s1
        have h1 : Kept s s1 := by rw [← hs]; exact Kept.of_eq rfl
        have h := queueRecord_kept s1 (makeRecord { s with fcu := { s.fcu with sticky := s.fcu.sticky ||| (1#1536 <<< n) } } n (reactionOf { s with fcu := { s.fcu with sticky := s.fcu.sticky ||| (1#1536 <<< n) } } n) e)
        split <;> next he => rw [he] at h; exact h1.trans (Kept.trans h (react_kept _ _ _))

/-- Raising a source keeps the form. -/
theorem raise_kept (n : Nat) (e : Event) : Kept s (raise s n e) := by
  unfold raise
  have h := raiseOne_kept s n e
  generalize raiseOne s n e = r at h ⊢
  obtain ⟨s1, m⟩ := r
  dsimp only at h ⊢
  split
  · exact h
  · next k =>
    split
    · exact h
    · have h2 := h.trans (raiseOne_kept s1 k {})
      generalize raiseOne s1 k {} = r at h2 ⊢
      obtain ⟨s2, m2⟩ := r
      dsimp only at h2 ⊢
      split
      · split
        · exact h2
        · exact h2.trans (raiseOne_kept _ _ _)
      · exact h2

/-! ## Sites whose traffic is resolved -/

@[simp] theorem dropWalk_mem (key : Nat) : (dropWalk s key).mem = s.mem := by unfold dropWalk; split <;> rfl
@[simp] theorem poisonLine_mem (pa : Nat) : (poisonLine s pa).mem = s.mem := by unfold poisonLine; dsimp only; (repeat' split) <;> rfl

theorem resolveSite_kept (k : Nat) : Kept s (resolveSite s k) := by
  unfold resolveSite; dsimp only
  refine Kept.trans ?_ (settle_kept _)
  refine Kept.trans ?_ (Kept.of_eq (setDk_mem _ _ _))
  refine Kept.trans ?_ (Kept.foldl (fun s p => by (repeat' split) <;> exact Kept.of_eq (by simp)) _ _)
  refine Kept.trans ?_ (Kept.foldl (fun s t => by split <;> [exact snoopAnswered_kept _ _ _ _ _; exact Kept.refl s]) _ _)
  exact Kept.trans (Kept.foldl (fun s t => Kept.of_eq (dropWalk_mem _ _)) _ s) (Kept.of_eq rfl)

theorem retireCore_kept (c : Nat) (f : Bool) : Kept s (retireCore s c f) := by
  unfold retireCore; dsimp only
  split
  · exact Kept.refl s
  · generalize hu : List.foldl _ _ _ = u
    have h : Kept s u := by
      rw [← hu]
      exact Kept.trans (Kept.of_eq (setCore_mem _ _ _)) (Kept.foldl (fun s a => Kept.of_eq (stopCore_mem _ _ _ _)) _ _)
    have h1 : Kept s { u with glb := { u.glb with retiredCores := u.glb.retiredCores + 1, retiredUnits := u.glb.retiredUnits + 1 } } :=
      h.trans (Kept.of_eq rfl)
    have h2 := h1.trans (raise_kept _ (256 + c)
      { slice := (sliceOfCore { u with glb := { u.glb with retiredCores := u.glb.retiredCores + 1, retiredUnits := u.glb.retiredUnits + 1 } } c).getD 0xFF
        unit := (logicalOf { u with glb := { u.glb with retiredCores := u.glb.retiredCores + 1, retiredUnits := u.glb.retiredUnits + 1 } } c).getD 0 })
    repeat' split
    all_goals first
      | exact h2
      | exact h2.trans (raise_kept _ _ _)

@[simp] theorem feltLeaves_mem (k : Nat) : (feltLeaves s k).mem = s.mem := by unfold feltLeaves; split <;> rfl
@[simp] theorem failChannels_mem (k : Nat) : (failChannels s k).mem = s.mem := by
  unfold failChannels
  generalize (List.range 32).map (fun i => 32 * (k - 8) + i) = cs
  split
  · rfl
  · exact mem_foldl (fun s c => setChan_mem s c 3) cs s

/-- The failure of a site keeps the form. -/
theorem failSite_kept (k : Nat) (e : Bool) : Kept s (failSite s k e) := by
  unfold failSite; dsimp only
  refine Kept.trans ?_ (settle_kept _)
  have h1 : Kept s (resolveSite (setSite s k { s.site k with state := 6, unitsUp := 0, linkErr := (s.site k).linkErr || e, stopAt := none }) k) :=
    (Kept.of_eq (setSite_mem _ _ _)).trans (resolveSite_kept _ _)
  generalize resolveSite _ k = s1 at h1 ⊢
  have h2 : Kept s1 (failChannels (feltLeaves s1 k) k) := Kept.of_eq (by simp)
  generalize failChannels (feltLeaves s1 k) k = s2 at h2 ⊢
  have h3 : Kept s2 (if stepDone s2 3 then raise s2 (80 + k) { unit := k } else s2) := by
    split <;> [exact raise_kept _ _ _; exact Kept.refl _]
  generalize (if stepDone s2 3 then _ else s2) = s3 at h3 ⊢
  refine h1.trans (h2.trans (h3.trans ?_))
  split <;> [exact Kept.foldl (fun s c => retireCore_kept _ _ _) _ _; exact Kept.refl _]

/-- A fatal error of a site keeps the form. -/
theorem dkFatal_kept (k code cls opc : Nat) : Kept s (dkFatal s k code cls opc) := by
  unfold dkFatal; dsimp only
  exact (Kept.of_eq (setDk_mem _ _ _)).trans ((raise_kept _ _ _).trans (failSite_kept _ _ _))

/-! ## Translation -/

@[simp] theorem recordFault_mem (n a p l ac r : Nat) : (recordFault s n a p l ac r).mem = s.mem := by unfold recordFault; dsimp only; split <;> rfl
@[simp] theorem install_mem (e : TlbEntry) : (install s e).mem = s.mem := by unfold install; dsimp only; (repeat' split) <;> rfl
@[simp] theorem microInstall_mem (p : Nat) (e : TlbEntry) : (microInstall s p e).mem = s.mem := rfl
@[simp] theorem cacheTable_mem (n d l t : Nat) : (cacheTable s n d l t).mem = s.mem := by unfold cacheTable; dsimp only; (repeat' split) <;> rfl
@[simp] theorem keepWalk_mem (w : GtuWalk) : (keepWalk s w).mem = s.mem := rfl
@[simp] theorem countWalk_mem (n : Nat) (p : Bool) : (countWalk s n p).mem = s.mem := rfl

theorem readEntry_kept (n t a i l : Nat) : Kept s (readEntry s n t a i l).1 := by
  unfold readEntry; dsimp only
  have h := readPart_kept s t { id := 0, src := .engine t, opc := 4, addr := a + i * 8, reg := n, ini := 206 } 8
  repeat' split
  all_goals first | exact Kept.refl s | exact h

theorem contLeaf_kept (n t a d e : Nat) : Kept s (contLeaf s n t a d e).1 := by
  unfold contLeaf; dsimp only
  have h := readEntry_kept s n t a ((d >>> 12) % 512 / 16 * 16) 0
  repeat' split
  all_goals exact h

theorem walkRun_kept (w : GtuWalk) (d f : Nat) : Kept s (walkRun s w d f).1 := by
  induction f generalizing s w with
  | zero => exact Kept.refl s
  | succ f ih =>
    unfold walkRun
    split
    · exact contLeaf_kept _ _ _ _ _ _
    · dsimp only
      have h := readEntry_kept s w.slice (walkTag w.key) w.table ((d >>> (12 + 9 * w.level)) % 512) w.level
      repeat' split
      all_goals first
        | exact h
        | exact h.trans (ih _ _)
        | exact h.trans ((Kept.of_eq (cacheTable_mem _ _ _ _ _)).trans (ih _ _))

theorem walk_kept (key n d : Nat) (p : Bool) : Kept s (walk s key n d p).1 := by
  unfold walk; dsimp only
  split
  · exact Kept.of_eq (dropWalk_mem _ _)
  · generalize hu : (if (List.find? _ s.gtu.walks).isSome = true then s else dropWalk s key) = u
    have h : Kept s u := by rw [← hu]; split <;> [exact Kept.refl s; exact Kept.of_eq (dropWalk_mem _ _)]
    split
    · exact h.trans (Kept.of_eq (keepWalk_mem _ _))
    · split
      · exact (h.trans (walkRun_kept u _ d 6)).trans (Kept.of_eq (keepWalk_mem _ _))
      · exact (h.trans (walkRun_kept u _ d 6)).trans (Kept.of_eq (dropWalk_mem _ _))

theorem lookupOrWalk_kept (key n d : Nat) (p : Bool) : Kept s (lookupOrWalk s key n d p).1 := by
  unfold lookupOrWalk
  have h := walk_kept s key n d p
  split
  · exact Kept.of_eq (dropWalk_mem _ _)
  · split
    · next he => rw [he] at h; exact h
    · next he => rw [he] at h; exact Kept.trans h (Kept.of_eq (by simp))
    · next he => rw [he] at h; refine Kept.trans h ?_; dsimp only; split <;> exact Kept.of_eq (by simp)

theorem portLookup_kept (key n p d : Nat) : Kept s (portLookup s key n p d).1 := by
  unfold portLookup
  have h := lookupOrWalk_kept s key n d false
  split
  · exact Kept.refl s
  · split
    · next he => rw [he] at h; exact Kept.trans h (Kept.of_eq (by simp))
    · exact h

/-- A translation keeps the form: what it may write are lines a walk's read evicts. -/
theorem translate_kept (key n p a d : Nat) : Kept s (translate s key n p a d).1 := by
  unfold translate; dsimp only
  have h := portLookup_kept s key n p d
  repeat' split
  all_goals first
    | exact Kept.refl s
    | exact h
    | exact Kept.of_eq (recordFault_mem _ _ _ _ _ _ _)
    | exact h.trans (Kept.of_eq (recordFault_mem _ _ _ _ _ _ _))

theorem translateAll_kept (key n p d : Nat) (l : List Nat) (r : Tr) : Kept s (translateAll key n p d l s r).1 := by
  induction l generalizing s r with
  | nil => exact Kept.refl s
  | cons a l ih =>
    unfold translateAll
    have h := translate_kept s key n p a d
    split
    · next he => rw [he] at h; exact h.trans (ih _ _)
    · exact h

theorem translateTxn_kept (id : Nat) : Kept s (translateTxn s id) := by
  unfold translateTxn
  split
  · exact Kept.refl s
  · next t _ =>
    split
    · next sl _ _ =>
      dsimp only
      have h := fun port => translateAll_kept s t.src.tag sl port t.addr (opcAccesses t.opc) (.pa 0 false)
      repeat' split
      all_goals first
        | exact h _
        | exact (h _).trans (Kept.of_eq (refuse_mem (dropTxn _ _) _ _ _ _ _ _))
        | exact (h _).trans (Kept.of_eq (dropTxn_mem _ _))
        | exact (h _).trans ((Kept.of_eq (dropTxn_mem _ _)).trans (dkFatal_kept _ _ _ _ _))
    · exact Kept.refl s

/-- Letting everything that waits go, which ends most commands, keeps the form. -/
theorem settleAll_kept : Kept s (settleAll s) :=
  ((Kept.foldl (fun s (t : Txn) => translateTxn_kept s t.id) _ _).trans (settleRemote_kept _)).trans (fcuLate_kept _)

/-! ## Engines and the hub -/

theorem Eng.translate_kept (e : Eng) (a d : Nat) : Kept s (e.translate s a d).1 := by
  unfold Eng.translate
  split
  · exact Machine.translate_kept _ _ _ _ _ _
  · split
    · exact Kept.of_eq (recordFault_mem _ _ _ _ _ _ _)
    · split <;> [exact Kept.of_eq (recordFault_mem _ _ _ _ _ _ _); exact Machine.translate_kept _ _ _ _ _ _]

theorem Eng.read_kept (e : Eng) (a n : Nat) : Kept s (e.read s a n).1 := by
  unfold Eng.read; dsimp only
  have h := Eng.translate_kept s e 0 a
  repeat' split
  all_goals first | exact h | exact h.trans (readPart_kept _ _ _ n)

theorem Eng.write_kept (e : Eng) (a : Nat) (bs : List Byte) : Kept s (e.write s a bs).1 := by
  unfold Eng.write; dsimp only
  have h := Eng.translate_kept s e 1 a
  repeat' split
  all_goals first | exact h | exact h.trans (writePart_kept _ _ _ _)

theorem Eng.atomic_kept (e : Eng) (a o x : Nat) : Kept s (e.atomic s a o x).1 := by
  unfold Eng.atomic; dsimp only
  have h := Eng.translate_kept s e 2 a
  repeat' split
  all_goals first | exact h | exact h.trans (access_kept _ _ _)

theorem Eng.readSpan_kept (e : Eng) (f a n : Nat) : Kept s (e.readSpan f s a n).1 := by
  induction f generalizing s a n with
  | zero => exact Kept.refl s
  | succ f ih =>
    unfold Eng.readSpan; dsimp only
    have h := Eng.read_kept s e a (lineRest a n)
    repeat' split
    all_goals first | exact Kept.refl s | exact h | exact h.trans (ih _ _ _)

theorem Eng.writeSpan_kept (e : Eng) (f a : Nat) (bs : List Byte) : Kept s (e.writeSpan f s a bs).1 := by
  induction f generalizing s a bs with
  | zero => exact Kept.refl s
  | succ f ih =>
    unfold Eng.writeSpan; dsimp only
    have h := Eng.write_kept s e a (bs.take (lineRest a bs.length))
    repeat' split
    all_goals first | exact Kept.refl s | exact h | exact h.trans (ih _ _ _)

theorem Hub.read_kept (h : Hub) (f a n : Nat) : Kept s (h.read f s a n).1 := by
  induction f generalizing s a n with
  | zero => exact Kept.refl s
  | succ f ih =>
    unfold Hub.read; dsimp only
    have g := readPart_kept s h.tag (h.txn a) (lineRest a n)
    repeat' split
    all_goals first | exact Kept.refl s | exact g | exact g.trans (ih _ _ _)

theorem Hub.write_kept (h : Hub) (f a : Nat) (bs : List Byte) : Kept s (h.write f s a bs).1 := by
  induction f generalizing s a bs with
  | zero => exact Kept.refl s
  | succ f ih =>
    unfold Hub.write; dsimp only
    have g := writePart_kept s h.tag (h.txn a) (bs.take (lineRest a bs.length))
    repeat' split
    all_goals first | exact Kept.refl s | exact g | exact g.trans (ih _ _ _)

theorem flushLine_kept (tag sl line : Nat) : Kept s (flushLine s tag sl line) := by
  unfold flushLine; dsimp only
  split
  · split <;> exact Kept.of_eq rfl
  · split
    · exact Kept.refl s
    · next h => exact Kept.trans (writeBackFor_kept s h) (Kept.of_eq rfl)

theorem flushOwed_kept (tag sl : Nat) : Kept s (flushOwed s tag sl) := by
  unfold flushOwed
  have h : ∀ (s : State) (p : Nat × Nat), Kept s (flushLine s tag sl p.2) := fun s p => flushLine_kept s tag sl p.2
  exact Kept.foldl h _ s

theorem finishWrites_kept (tag sl : Nat) : Kept s (finishWrites s tag sl).1 := by
  unfold finishWrites; dsimp only
  have h := flushOwed_kept s tag sl
  repeat' split
  all_goals exact h

@[simp] theorem endWork_mem (tag : Nat) : (endWork s tag).mem = s.mem := rfl

end Sys2Proof.Machine
end

