-- ==== Sys2Proof/Tests/Slice0.lean ====
section
/-!
SUPPORT. Tests: what WellFormed refuses, the effect of single commands against the spec, and for every obligation with hypotheses a state and
operands that meet them, clause by clause.
-/
namespace Sys2Proof.Tests
open Sys2Proof Sys2Proof.Machine
set_option Elab.async false
set_option maxRecDepth 20000
set_option linter.unusedVariables false

/-- The module at work: out of POR_N, clocks running, every site UP, cores numbered. -/
def up : State :=
  { pins := { porN := true }, clk := { rootLock := true }, fuses := fusesAtReset, glb := { open_ := true, sensed := true, logical := List.range 144 }
    sites := (List.range 16).map (fun k => (k, { state := 4 })) }

/-- A bundle with one word. -/
def bundle (k w : Nat) : Nat := 2 ^ k + 2 ^ 28 + w <<< (([32, 96, 160, 256, 352, 448] : List Nat)[k]?.getD 0)

/-- Bytes of a number in a table. -/
def bytesAt (at' n v : Nat) : Tab Byte := ((leBytes n v).zipIdx.map (fun p => (at' + p.2, p.1))).filter (fun p => p.2 ≠ 0)

/-- Core 5 about to issue that bundle. -/
def about (k w : Nat) (x : Core := {}) : State := { up with cores := [(5, { x with st := .running, imem := bytesAt 0 64 (bundle k w) })] }

/-- A Chart: every site enabled, one region of all channels from address 0, slice 3 with queues 32 to 47 and every core, one port. -/
def chart : Chart :=
  { sites := List.replicate 16 { enable := 1, expect := 0, degradedOk := 1 }, moduleId := 7
    regions := [{ num := 0, interleave := 0, target := 0, granule := 256, hash := false, cache := true, remoteCacheable := false, scrub := true, sharedRo := false
                  stash := true, base := 0, size := 0x40000000, readMask := BitVec.allOnes 64, writeMask := BitVec.allOnes 64, owner := 3, hostAccess := 15 }]
    slices := [{ slice := 3, squash := false, share := 0, qFirst := 32, qCount := 16, regionMask := 1, cores := BitVec.allOnes 144 }]
    ports := [{ port := 2, width := 0, axis := 0, traffic := 3, medium := 0 }] }

/-- The module at work under that Chart, its channels in service. -/
def work : State :=
  { up with chart := { state := 5, epoch := 1, applied := some chart }, mcs := (List.range 128).map (fun k => (k, { ch0 := 1, ch1 := 1 })) }

/-- With the directory ready, slice 3 bound and the first GiB of its addresses mapped to the region. -/
def mapped : State :=
  { work with glb := { work.glb with dir := true }
              slices := [(3, { state := 2, pasid := 9, gen := 1 })]
              gtu := { tlb := [{ slice := 3, va := 0, size := 0x40000000, pa := 0, r := true, w := true, a := true, noalloc := false }] } }

/-- Core 5 with a descriptor at the head of its queue 2. -/
def moving (d : TmDesc) : State := { mapped with cores := [(5, { st := .running, tq := [(2, { q := [d] })] })] }

/-- Little-endian fields, as offset, bytes and value. -/
def fields (n : Nat) (fs : List (Nat × Nat)) : BitVec n := BitVec.ofNat n (fs.foldl (fun a f => a + f.2 <<< (8 * f.1)) 0)

/-- A command slot of an opcode, and the command in progress of it. -/
def slotOfOp (opc : Nat) (fs : List (Nat × Nat)) : BitVec 2048 := fields 2048 ((0, opc) :: fs)
def cmdOfOp (opc : Nat) (fs : List (Nat × Nat)) : Cmd := { own := slotOfOp opc fs, raw := slotOfOp opc fs }

/-- Queue 33 with a command in progress. -/
def busy (c : Cmd) : State := { mapped with queues := [(33, { state := 1, cmd := some c })] }

/-- The module at work with no Chart, and a management session 1. -/
def charted : State := { up with mgmt := { link := true, sessions := [{ id := 1, anchor := 0 }] } }

/-- With the tables of slice 3 at address 0: entry 0 of the page names the page again, entry 1 is a leaf to address 0. -/
def tabled : State :=
  { work with glb := { work.glb with dir := true }, slices := [(3, { state := 2, pasid := 9, gen := 1 })], gtu := { ctx := [(3, { root := 1 })] }, mem := [(0, 1), (8, 15)] }

/-- A port of site `k` with credits both ways; site 0 is a customer's die with agents. -/
def many : Credits := { req := 9, snp := 9, rsp := 9, dat := 9, mgt := 3, time := 3 }
def linked (k : Nat) (d : Dk) : State :=
  { mapped with fuses := { fusesAtReset with codes := Tab.set 0 fusesAtReset.codes 0 8 }, sites := Tab.set {} mapped.sites k { state := 4, dk := d } }
def open' : Dk := { siteInit := true, hubInit := true, hub := many, site := many, granted := many, units := 24, caching := true }
/-- A message of a site, its fields given as lowest bit and value. -/
def header (site : Fin 8) (cls opc : Nat) (fs : List (Nat × Nat)) : DkIn := { site := site, hdr := BitVec.ofNat 128 (fs.foldl (fun a f => a + f.2 <<< f.1) (cls + opc * 16)) }
/-- What a site's message leaves. -/
def got (s : State) (k cls opc : Nat) : State := ((arrive s k cls opc).getD (s, false)).1
theorem got_of {s : State} {k c o : Nat} (h : (arrive s k c o).map (·.2) = some true) : arrive s k c o = some (got s k c o, true) := by
  unfold got
  cases e : arrive s k c o with
  | none => rw [e] at h; cases h
  | some p => rw [e] at h; obtain ⟨u, b⟩ := p; cases h; rfl
theorem came_got {s : State} {m : DkIn} {c o : Nat} {used : List (Nat × Nat)}
    (h : (m.cls.toNat = c ∧ m.opc.toNat = o) ∧ m.plain used = true ∧ (arrive s m.site c o).map (·.2) = some true) :
    came s (got s m.site c o) m c o used := ⟨h.1.1, h.1.2, h.2.1, got_of h.2.2⟩

/-- A queue of sixteen slots with one slot pending at its front, at address 0. -/
def pendingSlot (b : BitVec 2048) (x : Queue) : State :=
  { mapped with queues := [(33, { x with ring := 4, state := 1, prod := 1 })], mem := bytesAt 0 256 b.toNat }
/-- A region of another module, of every owner. -/
def far : Region :=
  { num := 1, interleave := 5, target := 0, granule := 256, hash := false, cache := true, remoteCacheable := true, scrub := false, sharedRo := false
    stash := false, base := 0x20000000000, size := 0x40000000, readMask := BitVec.allOnes 64, writeMask := BitVec.allOnes 64, owner := 3, hostAccess := 0 }
def distantChart : Chart := { chart with regions := chart.regions ++ [far], slices := chart.slices.map (fun r => { r with regionMask := 3 }) }
/-- A state under a Chart with that region. -/
def distant (s : State) : State := { s with chart := { state := 5, epoch := 1, applied := some distantChart } }

/-- A CAL_RUN of `n` elements on engine 0 whose program loads and stores operand 0, in BF16 at 0x1000. -/
def calCmd (n : Nat) : Cmd := cmdOfOp 0x11 [(0x10, 1), (0x14, 16), (0x20, 0x100), (0x30, n)]
def calMem : Tab Byte := [(0, 1), (8, 2), (2 ^ 32, 1), (2 ^ 32 + 0x21, 2), (2 ^ 32 + 0x40, 1), (2 ^ 32 + 0x41, 3), (2 ^ 32 + 0x49, 0x10)]
def calTable : List Byte := (List.range 96).map (fun i => if i = 0 ∨ i = 0x40 then 1 else if i = 0x21 then 2 else if i = 0x41 then 3 else if i = 0x49 then 0x10 else 0)
def calRun' (ws : List Nat) : CalRun := { queue := 33, slice := 3, mask := 1, started := true, prog := ws, table := calTable, finished := 0xFE }
def calAt (n : Nat) (r : CalRun) : State := { busy (calCmd n) with runs := [r], mem := calMem, cals := [(0, { running := true, queue := 33 })] }
/-- A chunk that executes. -/
def calNow : CalChunk := { chunk := 0, stack := 0, phase := 1, regs := [(0, 0x3F800000), (16, 0x40000000)], loads := [(0, 0x3F80), (1, 0x7FC0)] }

/-- Module 7, in job 3 with module 5, which `lead` names, over port 2 of axis 0. -/
def jobbed (lead : Nat) : State :=
  { mapped with nx := { axis := [(0, 0x100400)], ports := [(2, { state := 2 })], nextOpid := 40
                        jobs := [(3, { state := 2, tag := 9, leader := lead, members := [{ module := 5, digest := 1 }, { module := 7, digest := 2 }], keys := [0] })]
                        conns := [(connKey 3 5, { state := 1, sendPsn := 4 })] } }
/-- A packet of module 5. -/
def pkt (addr opid : Nat) (aux : BitVec 16) (pay : List Byte) : NxPkt :=
  { port := 2, keyId := 0, jobTag := 9, src := 5, dst := 7, flags := 0, psn := 0, addr := BitVec.ofNat 64 addr, opid := BitVec.ofNat 32 opid, aux := aux, payload := pay, auth := true }
def rxd (s : State) (p : NxPkt) : State := (received s p false).1
def psnd (s : State) (p : NxPkt) : State := (takePsn (rxd s p) 3 5 p.psn.toNat).1
/-- An operation to module 5. -/
def rop (kind : Nat) : ROp := { id := 40, tag := 33, target := .fabric 3 5 0, kind := kind, addr := 0x20000000000, len := 128 }
/-- A state with a connection, and with a job slot. -/
def conned (c : Conn) : State := { jobbed 7 with nx := { (jobbed 7).nx with conns := [(connKey 3 5, c)] } }
/-- A window on module 5, and the state after a write of 8 bytes through it by queue 33. -/
def farWin : Region := { far with num := 9 }
def packed : State :=
  match startFabric { jobbed 7 with nx := { (jobbed 7).nx with rwinCtl := [(9, 0x8000000000000005)], rwinBase := [(9, 0x400000000)] } } 33 3 1 farWin 0x20000000000 5 0 0 0
    0 0xFF true false with
  | .sent s => s
  | _ => jobbed 7
def packedPkt : TxPkt := ((packed.conn 3 5).unacked.getLast?).getD { psn := 0, opc := 0, opid := 0, addr := 0, aux := 0, flags := 0, payload := [], port := 0, sentAt := 0 }
def withJob (j : Job) : State := { jobbed 7 with nx := { (jobbed 7).nx with jobs := [(3, j)] } }
/-- A COLLECTIVE of that job over axis 0 of two modules, an INT32 sum. -/
def pairAxis : State := { jobbed 7 with nx := { (jobbed 7).nx with axis := [(0, 0x20101)] } }
def collCmd (op : Nat) : Cmd := cmdOfOp 0x12 [(0x10, op), (0x12, 8), (0x18, 0x1000), (0x20, 0x2000), (0x28, 2)]

/-- Survey at work after OPEN. -/
def surveyed (ts : List (SurveyUnit × Nat)) : State := { mapped with tel := { surveyOn := true, testing := ts }, cores := [(5, { st := .halted, imem := [(3, 7)], x := [(1, 9)] })] }

/-- With the host's link up. -/
def hosted : State := { mapped with pcie := { dlUp := true, speed := 6, width := 16, fullWidth := 16, bar4Log2 := 30 } }
/-- An operation to the host. -/
def hop (kind : Nat) : ROp := { id := 40, tag := 33, target := .host 0x5008 none, kind := kind, addr := 0x20000000000, len := 128 }
def hostRop (o : ROp) : State := { hosted with rops := [o] }

/-- Slice 3 in a state of its own. -/
def sliced (x : Slice) : State := { mapped with slices := [(3, x)] }
/-- Slice 3 with a valid context, and slice 4 bound to PASID 5 (under a Chart that defines both). -/
def bindable (x : Slice) : State :=
  { mapped with slices := [(3, x), (4, { state := 2, pasid := 5 })], gtu := { mapped.gtu with ctx := [(3, { root := 1 })] } }
/-- An INTEGRATOR's module, and a MAKER's, with a management session. -/
def integrator : State := { charted with fuses := { fusesAtReset with stripes := Tab.set 0 fusesAtReset.stripes 65 0 } }
def maker : State := { charted with fuses := { fusesAtReset with stripes := Tab.set 0 (Tab.set 0 fusesAtReset.stripes 65 0) 64 0 } }
/-- The module at work with a management session 1. -/
def managed : State := { mapped with mgmt := { link := true, sessions := [{ id := 1, anchor := 0 }], nextId := 2 } }
/-- A core's registers under debug. -/
def debugged : State := { maker with cores := [(5, { st := .halted, x := [(3, 0x123456789)] })] }
/-- Bytes of a debug token's head. -/
def tokenHead : Tab Byte := [(0, 0x5A), (1, 0x47), (2, 0x44), (3, 0x43), (4, 1), (6, 1), (0x3C, 1)]
/-- A register's address. -/
def regAt (a : Nat) : BitVec 26 := BitVec.ofNat 26 a
/-- What a read answers. -/
def readOf (r : Eres) : List Byte := match r with | .ok b => b | _ => []
/-- The state or data an operation of the model leaves. -/
def wroteTo : RecStep → State | .wait v _ => v | .written v => v | .failed v => v
def waitsFlushed : RecStep → Bool | .wait _ b => b | _ => false
theorem waits_of {r : RecStep} (h : waitsFlushed r = true) : r = .wait (wroteTo r) true := by
  cases r with
  | wait v b => cases h; rfl
  | _ => cases h
def partOf : Part → State | .ok v _ _ _ => v | .hold v => v | .fail v _ _ => v
def gotOf : Got → BitVec 1024 | .ok b => b | _ => 0
def tablesOf : Tables → List Nat × List Byte × List Byte × List Byte × List Byte | .ok a b c d e => (a, b, c, d, e) | _ => ([], [], [], [], [])
def leftOf {α β : Type} (d : α) : α ⊕ β → α | .inl a => a | _ => d

/-- Every port UP and carrying RoCE, and QP 5 waiting for PSN 7. -/
def allPorts : State :=
  { mapped with nx := { ports := (List.range 128).map (fun p => (p, { state := 2 })), qps := [(5, { state := 1, psn := some 7 })] }
                chart := { state := 5, epoch := 1, applied := some { chart with ports := (List.range 128).map (fun p => { port := p, width := 0, axis := 0, traffic := 3, medium := 0 }) } } }
theorem pair {α β : Type} (p : α × β) {b : β} (h : p.2 = b) : p = (p.1, b) := h ▸ rfl

/-! ## What WellFormed refuses -/

def longPkt : NxPkt :=
  { port := 2, keyId := 0, jobTag := 9, src := 5, dst := 7, flags := 0, psn := 0, addr := 0, opid := 0, aux := 0, payload := List.replicate 4097 0, auth := true }
def longRoce : RocePkt :=
  { port := 2, qp := 5, psn := 7, rkey := 0, va := 0, len := 0, imm := 0, payload := List.replicate 4097 0, ecn := false }
/-- Meridian payloads of more than PAYLOAD_MAX. -/
theorem test_refused_meridian :
    ([.nxWrite longPkt, .readReq longPkt, .readResp longPkt, .nxAtomicAdd longPkt, .nxAtomicSwap longPkt, .nxAtomicCas longPkt, .nxAtomicMin longPkt,
      .nxAtomicMax longPkt, .atomicResp longPkt, .comp longPkt, .collData longPkt, .collHeader longPkt, .collAbandon longPkt, .tack longPkt,
      .keepalive longPkt, .nxOpen longPkt, .keyExch longPkt .hello 0 true, .timeReq 0 (some longPkt), .timeResp longPkt] : List Instr).all
      (fun i => !WellFormed i) = true := by decide +kernel
/-- RoCE payloads of more than a path MTU. -/
theorem test_refused_roce :
    ([.roceSend longRoce, .roceSendImm longRoce, .roceRdmaWrite longRoce, .roceRdmaWriteImm longRoce, .roceRdmaRead longRoce,
      .roceUnsupported longRoce] : List Instr).all (fun i => !WellFormed i) = true := by decide +kernel
theorem test_refused_training :
    WellFormed (.siteTrainingDone 0 (List.replicate 17 {}) 0) = false := by decide +kernel
theorem test_refused_bar4 :
    (WellFormed (.bar4Read 0 0), WellFormed (.bar4Read 0 4097), WellFormed (.bar4Write 0 [] false), WellFormed (.bar4Write 0 (List.replicate 513 0) false)) =
      (false, false, false, false) := by decide +kernel
theorem test_refused_management :
    (WellFormed (.regWrite 1 0 0 (List.replicate 513 0)), WellFormed (.memWrite 1 0 0 (List.replicate 65537 0))) = (false, false) := by decide +kernel
theorem test_refused_ageing : WellFormed (.ageingMeasurement (List.replicate 49 (0, 0))) = false := by decide +kernel
theorem test_refused_debug :
    (WellFormed (.debugAccess (.tileWrite 0 0 (List.replicate 256 0))), WellFormed (.debugAccess (.imemWrite 0 0 (List.replicate 256 0))),
      WellFormed (.debugAccess (.memWrite 0 (List.replicate 256 0)))) = (false, false, false) := by decide +kernel
theorem test_refused_bank :
    (WellFormed (.surveyTestStart (.bank 0 32)), WellFormed (.surveySegmentDone (.bank 0 32) true), WellFormed (.surveyDeadline (.bank 0 32))) =
      (false, false, false) := by decide +kernel
theorem test_accepted :
    (WellFormed (.bar4Write 0 (List.replicate 512 0) true), WellFormed (.surveyTestStart (.bank 0 31)), WellFormed (.regWrite 1 0 0 (List.replicate 512 0)),
      WellFormed (.bar4Read 0 4096)) = (true, true, true, true) := by decide +kernel

/-! ## Single commands on small states, from the spec's tables and examples -/

/-- The next state of a command, the state itself where there is none. -/
def after (i : Instr) (s : State) : State := match exec i s with | .next t => t | _ => s
/-- X register `n` of core 5 after a command. -/
def xAfter (i : Instr) (s : State) (n : Nat) : Word := ((after i s).core 5).xr n

/-- The encoded bundle of "An encoded bundle": its eight 64-bit words. -/
def bookBundle : Nat :=
  ([0x00014A111000002D, 0x8000, 0x0003041000000000, 0x0000004000000000, 0x0001C481C6200004, 0, 0, 0x0000800006AC2802] : List Nat).zipIdx.foldl
    (fun a p => a + p.1 <<< (64 * p.2)) 0
/-- Core 5 about to issue it: X10 = 0x1000, X11 = 0x2000, X12 = the base of its own tile, X13 = 0, V6 and V7 hold 2 and 3, V8 holds 1, P1 all ones. -/
def bookCore : Core :=
  { st := .running, imem := bytesAt 0 64 bookBundle, x := [(10, 0x1000), (11, 0x1402000), (12, 0x1400000)],
    v := [(6, 0x40000000), (7, 0x40400000), (8, 0x3F800000)], p := [(1, 1)], tmem := [(0x40, 0xAB)] }
def bookState : State := { up with cores := [(5, bookCore)] }
/-- One command of the bundle issues all its four operations: ADDI, VLD, VFMA (2 × 3 + 1 = 7) and MMA. -/
theorem test_encoded_bundle :
    let x := (after (.addi 5 0 10 10 0x8000) bookState).core 5
    (x.xr 10, (x.vr 4).toNat, (x.vr 8).toNat % 2 ^ 32, x.matq.length, x.pc.toNat) = (0x9000, 0xAB, 0x40E00000, 1, 64) := by decide +kernel
theorem test_encoded_bundle_fields :
    xF (slotOf bookBundle 5) = { xF 0 with opc := 2, z := 1, fmt := 1, ra := 11, rs := 13, rows := 128 } := by decide +kernel

/-- R98: OPC 0x01 at bit 0, RD at 8, RS1 at 13, RS2 at 18. ADD wraps at 2^64. -/
theorem test_add : xAfter (.add 5 0 3 1 2) (about 0 (0x01 + 3 * 2 ^ 8 + 1 * 2 ^ 13 + 2 * 2 ^ 18) { x := [(1, 5), (2, 0xFFFFFFFFFFFFFFFF)] }) 3 = 4 := by
  decide +kernel
/-- X0 reads zero and discards its write. -/
theorem test_add_x0 : xAfter (.add 5 0 0 1 2) (about 0 (0x01 + 1 * 2 ^ 13 + 2 * 2 ^ 18) { x := [(1, 5), (2, 6)] }) 0 = 0 := by decide +kernel
/-- SRA takes the low six bits of its amount: 68 shifts by 4. -/
theorem test_sra : xAfter (.sra 5 1 3 1 2) (about 1 (0x08 + 3 * 2 ^ 8 + 1 * 2 ^ 13 + 2 * 2 ^ 18) { x := [(1, 0x8000000000000000), (2, 68)] }) 3 =
    0xF800000000000000 := by decide +kernel
/-- SLTIU compares against the sign-extended immediate, unsigned. -/
theorem test_sltiu : xAfter (.sltiu 5 0 3 1 0xFFFFFFFF) (about 0 (0x1A + 3 * 2 ^ 8 + 1 * 2 ^ 13 + 0xFFFFFFFF * 2 ^ 32) { x := [(1, 5)] }) 3 = 1 := by
  decide +kernel
theorem test_movh : xAfter (.movh 5 0 3 1 0x12345678) (about 0 (0x1D + 3 * 2 ^ 8 + 1 * 2 ^ 13 + 0x12345678 * 2 ^ 32) { x := [(1, 0xFFFFFFFF9ABCDEF0)] }) 3 =
    0x123456789ABCDEF0 := by decide +kernel
theorem test_mulh : xAfter (.mulh 5 1 3 1 2) (about 1 (0x21 + 3 * 2 ^ 8 + 1 * 2 ^ 13 + 2 * 2 ^ 18) { x := [(1, 0xFFFFFFFFFFFFFFFF), (2, 2)] }) 3 =
    0xFFFFFFFFFFFFFFFF := by decide +kernel
/-- R100: division by zero, and the overflowing quotient. -/
theorem test_div_zero : xAfter (.div 5 3 1 2) (about 1 (0x28 + 3 * 2 ^ 8 + 1 * 2 ^ 13 + 2 * 2 ^ 18) { x := [(1, 5)] }) 3 = 0xFFFFFFFFFFFFFFFF := by
  decide +kernel
theorem test_rem_sign : xAfter (.rem 5 3 1 2) (about 1 (0x2A + 3 * 2 ^ 8 + 1 * 2 ^ 13 + 2 * 2 ^ 18) { x := [(1, 0xFFFFFFFFFFFFFFF9), (2, 2)] }) 3 =
    0xFFFFFFFFFFFFFFFF := by decide +kernel
/-- A taken branch goes to the bundle its target names. -/
theorem test_bne : ((after (.bne 5 1 2 9) (about 0 (0x41 + 1 * 2 ^ 13 + 2 * 2 ^ 18 + 9 * 2 ^ 32) { x := [(1, 3)] })).core 5).pc = 576 := by decide +kernel
/-- A slot of an undefined opcode: cause ILLEGAL, and TRAP_VAL the slot. -/
theorem test_illegal :
    let x := (after (.emptyBundle 5) (about 3 0xFF)).core 5
    (x.trapCause, x.trapVal, x.trapPc, x.trapValid, x.st) = (1, 3, 0, true, .halted) := by decide +kernel
/-- Memory words: OPC, T at 8, RA at 14, IMM at 64. A signed byte load from tile memory, and a two-byte store. -/
theorem test_ld8 : xAfter (.ld8 5 3 1 7) (about 2 (0x01 + 3 * 2 ^ 8 + 1 * 2 ^ 14 + 7 * 2 ^ 64) { x := [(1, 5 * 0x400000)], tmem := [(7, 0x80)] }) 3 =
    0xFFFFFFFFFFFFFF80 := by decide +kernel
theorem test_st16 :
    ((after (.st16 5 3 1 6) (about 2 (0x0A + 3 * 2 ^ 8 + 1 * 2 ^ 14 + 6 * 2 ^ 64) { x := [(1, 5 * 0x400000), (3, 0x123456)] })).core 5).tmem =
    [(6, 0x56), (7, 0x34)] := by decide +kernel
/-- Vector words: OPC, TYPE at 8, VD at 18, VA at 24, VB at 30, PG at 42, RM at 46. FP32 1 + 2^-24 rounds to even and sets NX; INT32 wraps. -/
theorem test_vadd_fp32 :
    let x := (after (.vadd 5 0 { ty := 0, dtype := 0, vd := 3, va := 1, vb := 2, vc := 0, pg := 0, bx := false, rm := 0, part := 0, imm := 0 })
      (about 3 (0x01 + 3 * 2 ^ 18 + 1 * 2 ^ 24 + 2 * 2 ^ 30) { v := [(1, 0x3F800000), (2, 0x33800000)] })).core 5
    ((x.vr 3).toNat % 2 ^ 32, x.fflags) = (0x3F800000, 1) := by decide +kernel
theorem test_vadd_int32 :
    let x := (after (.vadd 5 0 { ty := 5, dtype := 0, vd := 3, va := 1, vb := 2, vc := 0, pg := 0, bx := false, rm := 0, part := 0, imm := 0 })
      (about 3 (0x01 + 5 * 2 ^ 8 + 3 * 2 ^ 18 + 1 * 2 ^ 24 + 2 * 2 ^ 30) { v := [(1, 0x7FFFFFFF), (2, 1)] })).core 5
    ((x.vr 3).toNat % 2 ^ 32, x.fflags) = (0x80000000, 0) := by decide +kernel
/-- The three rounding modes on 0x3F80_A000 (the example of R133). -/
theorem test_bf16_rounding :
    (bf16.round .rne (fp32.decode 0x3F80A000), bf16.round .rtz (fp32.decode 0x3F80A000), bf16.round (.sr 0x4C21) (fp32.decode 0x3F80A000),
      bf16.round (.sr 0x7001) (fp32.decode 0x3F80A000)) = ((0x3F81, fNX), (0x3F80, fNX), (0x3F80, fNX), (0x3F81, fNX)) := by decide +kernel
/-- The three-term split of 0x3FAA_AAAB (the example of R143). -/
theorem test_three_terms :
    let r1 := (fp32.fsub .rne 0x3FAAAAAB 0x3FAA0000).1
    let mid := (bf16.round .rtz (fp32.decode r1)).1
    (mid, (bf16.round .rtz (fp32.decode (fp32.fsub .rne r1 (mid * 65536)).1)).1) = (0x3BAA, 0x37AB) := by decide +kernel
/-- Group sums 2^24, 1, 1, −2^24 give +0 in that order, and 2 in the order 1, 1, 2^24, −2^24 (the example of R141). -/
theorem test_group_order :
    let of := fun (l : List Nat) => (l.foldl (fun t g => (groupStep t [(fp32.decode g, 0)]).1) 0)
    (of [0x4B800000, 0x3F800000, 0x3F800000, 0xCB800000], of [0x3F800000, 0x3F800000, 0x4B800000, 0xCB800000]) = (0, 0x40000000) := by decide +kernel
/-- 2:4 sparsity (the example of R142): side byte 0x62 holds 0xD0, stored rows 10 and 11 of column 3 multiply elements 21 and 23: 1 × 3 + 2 × 5. -/
theorem test_sparse :
    let x : Core := { ws := [(0x62, 0xD0)], w := [(2 * (10 * 128 + 3), 0x80), (2 * (10 * 128 + 3) + 1, 0x3F), (2 * (11 * 128 + 3) + 1, 0x40)] }
    (mmaElement x 0 1 true (fun k => if k = 21 then .fin false 3 0 else if k = 23 then .fin false 5 0 else .fin false 7 0) 3 0).1 = 0x41500000 := by
  decide +kernel
/-- Exact collective sums: 2^24 + 1 + 1 − 2^24 is 2 (the example of R356). -/
theorem test_exact_sum :
    (fp32.round .rne (([0x4B800000, 0x3F800000, 0x3F800000, 0xCB800000] : List Nat).foldl (fun (a : Acc) b => a.add (fp32.decode b)) {}).value).1 = 0x40000000 := by
  decide +kernel
/-- The decode examples of R152. -/
theorem test_channel_decode :
    (chanDecode 0 0 256 false 0 0x123480, chanDecode 0 0 256 true 0 0x123480, chanDecode 3 5 4096 false 0x10000000 0x35ABC) =
      ((52, 0x1280), (38, 0x1280), (181, 0x10001ABC)) := by decide +kernel
theorem test_lla_set : (llaSet 52 0x1280, llaSet 38 0x1280) = (8229, 12325) := by decide +kernel
theorem test_base_ch : ({ far with interleave := 3, target := 5, base := 0x4200000000 } : Region).baseCh = 0x10000000 := by decide +kernel
/-- The flows of R43's example: slots 10 and 14 clash, 10 and 15 do not. -/
theorem test_flows :
    let f := fun (n a b slot : Nat) => ({ flow := n, net := 4, slice := 3, srcCol := a, srcRow := 3, dstCol := b, dstRow := 3, slots := BitVec.ofNat 128 (2 ^ slot) } : Flow)
    ((f 1 2 6 10).clash (f 2 4 8 14), (f 1 2 6 10).clash (f 2 4 8 15)) = (true, false) := by decide +kernel
/-- The host-view window of R193's example. -/
theorem test_host_view :
    hostView [(0, { hva := 0x7F3A00000001, size := 0x400000000, delta := 0x180C600000000 })] 0x7F3A00402000 = some 0x2000000402000 := by decide +kernel
/-- The remote window of R335's example: module 259, address 0xE_0000_1000. -/
theorem test_remote_window :
    fabricTarget { mapped with nx := { rwinCtl := [(9, 0x8024000000000100)], rwinBase := [(9, 0x400000000)] } } { far with num := 9 } 0x23A00001000 =
      some (259, 0xE00001000) := by decide +kernel
/-- SHA-384 of "abc", the published vector. -/
theorem test_sha384 :
    sha384 [0x61, 0x62, 0x63] = 0xcb00753f45a35e8bb5a03d699ac65007272c32ab0eded1631a8b605a43ff5bed8086072ba1e7cc2358baeca134c825a7 := by decide +kernel
/-- The replacement LFSR with taps 16, 14, 13, 11: bits 0, 2, 3 and 5 feed bit 15. -/
theorem test_lfsr : (lfsrNext 1, lfsrNext 4, lfsrNext 5, lfsrNext 0xACE1) = (0x8000, 0x8002, 2, 0x5670) := by decide +kernel
/-- A fault sets its sticky bit. -/
theorem test_entropy : (after .entropyHealthFail up).fcu.sticky.getLsbD 1502 = true := by decide +kernel
/-- TIME counts nanoseconds: one for an idle step with the root PLL locked. -/
theorem test_idle : (match step up with | .next s => s.time | _ => 99) = 1 := by decide +kernel
/-- The first command runs first. -/
theorem test_front : (match step { up with pending := [.entropyHealthFail, .perstN] } with | .next s => (s.pending, s.fcu.sticky.getLsbD 1502) | _ => ([], false)) =
    ([.perstN], true) := by decide +kernel
/-- No word of the table spells a command. -/
theorem test_no_words : (decodeTableWord 8 0, State.reset.withFetchWord 32 7 = State.reset) = (none, True) := by simp [decodeTableWord, State.withFetchWord]

/-! ## The hypotheses of the obligations are met -/

namespace ScalarResult
theorem test_met :
    (∃ (i : Instr) (s : State) (a : Alu) (c : Nat), (aluOf i = some a) ∧ (aloneAt s a.core a.slot a.word = some c) ∧ ((s.core c).plain = true)) ∧
    (∃ (i : Instr) (s : State) (a : Alu) (c : Nat), (aluOf i = some a) ∧ (aloneAt s a.core a.slot a.word = some c) ∧ ((s.core c).plain = true)) ∧
    (∃ (i : Instr) (s : State) (a : Alu) (c : Nat), (aluOf i = some a) ∧ (aloneAt s a.core a.slot a.word = some c) ∧ ((s.core c).plain = true)) ∧
    (∃ (i : Instr) (s : State) (a : Alu) (c : Nat), (aluOf i = some a) ∧ (aloneAt s a.core a.slot a.word = some c) ∧ ((s.core c).plain = true)) ∧
    (∃ (i : Instr) (s : State) (a : Alu) (c : Nat), (aluOf i = some a) ∧ (aloneAt s a.core a.slot a.word = some c) ∧ ((s.core c).plain = true)) ∧
    (∃ (i : Instr) (s : State) (a : Alu) (c : Nat), (aluOf i = some a) ∧ (bundleAt (s.core c) % 64 = 2 ^ a.slot) ∧ (slotOf (bundleAt (s.core c)) a.slot = a.word) ∧ (illegalSlot (s.core c) (bundleAt (s.core c)) (s.core c).idx = none)) :=
  ⟨⟨(.add 5 0 3 1 2 : Instr), (about 0 (scWord 1 3 1 2 0 0) { x := [(1, 7), (2, 0xFFFFFFFFFFFFFFFF)] } : State), ((aluOf (.add 5 0 3 1 2)).getD ⟨0, 0, 0, 0, fun _ _ => 0⟩ : Alu), 5, rfl, by decide +kernel, by decide +kernel⟩,
   ⟨(.rem 5 3 1 2 : Instr), (about 1 (scWord 0x2A 3 1 2 0 0) { x := [(1, 0x8000000000000001), (2, 3)] } : State), ((aluOf (.rem 5 3 1 2)).getD ⟨0, 0, 0, 0, fun _ _ => 0⟩ : Alu), 5, rfl, by decide +kernel, by decide +kernel⟩,
   ⟨(.csrr 5 3 0x008 : Instr), (about 0 (scWord 0x30 3 0 0 0 8) { x := [(1, 0x8000000000000001), (2, 3)], cycle := 99 } : State), ((aluOf (.csrr 5 3 0x008)).getD ⟨0, 0, 0, 0, fun _ _ => 0⟩ : Alu), 5, rfl, by decide +kernel, by decide +kernel⟩,
   ⟨(.mulh 5 1 0 1 2 : Instr), (about 1 (scWord 0x21 0 1 2 0 0) { x := [(1, 0x8000000000000001), (2, 3)] } : State), ((aluOf (.mulh 5 1 0 1 2)).getD ⟨0, 0, 0, 0, fun _ _ => 0⟩ : Alu), 5, rfl, by decide +kernel, by decide +kernel⟩,
   ⟨(.slti 5 0 3 1 0xFFFFFFFF : Instr), (about 0 (scWord 0x19 3 1 0 0 0xFFFFFFFF) { x := [(1, 0x8000000000000001), (2, 3)] } : State), ((aluOf (.slti 5 0 3 1 0xFFFFFFFF)).getD ⟨0, 0, 0, 0, fun _ _ => 0⟩ : Alu), 5, rfl, by decide +kernel, by decide +kernel⟩,
   ⟨(.rem 5 3 1 2 : Instr), (about 1 (scWord 0x2A 3 1 2 0 0) { x := [(1, 0x8000000000000001)] } : State), ((aluOf (.rem 5 3 1 2)).getD ⟨0, 0, 0, 0, fun _ _ => 0⟩ : Alu), 5, rfl, by decide +kernel, by decide +kernel, by decide +kernel⟩⟩
end ScalarResult

namespace CsrWrite
theorem test_met :
    (∃ (s : State) (n : Fin 144) (csr : BitVec 12) (rs1 : BitVec 5) (c : Nat), (aloneAt s n 0 (scWord 0x31 0 rs1 0 0 csr.toNat) = some c) ∧ ((s.core c).plain = true)) ∧
    (∃ (s : State) (n : Fin 144) (csr : BitVec 12) (rs1 : BitVec 5) (c : Nat), (aloneAt s n 0 (scWord 0x31 0 rs1 0 0 csr.toNat) = some c) ∧ ((s.core c).plain = true)) :=
  ⟨⟨(about 0 (scWord 0x31 0 1 0 0 2) { x := [(1, 3)] } : State), 5, 2, 1, 5, by decide +kernel⟩,
   ⟨(about 0 (scWord 0x31 0 1 0 0 11) { x := [(1, 3)] } : State), 5, 11, 1, 5, by decide +kernel⟩⟩
end CsrWrite

namespace BranchResult
theorem test_met :
    (∃ (i : Instr) (s : State) (b : Branch) (c : Nat), (branchOf i = some b) ∧ (aloneAt s b.core 0 b.word = some c) ∧ ((s.core c).plain = true)) ∧
    (∃ (i : Instr) (s : State) (b : Branch) (c : Nat), (branchOf i = some b) ∧ (aloneAt s b.core 0 b.word = some c) ∧ ((s.core c).plain = true)) ∧
    (∃ (i : Instr) (s : State) (b : Branch) (c : Nat), (branchOf i = some b) ∧ (soleAt s b.core 0 b.word c) ∧ ((b.goes (s.core c)).getD ((s.core c).idx + 1) < 4096)) ∧
    (∃ (i : Instr) (s : State) (b : Branch) (c : Nat), (branchOf i = some b) ∧ (soleAt s b.core 0 b.word c) ∧ ((b.goes (s.core c)).getD ((s.core c).idx + 1) < 4096)) :=
  ⟨⟨(.bne 5 1 2 9 : Instr), (about 0 (scWord 0x41 0 1 2 0 9) { x := [(1, 3)], loops := [{ lc := 0, start := 1, stop := 5 }] } : State), ((branchOf (.bne 5 1 2 9)).getD ⟨0, 0, 0, fun _ => none⟩ : Branch), 5, rfl, by decide +kernel, by decide +kernel⟩,
   ⟨(.jal 5 1 9 : Instr), (about 0 (scWord 0x49 1 0 0 0 9) {} : State), ((branchOf (.jal 5 1 9)).getD ⟨0, 0, 0, fun _ => none⟩ : Branch), 5, rfl, by decide +kernel, by decide +kernel⟩,
   ⟨(.jr 5 1 : Instr), (about 0 (scWord 0x4A 0 1 0 0 0) { x := [(1, 0x3FFFF)] } : State), ((branchOf (.jr 5 1)).getD ⟨0, 0, 0, fun _ => none⟩ : Branch), 5, rfl, by decide +kernel, by decide +kernel⟩,
   ⟨(.blt 5 1 2 9 : Instr), (about 0 (scWord 0x42 0 1 2 0 9) { x := [(1, 5), (2, 0xFFFFFFFFFFFFFFFF)], loops := [{ lc := 0, start := 0, stop := 5 }] } : State), ((branchOf (.blt 5 1 2 9)).getD ⟨0, 0, 0, fun _ => none⟩ : Branch), 5, rfl, by decide +kernel, by decide +kernel⟩⟩
end BranchResult

namespace Loops
theorem test_met :
    (∃ (s : State) (n : Fin 144) (lc : Fin 2) (rs1 : BitVec 5) (t : BitVec 16) (c : Nat), (aloneAt s n 0 (scWord 0x4C 0 rs1 0 lc t.toNat) = some c) ∧ ((s.core c).idx + 1 < 4096) ∧ (let x := s.core c; let k := (x.xr rs1.toNat).toNat % 2 ^ 32; k ≠ 0)) ∧
    (∃ (i : Instr) (s : State) (a : Alu) (c : Nat) (l : HwLoop) (r : List HwLoop), (aluOf i = some a) ∧ (aloneAt s a.core a.slot a.word = some c) ∧ ((s.core c).loops = l :: r) ∧ (l.stop = (s.core c).idx) ∧ (1 < (s.core c).lcv l.lc) ∧ (l.start < 4096)) :=
  ⟨⟨(about 0 (scWord 0x4C 0 1 0 1 9) { x := [(1, 4)] } : State), 5, 1, 1, 9, 5, by decide +kernel⟩,
   ⟨(.add 5 0 3 1 2 : Instr), (about 0 (scWord 1 3 1 2 0 0) { x := [(1, 7), (2, 5)], lc := [(1, 4)], loops := [{ lc := 1, start := 0, stop := 0 }] } : State), ((aluOf (.add 5 0 3 1 2)).getD ⟨0, 0, 0, 0, fun _ _ => 0⟩ : Alu), 5, ({ lc := 1, start := 0, stop := 0 } : HwLoop), ([] : List HwLoop), rfl, by decide +kernel, by decide +kernel, by decide +kernel, by decide +kernel, by decide +kernel⟩⟩
end Loops

namespace BreakAndHalt
theorem test_met :
    (∃ (s : State) (n : Fin 144) (imm : BitVec 32) (c : Nat), (coreOf s n = some c) ∧ (issuing s c = true) ∧ (headerOk (bundleAt (s.core c)) = true) ∧ (slotValid (bundleAt (s.core c)) 0 = true) ∧ (slotOf (bundleAt (s.core c)) 0 = scWord 0x4D 0 0 0 0 imm.toNat) ∧ (illegalSlot (s.core c) (bundleAt (s.core c)) (s.core c).idx = none)) ∧
    (∃ (s : State) (n : Fin 144) (c : Nat), (aloneAt s n 0 (scWord 0x4E 0 0 0 0 0) = some c) ∧ ((s.core c).plain = true)) ∧
    (∃ (s : State) (n : Fin 144) (c : Nat), (coreOf s n = some c) ∧ ((s.core c).st = .running) ∧ ((s.core c).hold = .halt) ∧ ((s.core c).matq = []) ∧ (storesLanded s c = true) ∧ (((List.range 4).all (fun q => ((s.core c).tqr q).q.isEmpty)) = true)) :=
  ⟨⟨(about 0 (scWord 0x4D 0 0 0 0 77) {} : State), 5, 77, 5, by decide +kernel⟩,
   ⟨(about 0 (scWord 0x4E 0 0 0 0 0) {} : State), 5, 5, by decide +kernel⟩,
   ⟨({ up with cores := [(5, { st := .running, hold := .halt })] } : State), 5, 5, by decide +kernel⟩⟩
end BreakAndHalt

namespace EmptyAndIllegal
theorem test_met :
    (∃ (s : State) (n : Fin 144) (c : Nat), (coreOf s n = some c) ∧ (issuing s c = true) ∧ (headerOk (bundleAt (s.core c)) = true) ∧ (bundleAt (s.core c) % 64 = 0) ∧ (illegalSlot (s.core c) (bundleAt (s.core c)) (s.core c).idx = none) ∧ ((s.core c).plain = true)) ∧
    (∃ (s : State) (n : Fin 144) (c : Nat) (k : Nat), (coreOf s n = some c) ∧ (issuing s c = true) ∧ (illegalSlot (s.core c) (bundleAt (s.core c)) (s.core c).idx = some k)) :=
  ⟨⟨({ up with cores := [(5, { st := .running, imem := [(3, 0x10)] })] } : State), 5, 5, by decide +kernel⟩,
   ⟨({ up with cores := [(5, { st := .running })] } : State), 5, 5, 6, by decide +kernel⟩⟩
end EmptyAndIllegal

namespace LoadResult
theorem test_met :
    ∃ (i : Instr) (s : State) (n : Fin 144) (f : MF) (c : Nat) (t : Nat) (o : Nat), (loadOf i = some (n, f)) ∧ (aloneAt s n 2 (mWord f) = some c) ∧ ((s.core c).plain = true) ∧ (accLocal s c (s.core c) f = .at t o) ∧ (badWord s t o (opBytes f.opc) = none) :=
  ⟨(.ld8 5 3 1 4 : Instr), (about 2 (mWord (mOp 1 3 1 4)) { x := [(1, 5 * 0x400000 + 8)], tmem := [(12, 0x85)] } : State), 5, (mOp 1 3 1 4 : MF), 5, 5, 12, by decide +kernel⟩
end LoadResult

namespace StoreResult
theorem test_met :
    ∃ (i : Instr) (s : State) (n : Fin 144) (f : MF) (c : Nat) (t : Nat) (o : Nat), (storeOf i = some (n, f)) ∧ (aloneAt s n 2 (mWord f) = some c) ∧ ((s.core c).plain = true) ∧ (accLocal s c (s.core c) f = .at t o) ∧ ((t = c ∨ (s.core t).st ≠ .reset)) ∧ ((s.core t).ue = []) :=
  ⟨(.st16 5 3 1 4 : Instr), (about 2 (mWord (mOp 0xA 3 1 4)) { x := [(1, 5 * 0x400000 + 8), (3, 0x1234)], tmem := [(12, 0x85)] } : State), 5, (mOp 0xA 3 1 4 : MF), 5, 5, 12, by decide +kernel⟩
end StoreResult

namespace AtomicResult
theorem test_met :
    (∃ (i : Instr) (s : State) (n : Fin 144) (f : MF) (c : Nat) (t : Nat) (o : Nat), (amoOf i = some (n, f)) ∧ (aloneAt s n 2 (mWord f) = some c) ∧ ((s.core c).plain = true) ∧ (accLocal s c (s.core c) f = .at t o) ∧ ((s.core t).ue = [])) ∧
    (∃ (i : Instr) (s : State) (n : Fin 144) (f : MF) (c : Nat), (amoOf i = some (n, f)) ∧ (coreOf s n = some c) ∧ (issuing s c = true) ∧ (headerOk (bundleAt (s.core c)) = true) ∧ (bundleAt (s.core c) % 64 = 4) ∧ (slotOf (bundleAt (s.core c)) 2 = mWord f) ∧ (illegalSlot (s.core c) (bundleAt (s.core c)) (s.core c).idx = none) ∧ (let a := effAddr (s.core c) f; a < 24 * 0x400000) ∧ (let a := effAddr (s.core c) f; let k := if f.sz = 1 then 8 else 4; a % 0x400000 + k ≤ 0x300000) ∧ (let a := effAddr (s.core c) f; let k := if f.sz = 1 then 8 else 4; a % k ≠ 0)) :=
  ⟨⟨(.amoadd 5 3 1 2 4 false false : Instr), (about 2 (mWord (amoF 0x18 3 1 2 0 4 false false)) { x := [(1, 5 * 0x400000 + 8), (2, 0x7FFFFFFF), (3, 0x1234)], tmem := [(12, 0x85)] } : State), 5, (amoF 0x18 3 1 2 0 4 false false : MF), 5, 5, 12, by decide +kernel⟩,
   ⟨(.amoadd 5 3 1 2 4 true false : Instr), (about 2 (mWord (amoF 0x18 3 1 2 0 4 true false)) { x := [(1, 5 * 0x400000 + 8), (2, 0x7FFFFFFF), (3, 0x1234)], tmem := [(12, 0x85)] } : State), 5, (amoF 0x18 3 1 2 0 4 true false : MF), 5, by decide +kernel⟩⟩
end AtomicResult

namespace VectorMemory
theorem test_met :
    (∃ (s : State) (n : Fin 144) (vt : BitVec 6) (xa : BitVec 5) (imm : BitVec 32) (ps : BitVec 3) (c : Nat) (t : Nat) (o : Nat) (wide : Bool), (let f := { mOp (if wide then 0x10 else 0x12) vt.toNat xa.toNat imm with ps := ps.toNat }; aloneAt s n 2 (mWord f) = some c) ∧ ((s.core c).plain = true) ∧ (let f := { mOp (if wide then 0x10 else 0x12) vt.toNat xa.toNat imm with ps := ps.toNat }; accLocal s c (s.core c) f = .at t o) ∧ (let k := if wide then 1024 else 4; badWord s t o k = none)) ∧
    (∃ (s : State) (n : Fin 144) (vt : BitVec 6) (xa : BitVec 5) (imm : BitVec 32) (ps : BitVec 3) (c : Nat) (t : Nat) (o : Nat) (wide : Bool), (let f := { mOp (if wide then 0x10 else 0x12) vt.toNat xa.toNat imm with ps := ps.toNat }; aloneAt s n 2 (mWord f) = some c) ∧ ((s.core c).plain = true) ∧ (let f := { mOp (if wide then 0x10 else 0x12) vt.toNat xa.toNat imm with ps := ps.toNat }; accLocal s c (s.core c) f = .at t o) ∧ (let k := if wide then 1024 else 4; badWord s t o k = none)) ∧
    (∃ (s : State) (n : Fin 144) (vt : BitVec 6) (xa : BitVec 5) (imm : BitVec 32) (ps : BitVec 3) (c : Nat) (t : Nat) (o : Nat), (let f := { mOp 0x11 vt.toNat xa.toNat imm with ps := ps.toNat }; aloneAt s n 2 (mWord f) = some c) ∧ ((s.core c).plain = true) ∧ (let f := { mOp 0x11 vt.toNat xa.toNat imm with ps := ps.toNat }; accLocal s c (s.core c) f = .at t o) ∧ ((t = c ∨ (s.core t).st ≠ .reset)) ∧ ((s.core t).ue = [])) :=
  ⟨⟨(about 2 (mWord { mOp 0x12 2 1 0 with ps := 0 }) { x := [(1, 5 * 0x400000)], tmem := [(1, 9)] } : State), 5, 2, 1, 0, 0, 5, 5, 0, false, by decide +kernel⟩,
   ⟨(about 2 (mWord { mOp 0x10 2 1 0 with ps := 1 }) { x := [(1, 5 * 0x400000)], p := [(1, 5)], tmem := [(1, 9), (10, 7)] } : State), 5, 2, 1, 0, 1, 5, 5, 0, true, by decide +kernel⟩,
   ⟨(about 2 (mWord { mOp 0x11 2 1 0 with ps := 1 }) { x := [(1, 5 * 0x400000)], p := [(1, 5)], v := [(2, 0x1234567)], tmem := [(1, 9), (10, 7)] } : State), 5, 2, 1, 0, 1, 5, 5, 0, by decide +kernel⟩⟩
end VectorMemory

namespace Semaphores
theorem test_met :
    (∃ (s : State) (n : Fin 144) (sk : BitVec 4) (xb : BitVec 5) (c : Nat), (aloneAt s n 2 (mWord { mOp 0x22 0 0 0 with sk := sk.toNat, rb := xb.toNat }) = some c) ∧ ((s.core c).plain = true)) ∧
    (∃ (s : State) (n : Fin 144) (sk : BitVec 4) (xb : BitVec 5) (c : Nat), (aloneAt s n 2 (mWord { mOp 0x20 0 0 0 with sk := sk.toNat, rb := xb.toNat }) = some c) ∧ ((s.core c).plain = true)) ∧
    (∃ (s : State) (n : Fin 144) (sk : BitVec 4) (xa : BitVec 5) (xb : BitVec 5) (c : Nat) (t : Nat), (aloneAt s n 2 (mWord { mOp 0x21 0 xa.toNat 0 with sk := sk.toNat, rb := xb.toNat }) = some c) ∧ ((s.core c).plain = true) ∧ (postLocal s c (s.core c) { mOp 0x21 0 xa.toNat 0 with sk := sk.toNat, rb := xb.toNat } = .at t 0) ∧ ((t = c ∨ (s.core t).st ≠ .reset))) ∧
    (∃ (s : State) (n : Fin 144) (sk : BitVec 4) (xb : BitVec 5) (c : Nat), (aloneAt (setCore s c { s.core c with st := .running, hold := .none }) n 2 (mWord { mOp 0x20 0 0 0 with sk := sk.toNat, rb := xb.toNat }) = some c) ∧ ((s.core c).st = .waiting) ∧ ((s.core c).hold = .sem) ∧ (stalled s c (s.core c) (bundleAt (s.core c)) = false) ∧ ((s.core c).plain = true)) ∧
    (∃ (s : State) (n : Fin 144) (sk : BitVec 4) (xb : BitVec 5) (c : Nat), (coreOf s n = some c) ∧ (issuing s c = true) ∧ (headerOk (bundleAt (s.core c)) = true) ∧ (bundleAt (s.core c) % 64 = 4) ∧ (slotOf (bundleAt (s.core c)) 2 = mWord { mOp 0x20 0 0 0 with sk := sk.toNat, rb := xb.toNat }) ∧ (bundleTrap s c (s.core c) (bundleAt (s.core c)) (s.core c).idx = none) ∧ ((s.core c).sems sk.toNat < ((s.core c).xr xb.toNat).toNat % 2 ^ 32)) ∧
    (∃ (s : State) (n : Fin 144) (sk : BitVec 4) (xb : BitVec 5) (c : Nat), (soleAt s n 2 (mWord { mOp 0x22 0 0 0 with sk := sk.toNat, rb := xb.toNat }) c) ∧ ((s.core c).plain = true)) ∧
    (∃ (s : State) (n : Fin 144) (sk : BitVec 4) (xb : BitVec 5) (c : Nat), (soleAt s n 2 (mWord { mOp 0x20 0 0 0 with sk := sk.toNat, rb := xb.toNat }) c) ∧ ((s.core c).plain = true) ∧ (((s.core c).xr xb.toNat).toNat % 2 ^ 32 ≤ (s.core c).sems sk.toNat)) ∧
    (∃ (s : State) (n : Fin 144) (sk : BitVec 4) (xa : BitVec 5) (xb : BitVec 5) (c : Nat) (t : Nat), (soleAt s n 2 (mWord { mOp 0x21 0 xa.toNat 0 with sk := sk.toNat, rb := xb.toNat }) c) ∧ ((s.core c).plain = true) ∧ (((s.core c).xr xa.toNat).toNat < 24) ∧ (reachable s c ((s.core c).xr xa.toNat).toNat = .at t 0) ∧ ((t = c ∨ (s.core t).st ≠ .reset))) ∧
    (∃ (s : State) (n : Fin 144) (sk : BitVec 4) (xb : BitVec 5) (c : Nat), (soleAt (setCore s c { s.core c with st := .running, hold := .none }) n 2 (mWord { mOp 0x20 0 0 0 with sk := sk.toNat, rb := xb.toNat }) c) ∧ ((s.core c).st = .waiting) ∧ ((s.core c).hold = .sem) ∧ ((s.core c).plain = true) ∧ (((s.core c).xr xb.toNat).toNat % 2 ^ 32 ≤ (s.core c).sems sk.toNat)) :=
  ⟨⟨(about 2 (mWord { mOp 0x22 0 0 0 with sk := 3, rb := 1 }) { x := [(1, 6)] } : State), 5, 3, 1, 5, by decide +kernel⟩,
   ⟨(about 2 (mWord { mOp 0x20 0 0 0 with sk := 3, rb := 1 }) { x := [(1, 6)], sem := [(3, 6)] } : State), 5, 3, 1, 5, by decide +kernel⟩,
   ⟨(about 2 (mWord { mOp 0x21 0 2 0 with sk := 3, rb := 1 }) { x := [(1, 6), (2, 5)], sem := [(3, 0xFFFFFFFF)] } : State), 5, 3, 2, 1, 5, 5, by decide +kernel⟩,
   ⟨({ up with cores := [(5, { st := .waiting, hold := .sem, x := [(1, 6)], sem := [(3, 8)], imem := bytesAt 0 64 (bundle 2 (mWord { mOp 0x20 0 0 0 with sk := 3, rb := 1 })) })] } : State), 5, 3, 1, 5, by decide +kernel⟩,
   ⟨(about 2 (mWord { mOp 0x20 0 0 0 with sk := 3, rb := 1 }) { x := [(1, 6)], sem := [(3, 5)] } : State), 5, 3, 1, 5, by decide +kernel⟩,
   ⟨(about 2 (mWord { mOp 0x22 0 0 0 with sk := 3, rb := 1 }) { x := [(1, 0x100000006)] } : State), 5, 3, 1, 5, by decide +kernel⟩,
   ⟨(about 2 (mWord { mOp 0x20 0 0 0 with sk := 3, rb := 1 }) { x := [(1, 0x700000006)], sem := [(3, 6)] } : State), 5, 3, 1, 5, by decide +kernel⟩,
   ⟨({ up with cores := [(5, { st := .running, x := [(1, 6), (2, 7)], imem := bytesAt 0 64 (bundle 2 (mWord { mOp 0x21 0 2 0 with sk := 3, rb := 1 })) }), (7, { st := .halted, sem := [(3, 0xFFFFFFFE)] })] } : State), 5, 3, 2, 1, 5, 7, by decide +kernel⟩,
   ⟨({ up with cores := [(5, { st := .waiting, hold := .sem, x := [(1, 6)], sem := [(3, 8)], imem := bytesAt 0 64 (bundle 2 (mWord { mOp 0x20 0 0 0 with sk := 3, rb := 1 })) })] } : State), 5, 3, 1, 5, by decide +kernel⟩⟩
end Semaphores

namespace PushAndHolds
theorem test_met :
    (∃ (s : State) (n : Fin 144) (tq : Fin 4) (xa : BitVec 5) (c : Nat), (aloneAt s n 2 (mWord { mOp 0x28 0 xa.toNat 0 with sk := tq }) = some c) ∧ ((s.core c).plain = true) ∧ (let o := ((s.core c).xr xa.toNat).toNat - c % 24 * tileWindow; badWord s c o 64 = none)) ∧
    (∃ (s : State) (n : Fin 144) (tq : Fin 4) (c : Nat), (aloneAt s n 2 (mWord { mOp 0x29 0 0 0 with sk := tq }) = some c) ∧ ((s.core c).plain = true)) ∧
    (∃ (s : State) (n : Fin 144) (tq : Fin 4) (c : Nat), (aloneAt (setCore s c { s.core c with st := .running, hold := .none }) n 2 (mWord { mOp 0x29 0 0 0 with sk := tq }) = some c) ∧ ((s.core c).st = .waiting) ∧ ((s.core c).hold = .drain) ∧ (stalled s c (s.core c) (bundleAt (s.core c)) = false) ∧ ((s.core c).plain = true)) ∧
    (∃ (s : State) (n : Fin 144) (scope : Fin 4) (c : Nat), (aloneAt s n 2 (mWord { mOp 0x30 0 0 0 with sk := scope }) = some c) ∧ ((s.core c).plain = true)) ∧
    (∃ (s : State) (n : Fin 144) (c : Nat) (scope : Nat), (coreOf s n = some c) ∧ ((s.core c).st = .running) ∧ ((s.core c).hold = .fence scope false false) ∧ (scope < 3) ∧ (storesLanded s c = true) ∧ (((List.range 4).all (fun q => ((s.core c).tqr q).q.isEmpty)) = true) ∧ ((s.core c).pastEnd = false)) ∧
    (∃ (s : State) (n : Fin 144) (c : Nat), (aloneAt s n 5 6 = some c) ∧ ((s.core c).plain = true)) ∧
    (∃ (s : State) (n : Fin 144) (c : Nat), (coreOf s n = some c) ∧ ((s.core c).st = .running) ∧ ((s.core c).hold = .xdrain) ∧ ((s.core c).matq = []) ∧ ((s.core c).pastEnd = false)) ∧
    (∃ (s : State) (n : Fin 144) (c : Nat) (scope : Nat) (xd : Bool), (coreOf s n = some c) ∧ ((s.core c).st = .running) ∧ ((s.core c).hold = .fence scope xd true) ∧ (scope < 3) ∧ (storesLanded s c = true) ∧ (((List.range 4).all (fun q => ((s.core c).tqr q).q.isEmpty)) = true)) ∧
    (∃ (s : State) (n : Fin 144) (c : Nat) (scope : Nat), (coreOf s n = some c) ∧ ((s.core c).st = .running) ∧ ((s.core c).hold = .fence scope true false) ∧ (scope < 3) ∧ (storesLanded s c = true) ∧ (((List.range 4).all (fun q => ((s.core c).tqr q).q.isEmpty)) = true) ∧ ((s.core c).matq ≠ [])) :=
  ⟨⟨(about 2 (mWord { mOp 0x28 0 1 0 with sk := 2 }) { x := [(1, 5 * 0x400000 + 64)], tmem := [(64, 4)] } : State), 5, 2, 1, 5, by decide +kernel⟩,
   ⟨(about 2 (mWord { mOp 0x29 0 0 0 with sk := 2 }) {} : State), 5, 2, 5, by decide +kernel⟩,
   ⟨({ up with cores := [(5, { st := .waiting, hold := .drain, imem := bytesAt 0 64 (bundle 2 (mWord { mOp 0x29 0 0 0 with sk := 2 })) })] } : State), 5, 2, 5, by decide +kernel⟩,
   ⟨(about 2 (mWord { mOp 0x30 0 0 0 with sk := 2 }) {} : State), 5, 2, 5, by decide +kernel⟩,
   ⟨({ up with cores := [(5, { st := .running, hold := .fence 1 false false })] } : State), 5, 5, 1, by decide +kernel⟩,
   ⟨(about 5 6 {} : State), 5, 5, by decide +kernel⟩,
   ⟨({ up with cores := [(5, { st := .running, hold := .xdrain })] } : State), 5, 5, by decide +kernel⟩,
   ⟨({ up with cores := [(5, { st := .running, hold := .fence 2 true true })] } : State), 5, 5, 2, true, by decide +kernel⟩,
   ⟨({ up with cores := [(5, { st := .running, hold := .fence 0 true false, matq := [{ word := 1, base := 0, stride := 0, base2 := 0, wcode := 0, frm := 0, seed := 0, step := 0, index := 0 }] })] } : State), 5, 5, 0, by decide +kernel⟩⟩
end PushAndHolds

namespace VectorResult
theorem test_met :
    ∃ (i : Instr) (s : State) (n : Fin 144) (k : Nat) (w : Nat) (c : Nat), (vecOf i = some (n, k, w)) ∧ (aloneAt s n k w = some c) ∧ ((s.core c).plain = true) :=
  ⟨(.vadd 5 0 { ty := 5, dtype := 0, vd := 3, va := 1, vb := 2, vc := 0, pg := 0, bx := false, rm := 0, part := 0, imm := 0 } : Instr), (about 3 (vWord 1 { ty := 5, dtype := 0, vd := 3, va := 1, vb := 2, vc := 0, pg := 0, bx := false, rm := 0, part := 0, imm := 0 }) { v := [(1, 5), (2, 6)] } : State), 5, 3, (vWord 1 { ty := 5, dtype := 0, vd := 3, va := 1, vb := 2, vc := 0, pg := 0, bx := false, rm := 0, part := 0, imm := 0 } : Nat), 5, by decide +kernel⟩
end VectorResult

namespace VectorLanes
theorem test_met :
    ∃ (s : State) (n : Fin 144) (slot : Fin 2) (f : VFields) (o : Nat) (c : Nat), ((o = 1 ∨ o = 2 ∨ o = 0x10 ∨ o = 0x11 ∨ o = 0x12)) ∧ (f.ty = 5) ∧ (f.bx = false) ∧ (aloneAt s n (3 + slot) (vWord o f) = some c) ∧ ((s.core c).plain = true) :=
  ⟨(about 3 (vWord 2 { ty := 5, dtype := 0, vd := 3, va := 1, vb := 2, vc := 0, pg := 0, bx := false, rm := 0, part := 0, imm := 0 }) { v := [(1, 5), (2, 6)] } : State), 5, 0, ({ ty := 5, dtype := 0, vd := 3, va := 1, vb := 2, vc := 0, pg := 0, bx := false, rm := 0, part := 0, imm := 0 } : VFields), 2, 5, by decide +kernel⟩
end VectorLanes

namespace MatrixQueue
theorem test_met :
    (∃ (i : Instr) (s : State) (n : Fin 144) (w : Nat) (c : Nat), (matOf i = some (n, w)) ∧ (aloneAt s n 5 w = some c) ∧ ((s.core c).plain = true)) ∧
    (∃ (s : State) (n : Fin 144) (c : Nat) (op : MatOp) (r : List MatOp), (coreOf s n = some c) ∧ ((s.core c).matq = op :: r) ∧ ((s.core c).st ≠ .reset) ∧ ((s.core c).st ≠ .retired) ∧ (siteUp s (c / 24) = true) ∧ (s.clk.rootLock = true) ∧ (matHeld s c op = false)) :=
  ⟨⟨(.accclr 5 2 : Instr), (about 5 (xWord { opc := 5, ad := 2, wn := 0, z := 0, sp := 0, fmt := 0, ra := 0, rs := 0, rb := 0, row0 := 0, rows := 0, vd := 0, rsvd := 0 }) {} : State), 5, (xWord { opc := 5, ad := 2, wn := 0, z := 0, sp := 0, fmt := 0, ra := 0, rs := 0, rb := 0, row0 := 0, rows := 0, vd := 0, rsvd := 0 } : Nat), 5, by decide +kernel⟩,
   ⟨({ up with cores := [(5, { st := .running, matq := [{ word := 5 + 2 <<< 8, base := 0, stride := 0, base2 := 0, wcode := 0, frm := 0, seed := 0, step := 0, index := 0 }] })] } : State), 5, 5, ({ word := 5 + 2 <<< 8, base := 0, stride := 0, base2 := 0, wcode := 0, frm := 0, seed := 0, step := 0, index := 0 } : MatOp), ([] : List MatOp), by decide +kernel⟩⟩
end MatrixQueue

namespace MatrixRun
theorem test_met :
    (∃ (s : State) (n : Fin 144) (c : Nat) (op : MatOp) (r : List MatOp), (coreOf s n = some c) ∧ ((s.core c).matq = op :: r) ∧ ((s.core c).st ≠ .reset) ∧ ((s.core c).st ≠ .retired) ∧ (siteUp s (c / 24) = true) ∧ (s.clk.rootLock = true) ∧ (matHeld s c op = false)) ∧
    (∃ (s : State) (n : Fin 144) (c : Nat) (op : MatOp) (r : List MatOp), (coreOf s n = some c) ∧ ((s.core c).matq = op :: r) ∧ ((s.core c).st ≠ .reset) ∧ ((s.core c).st ≠ .retired) ∧ (siteUp s (c / 24) = true) ∧ (s.clk.rootLock = true) ∧ (matHeld s c op = false)) :=
  ⟨⟨({ up with cores := [(5, { st := .running, acc := [(2 * 16384 + 5, 7), (3 * 16384 + 5, 7)], matq := [{ word := 5 + 2 <<< 8, base := 0, stride := 0, base2 := 0, wcode := 0, frm := 0, seed := 0, step := 0, index := 0 }] })] } : State), 5, 5, ({ word := 5 + 2 <<< 8, base := 0, stride := 0, base2 := 0, wcode := 0, frm := 0, seed := 0, step := 0, index := 0 } : MatOp), ([] : List MatOp), by decide +kernel⟩,
   ⟨({ up with cores := [(5, { st := .running, acc := [(2 * 16384 + 5, 7), (3 * 16384 + 5, 7)], matq := [{ word := 3 + 2 <<< 8 + 7 <<< 48, base := 0, stride := 0, base2 := 0, wcode := 0, frm := 0, seed := 0, step := 0, index := 0 }] })] } : State), 5, 5, ({ word := 3 + 2 <<< 8 + 7 <<< 48, base := 0, stride := 0, base2 := 0, wcode := 0, frm := 0, seed := 0, step := 0, index := 0 } : MatOp), ([] : List MatOp), by decide +kernel⟩⟩
end MatrixRun

namespace CoreStates
theorem test_met :
    (∃ (s : State) (site : Fin 6) (unit : Fin 24), (s.quiet = false) ∧ (let c := 24 * site.val + unit.val; coreRow s c = true) ∧ (customerDie s site.val = false) ∧ (let c := 24 * site.val + unit.val; ((s.core c).st = .running ∨ (s.core c).st = .waiting))) ∧
    (∃ (s : State) (site : Fin 6) (unit : Fin 24), (s.quiet = false) ∧ (let c := 24 * site.val + unit.val; coreRow s c = true) ∧ (customerDie s site.val = false) ∧ (let c := 24 * site.val + unit.val; (s.core c).st = .halted)) ∧
    (∃ (s : State) (n : Fin 144) (c : Nat), (coreOf s n = some c) ∧ ((s.core c).st = .reset) ∧ (siteUp s (c / 24) = true) ∧ (customerDie s (c / 24) = false) ∧ ((s.core c).heldAcc = [])) :=
  ⟨⟨({ up with cores := [(29, { st := .running, pc := 64, x := [(1, 6)] })] } : State), 1, 5, by decide +kernel⟩,
   ⟨({ up with cores := [(29, { st := .halted, pc := 64, x := [(1, 6)] })] } : State), 1, 5, by decide +kernel⟩,
   ⟨({ up with cores := [(5, { st := .reset, pc := 64, x := [(1, 6)] })] } : State), 5, 5, by decide +kernel⟩⟩
end CoreStates

namespace PowerAndReset
theorem test_met :
    (∃ (s : State), (s.pins.porN = true)) ∧
    (∃ (s : State), (s.pins.vinMain = true) ∧ (s.pins.porN = true)) ∧
    (∃ (s : State), (s.pins.vinMain = true)) ∧
    (∃ (s : State) (bs : BitVec 2) (scope : Bool), (s.pins.porN = false) ∧ (s.fuses.decode 16 ≠ 4) ∧ (fuseErrorCount s.fuses = 0) ∧ (s.fuses.decode 17 ≠ 3)) ∧
    (∃ (s : State), (s.pins.porN = true) ∧ (s.lc ≠ 4) ∧ (s.pins.strapScope = false) ∧ (endpointOn s = true)) ∧
    (∃ (s : State), (s.pins.porN = true) ∧ (s.lc ≠ 4) ∧ (s.pins.strapScope = true) ∧ (s.fcu.safe = false) ∧ ((loseHost (linkDown (setPcieEvent s 1))).fcu.safe = false)) ∧
    (∃ (s : State), (s.pins.porN = true) ∧ (s.pins.hbRunning = true) ∧ (s.pins.refclk = true)) :=
  ⟨⟨({ up with mem := [(5, 7)], time := 99 } : State), by decide +kernel⟩,
   ⟨({ up with mem := [(5, 7)], time := 99, pins := { porN := true, vinMain := true } } : State), by decide +kernel⟩,
   ⟨({ up with mem := [(5, 7)], pins := { porN := false, vinMain := true } } : State), by decide +kernel⟩,
   ⟨(State.reset : State), 1, false, by decide +kernel⟩,
   ⟨({ up with pcie := { dlUp := true, speed := 6 } } : State), by decide +kernel⟩,
   ⟨({ up with pins := { porN := true, strapScope := true }, pcie := { dlUp := true, speed := 6 }, mem := [(5, 7)] } : State), by decide +kernel⟩,
   ⟨({ up with pins := { porN := true, hbRunning := true } } : State), by decide +kernel⟩⟩
end PowerAndReset

namespace RootPll
theorem test_met :
    (∃ (s : State) (v : Bool), (s.quiet = false) ∧ (s.clk.rootLock = false)) ∧
    (∃ (s : State), (s.quiet = false) ∧ (s.clk.rootLock = true)) ∧
    (∃ (s : State), (s.quiet = false) ∧ (s.clk.rootEn = true) ∧ (s.clk.rootLock = false) ∧ (s.pins.refclk = true)) ∧
    (∃ (s : State), (s.quiet = false) ∧ (s.clk.rootEn = true) ∧ (s.clk.rootLock = false) ∧ (s.pins.refclk = true) ∧ (s.glb.stepState ≠ 1)) ∧
    (∃ (s : State), (s.quiet = false) ∧ (s.clk.rootLock = false)) ∧
    (∃ (s : State), (s.pins.porN = true) ∧ (s.clk.rootLock = true)) :=
  ⟨⟨({ up with clk := {} } : State), true, by decide +kernel⟩,
   ⟨up, by decide +kernel⟩,
   ⟨({ up with clk := { rootEn := true }, glb := { step := 1, stepState := 1 } } : State), by decide +kernel⟩,
   ⟨({ up with clk := { rootEn := true }, glb := { step := 1, stepState := 2 } } : State), by decide +kernel⟩,
   ⟨({ up with clk := { rootEn := true }, glb := { step := 1, stepState := 1 }, time := 200000 } : State), by decide +kernel⟩,
   ⟨up, by decide +kernel⟩⟩
end RootPll

namespace BringUpSteps
abbrev idle (s : State) : Bool := !s.quiet && s.lc ≠ 4 && !s.pins.thermTrip && s.glb.stepState ≠ 1 && !(s.glb.stepState = 3 && s.glb.step ≤ 2) &&
    !s.glb.trainRun && !s.glb.initRun && s.chart.state ≠ 4
theorem test_met :
    (∃ (s : State), (idle s = true) ∧ (s.glb.chart = true) ∧ (stepDone s 1 = false) ∧ (s.clk.rootLock = false)) ∧
    (∃ (s : State), (idle s = true) ∧ (s.glb.chart = false)) ∧
    (∃ (s : State), (s.quiet = false) ∧ (s.lc ≠ 4) ∧ (s.pins.thermTrip = false) ∧ (s.glb.stepState = 1)) ∧
    (∃ (s : State), (idle s = true) ∧ (stepDone s 1 = true) ∧ (stepDone s 2 = false)) ∧
    (∃ (s : State), (s.quiet = false) ∧ (s.pins.thermTrip = false)) ∧
    (∃ (s : State), (s.quiet = false) ∧ (s.pins.thermTrip = false)) ∧
    (∃ (s : State), (idle s = true) ∧ (stepDone s 2 = true) ∧ (stepDone s 3 = false)) ∧
    (∃ (s : State), (s.quiet = false) ∧ (s.glb.trainRun = true) ∧ ((∀ k ∈ enabledSites s, (s.site k).state ≠ 3)) ∧ ((∀ p ∈ s.cfg.ports, (s.port p.port).state ≠ 1))) ∧
    (∃ (s : State), (idle s = true) ∧ (stepDone s 2 = true) ∧ (stepDone s 4 = false)) ∧
    (∃ (s : State), (idle s = true) ∧ (stepDone s 3 = true) ∧ (stepDone s 4 = true) ∧ (s.glb.open_ = false) ∧ (s.glb.chart = true) ∧ (s.glb.clocks = true) ∧ (s.glb.lla = true) ∧ (s.glb.dir = true) ∧ (s.glb.engines = true) ∧ ((∀ k ∈ enabledSites s, siteReady s k = true ∨ (s.site k).state = 6 ∨ (s.site k).state = 7))) ∧
    (∃ (s : State) (k : Nat) (c : Nat), (c ∈ s.glb.logical) ∧ (c / 24 = k)) :=
  ⟨⟨({ work with clk := {}, glb := { chart := true } } : State), by decide +kernel⟩,
   ⟨({ up with clk := {} } : State), by decide +kernel⟩,
   ⟨({ up with glb := { step := 2, stepState := 1, chart := true } } : State), by decide +kernel⟩,
   ⟨({ work with glb := { chart := true, doneMask := 1, step := 1, stepState := 2 }, sites := [] } : State), by decide +kernel⟩,
   ⟨({ work with glb := { chart := true, doneMask := 1, step := 2, stepState := 1 }, sites := [(0, { state := 1, pwrReq := true })] } : State), by decide +kernel⟩,
   ⟨({ work with glb := { chart := true, doneMask := 1, step := 2, stepState := 1 }, sites := [], time := 2000000 } : State), by decide +kernel⟩,
   ⟨({ work with glb := { chart := true, doneMask := 3, step := 2, stepState := 2 }, sites := [(0, { state := 2, pwrReq := true, clkFwd := true })] } : State), by decide +kernel⟩,
   ⟨({ work with glb := { chart := true, doneMask := 3, step := 3, stepState := 1, trainRun := true } } : State), by decide +kernel⟩,
   ⟨({ work with glb := { chart := true, doneMask := 3, step := 2, stepState := 2 } } : State), by decide +kernel⟩,
   ⟨({ work with glb := { chart := true, doneMask := 15, step := 4, stepState := 2, clocks := true, lla := true, dir := true, engines := true } } : State), by decide +kernel⟩,
   ⟨({ up with glb := { up.glb with logical := [5, 29] } } : State), 1, 29, by decide +kernel⟩⟩
end BringUpSteps

namespace FeltFirmware
theorem test_met :
    (∃ (s : State) (h : Fin 2), (s.quiet = false) ∧ (((felt s h).state = 0 ∨ (felt s h).state = 4))) ∧
    (∃ (s : State) (h : Fin 2) (u : State) (bs : List Byte), (s.quiet = false) ∧ ((felt s h).state = 1) ∧ (siteUp s (6 + h) = true) ∧ (({ tag := 0x66002 + h.val } : Hub).read ((felt s h).len.toNat / 128 + 1) s (felt s h).image.toNat (felt s h).len.toNat = (u, .ok bs))) ∧
    (∃ (s : State) (h : Fin 2), (s.quiet = false) ∧ ((felt s h).state = 2) ∧ (siteUp s (6 + h) = true)) ∧
    (∃ (s : State) (h : Fin 2), (s.quiet = false) ∧ ((felt s h).state = 2)) :=
  ⟨⟨({ work with glb := { work.glb with dir := true, felt := [(1, { image := 0x1000, len := 256 })] } } : State), 1, by decide +kernel⟩,
   ⟨({ work with glb := { work.glb with dir := true, felt := [(1, { image := 0x1000, len := 128, state := 1 })] }, mem := [(0x10000000000, 1)] } : State), 1, ((({ tag := 0x66002 + 1 } : Hub).read 2 { work with glb := { work.glb with dir := true, felt := [(1, { image := 0x1000, len := 128, state := 1 })] }, mem := [(0x10000000000, 1)] } 0x1000 128).1 : State), (List.replicate 128 0 : List Byte), by decide +kernel⟩,
   ⟨({ work with glb := { work.glb with dir := true, felt := [(1, { image := 0x1000, len := 256, state := 2 })] } } : State), 1, by decide +kernel⟩,
   ⟨({ work with glb := { work.glb with dir := true, felt := [(1, { image := 0x1000, len := 256, state := 2 })] } } : State), 1, by decide +kernel⟩⟩
end FeltFirmware

namespace SiteSteps
theorem test_met :
    (∃ (s : State) (k : Fin 16), (s.quiet = false) ∧ ((s.site k).state = 0) ∧ ((s.site k).pwrReq = false) ∧ (s.clk.rootLock = true) ∧ (occupiedSite s k = true) ∧ (s.pins.thermTrip = false)) ∧
    (∃ (s : State) (k : Fin 16), (s.quiet = false) ∧ ((s.site k).state = 0) ∧ ((s.site k).pwrReq = true)) ∧
    (∃ (s : State) (k : Fin 16), (s.quiet = false) ∧ ((s.site k).state = 1) ∧ ((s.site k).pwrReq = true) ∧ ((s.site k).clkFwd = false)) ∧
    (∃ (s : State) (k : Fin 16), (s.quiet = false) ∧ ((s.site k).state = 1) ∧ ((s.site k).clkFwd = true)) ∧
    (∃ (s : State) (k : Fin 16), (s.quiet = false) ∧ ((s.site k).state = 2) ∧ ((s.site k).stopAt = none) ∧ ((s.site k).clkFwd = true) ∧ ((s.site k).rstRel = false)) ∧
    (∃ (s : State) (k : Fin 16), (s.quiet = false) ∧ ((s.site k).state = 2) ∧ ((s.site k).stopAt = none) ∧ ((s.site k).rstRel = true) ∧ ((s.site k).train = false)) ∧
    (∃ (s : State) (k : Fin 16), (s.quiet = false) ∧ ((s.site k).state = 3) ∧ (k.val < 8) ∧ ((∀ i, i < 16 → Tab.get ({} : ModTrain) s.fuses.lanes (16 * k.val + i) = {}))) ∧
    (∃ (s : State) (k : Fin 16) (bad : BitVec 32), (s.quiet = false) ∧ ((s.site k).state = 3) ∧ (8 ≤ k.val) ∧ (bad = 0) ∧ ((∀ i, i < 32 → 32 * (k.val - 8) + i ∉ s.chOut))) :=
  ⟨⟨({ up with sites := [] } : State), 15, by decide +kernel⟩,
   ⟨({ up with sites := [(15, { pwrReq := true })] } : State), 15, by decide +kernel⟩,
   ⟨({ up with sites := [(15, { pwrReq := true, state := 1 })] } : State), 15, by decide +kernel⟩,
   ⟨({ up with sites := [(15, { pwrReq := true, state := 1, clkFwd := true })] } : State), 15, by decide +kernel⟩,
   ⟨({ up with sites := [(15, { pwrReq := true, state := 2, clkFwd := true })] } : State), 15, by decide +kernel⟩,
   ⟨({ up with sites := [(15, { pwrReq := true, state := 2, clkFwd := true, rstRel := true })] } : State), 15, by decide +kernel⟩,
   ⟨({ up with sites := [(7, { pwrReq := true, state := 3, clkFwd := true, rstRel := true, train := true })] } : State), 7, by decide +kernel⟩,
   ⟨({ up with sites := [(15, { pwrReq := true, state := 3, clkFwd := true, rstRel := true, train := true })] } : State), 15, 0, by decide +kernel⟩⟩
end SiteSteps

namespace SiteStops
theorem test_met :
    (∃ (s : State) (k : Fin 16), (s.quiet = false) ∧ (occupiedSite s k = true) ∧ (siteUp s k = true)) ∧
    (∃ (s : State) (k : Fin 16) (st : Nat), (s.quiet = false) ∧ ((s.site k).stopAt = some st) ∧ (s.txns = []) ∧ ((k.val ≥ 8 ∨ s.lla.dir = [])) ∧ (st ≠ 0)) ∧
    (∃ (s : State) (k : Fin 16) (b : Fin 3), (s.quiet = false) ∧ (occupiedSite s k = true) ∧ ((s.site k).state = 2) ∧ ((s.site k).stopAt = none) ∧ ((s.site k).pwrReq = true) ∧ ((s.site k).clkFwd = true) ∧ ((s.site k).rstRel = true)) ∧
    (∃ (s : State) (k : Fin 16), (s.quiet = false) ∧ (siteUp s k = true)) ∧
    (∃ (s : State) (d : Fin 48), ((Tab.get ({} : Pd) s.tel.pd d).state = 2) ∧ (¬(8 ≤ d.val ∧ d.val ≤ 15))) ∧
    (∃ (s : State) (d : Fin 48), (8 ≤ d.val) ∧ (d.val ≤ 15) ∧ ((Tab.get ({} : Pd) s.tel.pd d).state = 2) ∧ (siteUp s (d - 8) = true)) ∧
    (∃ (s : State) (d : Fin 48), ((Tab.get ({} : Pd) s.tel.pd d).state = 3)) :=
  ⟨⟨({ work with cores := [(5, { st := .running }), (30, { st := .running })], mem := [(5, 7)] } : State), 0, by decide +kernel⟩,
   ⟨({ work with sites := [(0, { state := 2, stopAt := some 1, pwrReq := true })] } : State), 0, 1, by decide +kernel⟩,
   ⟨({ work with sites := [(0, { state := 2, pwrReq := true, clkFwd := true, rstRel := true })] } : State), 0, 2, by decide +kernel⟩,
   ⟨work, 0, by decide +kernel⟩,
   ⟨({ work with tel := { pd := [(24, { state := 2 })] } } : State), 24, by decide +kernel⟩,
   ⟨({ work with tel := { pd := [(15, { state := 2 })] } } : State), 15, by decide +kernel⟩,
   ⟨({ work with tel := { pd := [(15, { state := 3 })] } } : State), 15, by decide +kernel⟩⟩
end SiteStops

namespace ChartSessions
abbrev ready (s : State) (a : Path) (p : ChartPath) : Prop := chartPath s a = some p ∧ s.fcu.safe = false ∧ otherPath s p = false
theorem test_met :
    (∃ (s : State) (a : Path) (p : ChartPath), (ready s a p) ∧ ((s.chart.state = 0 ∨ s.chart.state = 3 ∨ s.chart.state = 5 ∨ s.chart.state = 6))) ∧
    (∃ (s : State) (a : Path) (p : ChartPath), (ready s a p) ∧ (s.chart.state = 1) ∧ (s.chart.session = some p)) ∧
    (∃ (s : State) (a : Path) (p : ChartPath), (ready s a p) ∧ (s.chart.session = some p) ∧ (s.chart.state ≠ 1)) ∧
    (∃ (s : State) (a : Path) (p : ChartPath), (chartPath s a = some p) ∧ (s.fcu.safe = false) ∧ (otherPath s p = true)) ∧
    (∃ (s : State) (a : Path) (p : ChartPath), (ready s a p) ∧ (s.chart.state ≠ 4)) ∧
    (∃ (s : State) (a : Path) (p : ChartPath) (off : BitVec 19) (wide : Bool) (v : BitVec 64), (ready s a p) ∧ (s.chart.session = some p) ∧ (s.chart.state = 1) ∧ (let n := if wide then 8 else 4; off.toNat % n = 0)) ∧
    (∃ (s : State) (a : Path) (p : ChartPath) (off : BitVec 19) (v : BitVec 64), (chartPath s a = some p) ∧ (s.chart.session = none) ∧ (s.chart.state ≠ 1) ∧ (off = 0)) ∧
    (∃ (s : State) (p : ChartPath), (s.quiet = false) ∧ (s.chart.session = some p) ∧ ((s.chart.state = 1 ∨ s.chart.state = 3)) ∧ (s.chart.lastActivity + 10000000000 ≤ s.time)) ∧
    (∃ (s : State), (s.quiet = false) ∧ (s.chart.state = 2) ∧ (s.chart.ended = false)) :=
  ⟨⟨({ charted with chart := { state := 5, cmdDiscarded := true, error := 3, buf := [(4, 1)] } } : State), (.mgmt 1 : Path), (.mgmt 1 : ChartPath), by decide +kernel⟩,
   ⟨({ charted with chart := { state := 1, session := some (.mgmt 1) } } : State), (.mgmt 1 : Path), (.mgmt 1 : ChartPath), by decide +kernel⟩,
   ⟨({ charted with chart := { state := 3, session := some (.mgmt 1) } } : State), (.mgmt 1 : Path), (.mgmt 1 : ChartPath), by decide +kernel⟩,
   ⟨({ charted with chart := { state := 3, session := some .host } } : State), (.mgmt 1 : Path), (.mgmt 1 : ChartPath), by decide +kernel⟩,
   ⟨({ charted with chart := { state := 3, session := some (.mgmt 1) } } : State), (.mgmt 1 : Path), (.mgmt 1 : ChartPath), by decide +kernel⟩,
   ⟨({ charted with chart := { state := 1, session := some (.mgmt 1), buf := [(9, 7)] } } : State), (.mgmt 1 : Path), (.mgmt 1 : ChartPath), 8, true, 0x0807060504030201, by decide +kernel⟩,
   ⟨({ charted with chart := { state := 5 } } : State), (.mgmt 1 : Path), (.mgmt 1 : ChartPath), 0, 1, by decide +kernel⟩,
   ⟨({ charted with chart := { state := 3, session := some .host, lastActivity := 1 }, time := 10000000001 } : State), (.host : ChartPath), by decide +kernel⟩,
   ⟨({ charted with chart := { state := 2, session := some .host } } : State), by decide +kernel⟩⟩
end ChartSessions

namespace ChartApplies
theorem test_met :
    (∃ (s : State) (a : Path) (p : ChartPath), (chartPath s a = some p) ∧ (s.fcu.safe = false) ∧ (s.chart.session = some p) ∧ (s.chart.state = 3) ∧ (s.chart.epoch = 0)) ∧
    (∃ (s : State) (a : Path) (p : ChartPath), (chartPath s a = some p) ∧ (s.fcu.safe = false) ∧ (s.chart.session = some p) ∧ (s.chart.state = 3) ∧ (s.chart.epoch ≠ 0) ∧ (quiescent s = false)) ∧
    (∃ (s : State) (c : Chart), (s.quiet = false) ∧ (s.chart.state = 4) ∧ (s.chart.reload = false) ∧ (s.chart.verified = some c) ∧ (s.txns = []) ∧ (s.chart.epoch = 0)) :=
  ⟨⟨({ charted with chart := { state := 3, session := some (.mgmt 1), verified := some chart } } : State), (.mgmt 1 : Path), (.mgmt 1 : ChartPath), by decide +kernel⟩,
   ⟨({ charted with chart := { state := 3, session := some (.mgmt 1), verified := some chart, epoch := 1 }, cores := [(5, { st := .running })] } : State), (.mgmt 1 : Path), (.mgmt 1 : ChartPath), by decide +kernel⟩,
   ⟨({ charted with chart := { state := 4, session := some (.mgmt 1), verified := some chart }, mem := [(5, 7)] } : State), chart, by decide +kernel⟩⟩
end ChartApplies

namespace TileMoverRuns
abbrev one (s : State) (c q : Nat) (d : TmDesc) (f : DescF) : Prop := tmHead s c q = some d ∧ descF d.raw = f ∧ d.fail = none ∧
    d.runs = 0 ∧ d.pos = 0 ∧ d.last = 0 ∧ d.bytes = 0 ∧ (s.core c).st ≠ .reset ∧ ((s.core c).tqr q).stopped = false ∧ siteUp s (c / 24) = true ∧ s.quiet = false
abbrev begun (s : State) (c q : Nat) (d : TmDesc) : State := setHead s c q { d with started := true }
abbrev flat (f : DescF) : Prop := f.e1 = 1 ∧ f.e2 = 1 ∧ f.e3 = 1 ∧ 1 ≤ f.e0 ∧ f.g % 128 + f.e0 ≤ 128 ∧ f.g < 2 ^ 57 ∧ f.t % 128 + f.e0 ≤ 128
abbrev d1_1 : TmDesc := { raw := fields 512 [(0, 1), (4, 16), (0x10, 5 * 0x400000 + 8), (0x14, 1), (0x16, 1), (0x18, 1)] }
abbrev f1_1 : DescF := descF (fields 512 [(0, 1), (4, 16), (0x10, 5 * 0x400000 + 8), (0x14, 1), (0x16, 1), (0x18, 1)])
abbrev s1_1 : State := { moving d1_1 with mem := [(3, 7)] }
abbrev d2_1 : TmDesc := { raw := fields 512 [(0, 2), (4, 16), (0x10, 5 * 0x400000 + 8), (0x14, 1), (0x16, 1), (0x18, 1)] }
abbrev f2_1 : DescF := descF (fields 512 [(0, 2), (4, 16), (0x10, 5 * 0x400000 + 8), (0x14, 1), (0x16, 1), (0x18, 1)])
abbrev s2_1 : State := { moving d2_1 with mcs := [(0, { ch0 := 2 })] }
abbrev d3_1 : TmDesc := { raw := fields 512 [(0, 3), (4, 16), (8, 6 * 0x400000 + 3), (0x10, 5 * 0x400000 + 8), (0x14, 1), (0x16, 1), (0x18, 1)] }
abbrev d4_1 : TmDesc := { raw := fields 512 [(0, 4), (8, 64), (0x28, 5)] }
abbrev f4_1 : DescF := descF (fields 512 [(0, 4), (8, 64), (0x28, 5)])
abbrev d5_1 : TmDesc := { raw := fields 512 [(0, 1), (1, 1), (2, 4), (4, 16), (0x14, 1), (0x16, 1), (0x18, 1)], started := true, runs := 1, bytes := 16 }
abbrev d6_1 : TmDesc := { raw := fields 512 [(0, 1), (4, 16), (0x14, 1), (0x16, 1), (0x18, 1)], started := true, fail := some (3, 0) }
theorem test_met :
    (∃ (d : TmDesc) (f : DescF) (s : State) (n : Fin 144) (q : Fin 4) (c : Nat) (t : Nat) (o : Nat) (bs : List Byte) (u : State), (coreOf s n = some c) ∧ (one s c q d f) ∧ (flat f) ∧ (f.op = 1) ∧ (let v := begun s c q d; tmSide v c f.t = .at t o) ∧ (let v := begun s c q d; (tmEng v c q f).read v f.g f.e0 = (u, .ok bs)) ∧ ((u.core t).ue = [])) ∧
    (∃ (d : TmDesc) (f : DescF) (s : State) (n : Fin 144) (q : Fin 4) (c : Nat) (t : Nat) (o : Nat) (bs : List Byte) (u : State), (coreOf s n = some c) ∧ (one s c q d f) ∧ (flat f) ∧ (f.op = 2) ∧ (let v := begun s c q d; tmSide v c f.t = .at t o) ∧ (let v := begun s c q d; badWord v t o f.e0 = none) ∧ (let v := begun s c q d; (tmEng v c q f).write v f.g (tileBytes v t o f.e0) = (u, .ok bs)) ∧ (tagBusy u (tmTag c q) = true)) ∧
    (∃ (d : TmDesc) (f : DescF) (s : State) (n : Fin 144) (q : Fin 4) (c : Nat) (t : Nat) (o : Nat) (b : Nat) (so : Nat), (coreOf s n = some c) ∧ (one s c q d f) ∧ (flat f) ∧ (f.op = 3) ∧ (let v := begun s c q d; tmSide v c f.t = .at t o) ∧ (let v := begun s c q d; tmSide v c f.g = .at b so) ∧ (let v := begun s c q d; badWord v b so f.e0 = none) ∧ (let v := begun s c q d; (v.core t).ue = [])) ∧
    (∃ (d : TmDesc) (f : DescF) (s : State) (n : Fin 144) (q : Fin 4) (c : Nat) (bs : List Byte) (u : State), (coreOf s n = some c) ∧ (one s c q d f) ∧ (f.op = 4) ∧ ((tmEng s c q f).atomic s f.g 0x10 f.addend = (u, .ok bs))) ∧
    (∃ (d : TmDesc) (f : DescF) (s : State) (n : Fin 144) (q : Fin 4) (c : Nat), (coreOf s n = some c) ∧ (tmHead s c q = some d) ∧ (descF d.raw = f) ∧ ((f.op = 1 ∨ f.op = 3)) ∧ (d.fail = none) ∧ (f.total ≤ d.runs) ∧ (d.started = true) ∧ (padded s (tmTag c q) = false) ∧ (s.quiet = false)) ∧
    (∃ (d : TmDesc) (s : State) (n : Fin 144) (q : Fin 4) (c : Nat) (st : Nat) (run : Nat), (coreOf s n = some c) ∧ (tmHead s c q = some d) ∧ (d.fail = some (st, run)) ∧ (s.quiet = false)) :=
  ⟨⟨d1_1, f1_1, s1_1, 5, 2, 5, 5, 8, (([0, 0, 0, 7] : List Byte) ++ List.replicate 12 0 : List Byte), (((tmEng (setHead s1_1 5 2 { d1_1 with started := true }) 5 2 f1_1).read (setHead s1_1 5 2 { d1_1 with started := true }) f1_1.g f1_1.e0).1 : State), by decide +kernel, by decide +kernel, by decide +kernel, by decide +kernel, by decide +kernel, rfl, by decide +kernel⟩,
   ⟨d2_1, f2_1, s2_1, 5, 2, 5, 5, 8, ([] : List Byte), (((tmEng (setHead s2_1 5 2 { d2_1 with started := true }) 5 2 f2_1).write (setHead s2_1 5 2 { d2_1 with started := true }) f2_1.g (tileBytes (setHead s2_1 5 2 { d2_1 with started := true }) 5 8 f2_1.e0)).1 : State), by decide +kernel, by decide +kernel, by decide +kernel, by decide +kernel, by decide +kernel, by decide +kernel, rfl, by decide +kernel⟩,
   ⟨d3_1, (descF (fields 512 [(0, 3), (4, 16), (8, 6 * 0x400000 + 3), (0x10, 5 * 0x400000 + 8), (0x14, 1), (0x16, 1), (0x18, 1)]) : DescF), ({ moving d3_1 with cores := (moving d3_1).cores ++ [(6, { st := .halted, tmem := [(3, 9)] })] } : State), 5, 2, 5, 5, 8, 6, 3, by decide +kernel⟩,
   ⟨d4_1, f4_1, (moving d4_1 : State), 5, 2, 5, ((((tmEng (moving d4_1 : State) 5 2 f4_1).atomic (moving d4_1 : State) f4_1.g 0x10 f4_1.addend).2 |> fun r => match r with | .ok bs => bs | _ => []) : List Byte), (((tmEng (moving d4_1 : State) 5 2 f4_1).atomic (moving d4_1 : State) f4_1.g 0x10 f4_1.addend).1 : State), by decide +kernel, by decide +kernel, by decide +kernel, rfl⟩,
   ⟨d5_1, (descF d5_1.raw : DescF), (moving d5_1 : State), 5, 2, 5, by decide +kernel⟩,
   ⟨d6_1, (moving d6_1 : State), 5, 2, 5, 3, 0, by decide +kernel⟩⟩
end TileMoverRuns

namespace LaunchRuns
abbrev c1_1 : Cmd := cmdOfOp 0x10 [(0x10, 32)]
abbrev c2_1 : Cmd := cmdOfOp 0x10 [(0x10, 32)]
abbrev c3_1 : Cmd := { cmdOfOp 0x10 [(0x10, 32), (0x28, 128), (0x38, 77), (0x70, 88)] with stage := 1 }
abbrev c4_1 : Cmd := { cmdOfOp 0x10 [(0x10, 32)] with stage := 2 }
abbrev c5_1 : Cmd := { cmdOfOp 0x10 [(0x10, 32)] with stage := 2 }
theorem test_met :
    (∃ (c : Cmd) (s : State) (q : Fin 4096), (s.quiet = false) ∧ (mayStart s q = false) ∧ ((s.queue q).cmd = some c) ∧ (c.opc = 0x10) ∧ (c.result = none) ∧ (c.stage = 0) ∧ (c.aborting = false) ∧ (launchCores c ≠ []) ∧ ((∀ n ∈ launchCores c, coreUnfit s n = false)) ∧ ((∃ r, sliceRec s (queueSlice s q) = some r ∧ ∀ n ∈ launchCores c, r.cores.toNat.testBit n = true))) ∧
    (∃ (c : Cmd) (s : State) (q : Fin 4096), (s.quiet = false) ∧ (mayStart s q = false) ∧ ((s.queue q).cmd = some c) ∧ (c.opc = 0x10) ∧ (c.result = none) ∧ (c.stage = 0) ∧ (c.aborting = false) ∧ ((∀ r, sliceRec s (queueSlice s q) = some r → ∃ n ∈ launchCores c, r.cores.toNat.testBit n = false)) ∧ (launchCores c ≠ [])) ∧
    (∃ (c : Cmd) (s : State) (q : Fin 4096) (n : Nat) (k : Nat), (s.quiet = false) ∧ ((s.queue q).cmd = some c) ∧ (c.opc = 0x10) ∧ (c.result = none) ∧ (c.stage = 1) ∧ (c.aborting = false) ∧ (launchCores c = [n]) ∧ (coreOf s n = some k) ∧ (coreUnfit s n = false) ∧ ((s.core k).st = .halted) ∧ (customerDie s (k / 24) = false) ∧ (slotLe c.raw 0x2C 4 = 0)) ∧
    (∃ (c : Cmd) (s : State) (q : Fin 4096), (s.quiet = false) ∧ ((s.queue q).cmd = some c) ∧ (c.opc = 0x10) ∧ (c.result = none) ∧ (c.stage = 2) ∧ (c.aborting = false) ∧ ((∀ n ∈ launchCores c, ∃ k, coreOf s n = some k ∧ (s.core k).st = .halted ∧ (s.core k).trapCause = 0 ∧ customerDie s (k / 24) = false ∧ coreGone s n = false))) ∧
    (∃ (c : Cmd) (s : State) (q : Fin 4096) (n : Nat) (k : Nat), (s.quiet = false) ∧ ((s.queue q).cmd = some c) ∧ (c.opc = 0x10) ∧ (c.result = none) ∧ (c.stage = 2) ∧ (c.aborting = false) ∧ (launchCores c = [n]) ∧ (coreOf s n = some k) ∧ ((s.core k).st = .halted) ∧ ((s.core k).trapCause ≠ 0) ∧ (customerDie s (k / 24) = false) ∧ (coreGone s n = false)) ∧
    (∃ (s : State) (n : Fin 144) (k : Nat), (coreOf s n = some k) ∧ (s.quiet = false) ∧ (s.glb.open_ = true) ∧ ((s.core k).st ≠ .retired)) :=
  ⟨⟨c1_1, (busy c1_1 : State), 33, by decide +kernel⟩,
   ⟨c2_1, ({ busy c2_1 with chart := { state := 5, epoch := 1, applied := some { chart with slices := [{ slice := 3, squash := false, share := 0, qFirst := 32, qCount := 16, regionMask := 1, cores := 1 }] } } } : State), 33, by decide +kernel⟩,
   ⟨c3_1, ({ busy c3_1 with cores := [(5, { st := .halted, x := [(1, 3)], tmem := [(5, 6)] })] } : State), 33, 5, 5, by decide +kernel⟩,
   ⟨c4_1, ({ busy c4_1 with cores := [(5, { st := .halted })] } : State), 33, by decide +kernel⟩,
   ⟨c5_1, ({ busy c5_1 with cores := [(5, { st := .halted, trapCause := 5 })] } : State), 33, 5, 5, by decide +kernel⟩,
   ⟨({ mapped with cores := [(5, { st := .running })] } : State), 5, 5, by decide +kernel⟩⟩
end LaunchRuns

namespace ArrayCommands
abbrev m6_1 : MaintOp := { op := 1, base := 0, size := 4096, ways := 0, reg := 2 }
abbrev m7_1 : MaintOp := { op := 1, base := 0, size := 4096, ways := 0, reg := 2 }
theorem test_met :
    (∃ (s : State), (s.quiet = false) ∧ (s.lla.state ≠ 3)) ∧
    (∃ (s : State), (s.quiet = false) ∧ (s.lla.state ≠ 3)) ∧
    (∃ (s : State), (s.quiet = false) ∧ (s.lla.state = 2) ∧ (s.lla.lines = [])) ∧
    (∃ (s : State), (s.quiet = false) ∧ (s.glb.initRun = true)) ∧
    (∃ (s : State) (j : Fin 32) (w : BitVec 16) (r : BitVec 7), (s.quiet = false)) ∧
    (∃ (i : Instr) (s : State) (j : Fin 32) (w : BitVec 16) (r : BitVec 7) (op : Nat), (s.quiet = false) ∧ ((s.home j).mState ≠ 1) ∧ ((i, op) ∈ [(Instr.clean (some j) w r, 1), (.invalidate (some j) w r, 2), (.cleanInvalidate (some j) w r, 3), (.llaZero (some j) w r, 4), (.preload (some j) w r, 5)])) ∧
    (∃ (i : Instr) (s : State) (j : Fin 32) (w : BitVec 16) (r : BitVec 7) (op : Nat), (s.quiet = false) ∧ ((s.home j).mState ≠ 1) ∧ ((i, op) ∈ [(Instr.clean (some j) w r, 1), (.invalidate (some j) w r, 2), (.cleanInvalidate (some j) w r, 3), (.llaZero (some j) w r, 4), (.preload (some j) w r, 5)])) ∧
    (∃ (i : Instr) (s : State) (j : Fin 32) (w : BitVec 16) (r : BitVec 7) (op : Nat), (s.quiet = false) ∧ ((s.home j).mState ≠ 1) ∧ ((i, op) ∈ [(Instr.clean (some j) w r, 1), (.invalidate (some j) w r, 2), (.cleanInvalidate (some j) w r, 3), (.llaZero (some j) w r, 4), (.preload (some j) w r, 5)])) ∧
    (∃ (m : MaintOp) (s : State) (j : Fin 32) (w : BitVec 16) (r : BitVec 7), (s.quiet = false) ∧ ((s.home j).mState = 1) ∧ ((s.home j).running = some m) ∧ (1 ≤ m.op) ∧ (m.op ≤ 3) ∧ (s.lla.lines = [])) ∧
    (∃ (m : MaintOp) (s : State) (j : Fin 32), (s.quiet = false) ∧ ((s.home j).running = some m) ∧ (m.op = 1) ∧ (heldLines s j m = []) ∧ ((s.home j).pos.bad = false)) :=
  ⟨⟨work, by decide +kernel⟩,
   ⟨({ work with lla := { state := 1, enable := true } } : State), by decide +kernel⟩,
   ⟨({ work with lla := { state := 2 } } : State), by decide +kernel⟩,
   ⟨({ work with glb := { work.glb with initRun := true, step := 4, stepState := 1 }, lla := { lines := [(3, { valid := true })] } } : State), by decide +kernel⟩,
   ⟨work, 31, 5, 3, by decide +kernel⟩,
   ⟨(.clean (some 3) 5 2 : Instr), ({ work with lla := { slices := [(3, { mSize := 4096 })] } } : State), 3, 5, 2, 1, by decide +kernel⟩,
   ⟨(.llaZero (some 3) 5 2 : Instr), work, 3, 5, 2, 4, by decide +kernel⟩,
   ⟨(.preload (some 3) 0 2 : Instr), ({ work with lla := { slices := [(3, { mSize := 4096 })] } } : State), 3, 0, 2, 5, by decide +kernel⟩,
   ⟨m6_1, ({ work with lla := { slices := [(3, { mState := 1, running := some m6_1 })] } } : State), 3, 0, 2, by decide +kernel⟩,
   ⟨m7_1, ({ work with lla := { slices := [(3, { mState := 1, running := some m7_1 })] } } : State), 3, by decide +kernel⟩⟩
end ArrayCommands

namespace MaintenanceEffect
abbrev m1_1 : MaintOp := { op := 2, base := 0, size := 4096, ways := 0, reg := 2 }
abbrev m2_1 : MaintOp := { op := 4, base := 0, size := 4096, ways := 0, reg := 2 }
theorem test_met :
    (∃ (m : MaintOp) (s : State) (j : Fin 32), (s.quiet = false) ∧ ((s.home j).running = some m) ∧ (m.op = 2) ∧ ((s.home j).pos = {}) ∧ ((heldLines s j m).length ≤ 2 ^ 64)) ∧
    (∃ (m : MaintOp) (s : State) (j : Fin 32) (r : Region), (s.quiet = false) ∧ ((s.home j).running = some m) ∧ (m.op = 4) ∧ ((s.home j).pos = {}) ∧ (agentLines s j m = []) ∧ ((∀ t ∈ s.txns, t.active = false)) ∧ (rangeRegion s m.base m.size = some r) ∧ ((∀ ch, 8 * j.val ≤ ch → ch < 8 * j.val + 8 → chanState s ch = 1)) ∧ (spanLines (maintSpans s j m).2 ≤ 2 ^ 64) ∧ ((m.reg < 70 → s.cfg.strict = false ∧ s.noc.throttled = false))) :=
  ⟨⟨m1_1, ({ work with lla := { state := 1, enable := true, slices := [(3, { mState := 1, running := some m1_1 })], lines := [(3 * 262144 + 2 * 16 + 5, { valid := true, tag := 3, dirty := true }), (3 * 262144 + 2 * 16 + 6, { valid := true, tag := 300 })] } } : State), 3, by decide +kernel⟩,
   ⟨m2_1, ({ work with lla := { state := 1, enable := true, slices := [(0, { mState := 1, running := some m2_1 })] }, mem := [(5, 7), (256, 3)] } : State), 0, (chart.regions.headD { num := 0, interleave := 0, target := 0, granule := 256, hash := false, cache := true, remoteCacheable := false, scrub := true, sharedRo := false, stash := true, base := 0, size := 0, readMask := 0, writeMask := 0, owner := 3, hostAccess := 15 } : Region), by decide +kernel, by decide +kernel, by decide +kernel, by decide +kernel, by decide +kernel, by decide +kernel, by decide +kernel, by intro ch x h; clear x; revert ch; decide +kernel, by decide +kernel, by decide +kernel⟩⟩
end MaintenanceEffect

namespace ControllerEvents
theorem test_met :
    (∃ (s : State) (ch : Fin 256) (l : BitVec 25), (chanBusy s ch = true) ∧ (s.glb.open_ = true)) ∧
    (∃ (s : State) (ch : Fin 256) (l : BitVec 25), (chanBusy s ch = true) ∧ (s.glb.open_ = true) ∧ (regionAt s ch (l.toNat * 128) = none)) ∧
    (∃ (s : State) (ch : Fin 256), (s.quiet = false) ∧ (chanState s ch = 1) ∧ (Tab.get 0 s.fuses.ppr (ch.val / 32) < 256)) ∧
    (∃ (s : State) (ch : Fin 256), (s.quiet = false) ∧ (chanState s ch = 1)) ∧
    (∃ (s : State) (ch : Fin 256), (s.quiet = false) ∧ ((chanState s ch = 1 ∨ chanState s ch = 2))) ∧
    (∃ (s : State) (k : Fin 8) (t : BitVec 8), (siteUp s (8 + k) = true) ∧ (t.toNat < 85) ∧ ((Tab.get ({} : Stack) s.hstacks k).therm = 0)) ∧
    (∃ (s : State) (k : Fin 8) (t : BitVec 8), (siteUp s (8 + k) = true) ∧ (110 ≤ t.toNat) ∧ (s.pins.thermTrip = false)) ∧
    (∃ (s : State) (ch : Fin 256), (chanBusy s ch = true) ∧ ((Tab.get ({} : Stack) s.hstacks (ch.val / 32)).recalCh = none) ∧ (recalAt s ch ≤ s.time)) ∧
    (∃ (s : State) (ch : Fin 256), (s.quiet = false) ∧ (chanState s ch = 2)) :=
  ⟨⟨work, 255, 7, by decide +kernel⟩,
   ⟨work, 255, 0x1000000, by decide +kernel⟩,
   ⟨work, 255, by decide +kernel⟩,
   ⟨work, 255, by decide +kernel⟩,
   ⟨({ work with sites := (15, { state := 4, unitsUp := 32 }) :: work.sites.take 15 |>.reverse, mem := [(5, 7)] } : State), 255, by decide +kernel⟩,
   ⟨work, 7, 84, by decide +kernel⟩,
   ⟨work, 7, 110, by decide +kernel⟩,
   ⟨({ work with time := 1000000000000 } : State), 255, by decide +kernel⟩,
   ⟨({ work with mcs := [(127, { ch1 := 2 })], mem := [(5, 7)] } : State), 255, by decide +kernel⟩⟩
end ControllerEvents

namespace TranslationCommands
abbrev miss (s : State) (n p a va : Nat) : Prop := s.quiet = false ∧ va < 2 ^ 57 ∧ (a = 0 ∨ writeHeld s n va = false) ∧ microFind s p n va = none
abbrev s4_1 : State := { tabled with queues := [(33, { state := 1, cmd := some (cmdOfOp 2 [(0x18, 0x40000000), (0x20, 4096), (0x24, 64), (0x28, 1), (0x2C, 1), (0x48, 4096)]) })] }
abbrev r9_1 : InvReq := { op := 2, slice := 3, seq := 7, addr := 0, size := 0 }
abbrev f10_1 : FabOp := { id := 4, slice := 3, regions := 1, acquire := true, contexts := 0, keep := true }
abbrev f10_2 : FabOp := { id := 4, slice := 3, regions := 1, acquire := false, contexts := 0, keep := true }
theorem test_met :
    (∃ (s : State) (n : Fin 64) (p : Fin 12) (a : Fin 3) (dva : BitVec 64) (u : State) (e : TlbEntry), (miss s n p a dva.toNat) ∧ (tlbFind s n dva.toNat = none) ∧ (walk s (missKey n p) n dva.toNat = (u, .leaf e)) ∧ ((if a = 0 then e.r else if a = 1 then e.w else e.a) = true)) ∧
    (∃ (s : State) (n : Fin 64) (p : Fin 12) (a : Fin 3) (dva : BitVec 64) (u : State) (r : Nat) (l : Nat), (miss s n p a dva.toNat) ∧ (tlbFind s n dva.toNat = none) ∧ (walk s (missKey n p) n dva.toNat = (u, .fault r l)) ∧ (r ≠ 8)) ∧
    (∃ (s : State) (n : Fin 64) (p : Fin 12) (a : Fin 3) (dva : BitVec 64) (e : TlbEntry), (miss s n p a dva.toNat) ∧ (tlbFind s n dva.toNat = some e) ∧ (s.gtu.walks = []) ∧ ((if a = 0 then e.r else if a = 1 then e.w else e.a) = false)) ∧
    (∃ (s : State) (n : Fin 64) (dva : BitVec 57) (tag : Nat) (t : Nat) (u : State) (e : TlbEntry), (s.quiet = false) ∧ (s.gtu.ahead = []) ∧ (let page := dva.toNat / 4096; (streamsOf s n).findSome? (fun st => (st.tileAhead page).map (fun t => (st.tag, t))) = some (tag, t)) ∧ (tlbFind s n dva.toNat = none) ∧ (let page := dva.toNat / 4096; walk { s with gtu := { s.gtu with ahead := [(tag, t, page)] } } (2 ^ 60 + n * 2 ^ 46 + page) n dva.toNat true = (u, .leaf e))) ∧
    (∃ (s : State) (n : Fin 64) (v : BitVec 64), (s.quiet = false) ∧ (occupied s n = false)) ∧
    (∃ (s : State) (n : Fin 64) (v : BitVec 64), (s.quiet = false) ∧ (occupied s n = true)) ∧
    (∃ (s : State) (n : BitVec 6) (q : BitVec 16), (s.quiet = false)) ∧
    (∃ (i : Instr) (s : State) (n : BitVec 6) (q : BitVec 16) (op : Nat), (s.quiet = false) ∧ ((i, op) ∈ [(Instr.invModule n q, 1), (.invContext n q, 2), (.invRange n q, 3)])) ∧
    (∃ (r : InvReq) (l : List InvReq) (s : State), (s.quiet = false) ∧ (s.gtu.invq = r :: l) ∧ ((∀ e ∈ heldEntries s, r.covers e = true → entryInFlight s e = false))) ∧
    (∃ (f : FabOp) (s : State), (s.quiet = false) ∧ (s.fabOps = [f]) ∧ (f.contexts = 0) ∧ (f.regions ≠ 0) ∧ (f.keep = true)) ∧
    (∃ (f : FabOp) (s : State), (s.quiet = false) ∧ (s.fabOps = [f]) ∧ (f.contexts = 0) ∧ (f.regions ≠ 0) ∧ (f.keep = true)) :=
  ⟨⟨tabled, 3, 11, 1, 0x40000008, ((walk tabled (missKey 3 11) 3 (0x40000008 : BitVec 64).toNat).1 : State), ({ slice := 3, va := 0x40000000, size := 0x40000000, pa := 0, r := true, w := true, a := false, noalloc := false } : TlbEntry), by decide +kernel, by decide +kernel, pair _ (by decide +kernel), by decide +kernel⟩,
   ⟨tabled, 3, 11, 1, 8, ((walk tabled (missKey 3 11) 3 (8 : BitVec 64).toNat).1 : State), 3, 0, by decide +kernel, by decide +kernel, pair _ (by decide +kernel), by decide +kernel⟩,
   ⟨({ mapped with gtu := { tlb := [{ slice := 3, va := 0, size := 0x40000000, pa := 0, r := true, w := true, a := false, noalloc := false }] } } : State), 3, 11, 2, 8, ({ slice := 3, va := 0, size := 0x40000000, pa := 0, r := true, w := true, a := false, noalloc := false } : TlbEntry), by decide +kernel⟩,
   ⟨s4_1, 3, 0x40010008, (33 + 2 ^ 62 : Nat), 1, ((walk { s4_1 with gtu := { s4_1.gtu with ahead := [(33 + 2 ^ 62, 1, 0x40010)] } } (2 ^ 60 + 3 * 2 ^ 46 + 0x40010) 3 (0x40010008 : BitVec 57).toNat true).1 : State), ({ slice := 3, va := 0x40000000, size := 0x40000000, pa := 0, r := true, w := true, a := false, noalloc := false } : TlbEntry), by decide +kernel, by decide +kernel, by decide +kernel, by decide +kernel, pair _ (by decide +kernel)⟩,
   ⟨work, 63, 0xFFFFFFFFFFFFFFFF, by decide +kernel⟩,
   ⟨mapped, 3, 0xFFFFFFFFFFFFFFFF, by decide +kernel⟩,
   ⟨work, 63, 0xFFFF, by decide +kernel⟩,
   ⟨(.invRange 63 7 : Instr), work, 63, 7, 3, by decide +kernel⟩,
   ⟨r9_1, ([] : List InvReq), ({ mapped with gtu := { mapped.gtu with invq := [r9_1] } } : State), by decide +kernel⟩,
   ⟨f10_1, ({ mapped with fabOps := [f10_1] } : State), by decide +kernel⟩,
   ⟨f10_2, ({ mapped with fabOps := [f10_2] } : State), by decide +kernel⟩⟩
end TranslationCommands

namespace NetworkEvents
abbrev q3_1 : McReq := { ch := 255, reg := 69, svc := 1, arrival := 0, deadline := 0 }
abbrev m4_1 : MeterReq := { reg := 69, tag := 4, arrival := 0 }
abbrev q5_1 : McReq := { ch := 255, reg := 69, svc := 3, arrival := 0, deadline := 0 }
abbrev p6_1 : Pad := { slice := 63, tag := 4, due := 7 }
theorem test_met :
    (∃ (s : State), (s.quiet = false) ∧ (s.clk.rootLock = true) ∧ (s.cfg.strict = false)) ∧
    (∃ (s : State) (ch : Fin 256), (s.quiet = false)) ∧
    (∃ (q : McReq) (s : State) (n : Fin 70) (ch : Fin 256), (s.quiet = false) ∧ (s.noc.mcq = [q]) ∧ (q.ch = ch.val) ∧ (q.reg = n.val) ∧ (q.svc ≤ 1) ∧ (s.cfg.ageLimitNs < ageOf s q.arrival) ∧ (s.noc.exhausted.getLsbD n = false)) ∧
    (∃ (m : MeterReq) (s : State) (n : Fin 70), (s.quiet = false) ∧ (n.val ≠ 64) ∧ (n.val ≠ 65) ∧ (n.val ≠ 67) ∧ (s.noc.meters = [m]) ∧ (m.reg = n.val) ∧ (m.released = false) ∧ (s.cfg.ageLimitNs < ageOf s m.arrival)) ∧
    (∃ (q : McReq) (s : State) (i : Fin 128), (s.quiet = false) ∧ (s.noc.mcq = [q]) ∧ (q.ch / 2 = i.val) ∧ (q.svc = 3) ∧ (chanState s q.ch = 1) ∧ (q.reg < 70)) ∧
    (∃ (p : Pad) (s : State) (n : Fin 64), (s.quiet = false) ∧ (s.noc.pads = [p]) ∧ (p.slice = n.val) ∧ (p.due ≤ s.time)) ∧
    (∃ (s : State) (n : Fin 70) (v : BitVec 64), (s.quiet = false) ∧ (n.val < 69) ∧ (s.chart.state ≠ 4)) ∧
    (∃ (s : State) (n : Fin 70) (v : BitVec 64), (s.quiet = false) ∧ (n.val < 69) ∧ (s.chart.state ≠ 4)) ∧
    (∃ (s : State), (s.quiet = false)) ∧
    (∃ (s : State), (s.quiet = false) ∧ (s.time % 1024 = 0)) :=
  ⟨⟨({ work with noc := { regs := [(3, { tokens := 5, guar := 8 }), (69, { tokens := 39, guar := 2, next := some (4, 10), demand := 4, lines := 7 })] } } : State), by decide +kernel⟩,
   ⟨({ work with time := 9, noc := { mcq := [{ ch := 255, reg := 3, svc := 2, arrival := 0, deadline := 8 }, { ch := 255, reg := 3, svc := 2, arrival := 0, deadline := 9 }] } } : State), 255, by decide +kernel⟩,
   ⟨q3_1, ({ work with time := 20001, noc := { mcq := [q3_1], regs := [(69, { tokens := 1, guar := 2 })] } } : State), 69, 255, by decide +kernel⟩,
   ⟨m4_1, ({ work with time := 20001, noc := { meters := [m4_1], regs := [(69, { tokens := 1, guar := 2 })] } } : State), 69, by decide +kernel⟩,
   ⟨q5_1, ({ work with noc := { mcq := [q5_1] } } : State), 127, by decide +kernel⟩,
   ⟨p6_1, ({ work with time := 7, noc := { pads := [p6_1] } } : State), 63, by decide +kernel⟩,
   ⟨work, 68, 0x0001000000000000, by decide +kernel⟩,
   ⟨work, 68, 0x0002000000000000, by decide +kernel⟩,
   ⟨({ work with noc := { ini := [(3, { bytes := 4 })] } } : State), by decide +kernel⟩,
   ⟨({ work with time := 2048, noc := { tv := [(63, { tm := 0x50000 })] } } : State), by decide +kernel⟩⟩
end NetworkEvents

namespace SiteRequests
noncomputable abbrev rows (m : DkIn) (a b : BitVec 64) : List (Instr × Nat × Nat × Nat) :=
    [(.rdShare m .none, 1, 0, 0), (.rdOwn m .none, 2, 0, 0), (.upgrade m, 3, 0, 0), (.rdPeek m .none, 4, 0, 0), (.wrLine m, 5, 0, 0), (.wrBytes m, 6, 0, 0),
     (.wrback m, 7, 0, 0), (.atAdd m a b, 0x10, a.toNat, b.toNat), (.atSwap m a b, 0x11, a.toNat, b.toNat), (.atCas m a b, 0x12, a.toNat, b.toNat),
     (.atMin m a b, 0x13, a.toNat, b.toNat), (.atMax m a b, 0x14, a.toNat, b.toNat)]
abbrev well (s u : State) (m : DkIn) (o b : Nat) : Prop := came s u m 1 o reqFields ∧ reqBadField u m b = false ∧ reqReuse u m = false ∧
    (o = 1 ∨ o = 2 ∨ o = 3 ∨ o = 7 → cachingSite u m.site = true)
abbrev opened (u : State) (m : DkIn) : State := setDk u m.site { u.dk m.site with outstanding := (u.dk m.site).outstanding ++ [(m.txn.toNat, m.addr.toNat / 128)] }
abbrev m1_1 : DkIn := header 6 1 0x12 [(64, 256), (48, 5), (32, 1)]
abbrev s1_1 : State := { linked 6 open' with chart := { state := 5, epoch := 1, applied := some { chart with regions := chart.regions.map (fun r => { r with hostAccess := 15 }) } } }
abbrev m2_1 : DkIn := header 7 1 4 [(64, 0x40000000), (48, 5)]
abbrev m3_1 : DkIn := header 0 1 1 [(64, 256), (48, 5), (38, 23)]
abbrev m3_2 : DkIn := header 0 1 7 [(64, 256), (48, 5), (38, 23), (32, 8)]
theorem test_met :
    (∃ (m : DkIn) (i : Instr) (s : State) (u : State) (x : BitVec 64) (y : BitVec 64) (o : Nat) (a : Nat) (b : Nat), ((i, o, a, b) ∈ rows m x y) ∧ (well s u m o b) ∧ (6 ≤ m.site.val) ∧ (safAllows (opened u m) (m.site - 6) o m.addr.toNat = true)) ∧
    (∃ (m : DkIn) (i : Instr) (s : State) (u : State) (x : BitVec 64) (y : BitVec 64) (o : Nat) (a : Nat) (b : Nat), ((i, o, a, b) ∈ rows m x y) ∧ (well s u m o b) ∧ (6 ≤ m.site.val) ∧ (safAllows (opened u m) (m.site - 6) o m.addr.toNat = false)) ∧
    (∃ (m : DkIn) (i : Instr) (s : State) (u : State) (x : BitVec 64) (y : BitVec 64) (o : Nat) (a : Nat) (b : Nat) (lg : Nat) (sl : Nat), ((i, o, a, b) ∈ rows m x y) ∧ (well s u m o b) ∧ (m.site.val < 6) ∧ (logicalOf (opened u m) (m.site * 24 + m.unit.toNat) = some lg) ∧ (sliceOfCore (opened u m) (m.site * 24 + m.unit.toNat) = some sl)) ∧
    (∃ (m : DkIn) (i : Instr) (s : State) (u : State) (x : BitVec 64) (y : BitVec 64) (o : Nat) (a : Nat) (b : Nat) (lg : Nat) (sl : Nat), ((i, o, a, b) ∈ rows m x y) ∧ (well s u m o b) ∧ (m.site.val < 6) ∧ (logicalOf (opened u m) (m.site * 24 + m.unit.toNat) = some lg) ∧ (sliceOfCore (opened u m) (m.site * 24 + m.unit.toNat) = some sl)) :=
  ⟨⟨m1_1, (.atCas m1_1 7 8 : Instr), s1_1, (got s1_1 6 1 0x12 : State), 7, 8, 0x12, 7, 8, by decide +kernel, ⟨came_got (by decide +kernel), by decide +kernel⟩, by decide +kernel, by decide +kernel⟩,
   ⟨m2_1, (.rdPeek m2_1 .none : Instr), (linked 7 open' : State), (got (linked 7 open' : State) 7 1 4 : State), 7, 8, 4, 0, 0, by decide +kernel, ⟨came_got (by decide +kernel), by decide +kernel⟩, by decide +kernel, by decide +kernel⟩,
   ⟨m3_1, (.rdShare m3_1 .none : Instr), (linked 0 open' : State), (got (linked 0 open' : State) 0 1 1 : State), 7, 8, 1, 0, 0, 23, 3, by decide +kernel, ⟨came_got (by decide +kernel), by decide +kernel⟩, by decide +kernel, by decide +kernel, by decide +kernel⟩,
   ⟨m3_2, (.wrback m3_2 : Instr), (linked 0 open' : State), (got (linked 0 open' : State) 0 1 7 : State), 7, 8, 7, 0, 0, 23, 3, by decide +kernel, ⟨came_got (by decide +kernel), by decide +kernel⟩, by decide +kernel, by decide +kernel, by decide +kernel⟩⟩
end SiteRequests

namespace SiteAnswers
noncomputable abbrev rows (m : DkIn) (l : BitVec 1024) : List (Instr × Nat × Nat × List (Nat × Nat) × Nat × Option Line) :=
    [(.gone m, 3, 1, answerFields, 0, none), (.keptS m, 3, 2, answerFields, 1, none), (.keptE m, 3, 3, answerFields, 2, none),
     (.snpData m l, 4, 3, snpDataFields, m.grant.toNat, if m.attr.getLsbD 1 then some l else none)]
abbrev owed (u : State) (m : DkIn) : Option Txn :=
    u.txns.find? (fun t => t.tracker = m.txn.toNat && t.stage = .snooping && t.wait.contains m.site.val && (dirHome u t.addr).1 = m.home.toNat)
abbrev open_ (u : State) (m : DkIn) (st : TxStage) : Option Txn :=
    u.txns.find? (fun t => t.src = .agent m.site.val m.txn.toNat && t.stage = st && (dirHome u t.addr).1 = m.home.toNat)
abbrev t1_1 : Txn := { id := 5, src := .engine 3, opc := 1, addr := 256, stage := .snooping, wait := [7], snooped := true }
abbrev s1_1 : State := { linked 7 open' with txns := [t1_1] }
abbrev m1_1 : DkIn := header 7 4 3 [(48, 5), (36, 1), (33, 1)]
abbrev t3_1 : Txn := { id := 5, src := .agent 7 9, opc := 1, addr := 256, stage := .needAck }
abbrev s3_1 : State := { linked 7 open' with txns := [t3_1] }
abbrev t4_1 : Txn := { id := 5, src := .agent 7 9, opc := 6, addr := 256, stage := .needData }
abbrev s4_1 : State := { linked 7 open' with txns := [t4_1] }
abbrev t5_1 : Txn := { id := 5, src := .engine 3, opc := 1, addr := 256, stage := .snooping, wait := [7] }
abbrev m6_1 : DkIn := header 7 3 3 [(48, 5), (38, 1)]
theorem test_met :
    (∃ (t : Txn) (s : State) (m : DkIn) (i : Instr) (u : State) (l : BitVec 1024) (cls : Nat) (opc : Nat) (used : List (Nat × Nat)) (keeps : Nat) (dirty : Option Line), ((i, cls, opc, used, keeps, dirty) ∈ rows m l) ∧ ((cls = 4 → m.grant ≠ 3)) ∧ (came s u m cls opc used) ∧ (owed u m = some t) ∧ (keepsOk (snpOf t) keeps = true)) ∧
    (∃ (s : State) (m : DkIn) (i : Instr) (u : State) (l : BitVec 1024) (cls : Nat) (opc : Nat) (used : List (Nat × Nat)) (keeps : Nat) (dirty : Option Line), ((i, cls, opc, used, keeps, dirty) ∈ rows m l) ∧ ((cls = 4 → m.grant ≠ 3)) ∧ (came s u m cls opc used) ∧ (owed u m = none)) ∧
    (∃ (t : Txn) (s : State) (m : DkIn) (u : State), (came s u m 3 4 answerFields) ∧ (open_ u m .needAck = some t)) ∧
    (∃ (t : Txn) (s : State) (m : DkIn) (mask : BitVec 128) (data : BitVec 1024) (u : State), (came s u m 4 2 wrDataFields) ∧ (open_ u m .needData = some t) ∧ ((m.attr.getLsbD 0 = false ∨ t.opc = 6))) ∧
    (∃ (t : Txn) (s : State) (k : Fin 8) (n : Nat), (siteUp s k = true) ∧ (s.quiet = false) ∧ (s.txns.find? (fun t => t.id = n && t.stage = .snooping && t.wait.contains k.val) = some t) ∧ (t.snoopAt + max 10 (s.dk k).snoopTimeout * 1000 ≤ s.time)) ∧
    (∃ (s : State) (m : DkIn) (i : Instr) (u : State) (l : BitVec 1024) (cls : Nat) (opc : Nat) (used : List (Nat × Nat)) (keeps : Nat) (dirty : Option Line), ((i, cls, opc, used, keeps, dirty) ∈ rows m l) ∧ (m.cls.toNat = cls) ∧ (m.opc.toNat = opc) ∧ (arrive s m.site cls opc = some (u, true)) ∧ (m.plain used = false)) :=
  ⟨⟨t1_1, s1_1, m1_1, (.snpData m1_1 9 : Instr), (got s1_1 7 4 3 : State), 9, 4, 3, snpDataFields, 1, (some 9 : Option Line), by decide +kernel, by decide +kernel, came_got (by decide +kernel), by decide +kernel, by decide +kernel⟩,
   ⟨(linked 7 open' : State), (header 7 3 3 [(48, 5)] : DkIn), (.keptE (header 7 3 3 [(48, 5)] : DkIn) : Instr), (got (linked 7 open' : State) 7 3 3 : State), 9, 3, 3, answerFields, 2, none, by decide +kernel, by decide +kernel, came_got (by decide +kernel), by decide +kernel⟩,
   ⟨t3_1, s3_1, (header 7 3 4 [(48, 9)] : DkIn), (got s3_1 7 3 4 : State), came_got (by decide +kernel), by decide +kernel⟩,
   ⟨t4_1, s4_1, (header 7 4 2 [(48, 9), (32, 1)] : DkIn), 5, 7, (got s4_1 7 4 2 : State), came_got (by decide +kernel), by decide +kernel, by decide +kernel⟩,
   ⟨t5_1, ({ linked 7 open' with txns := [t5_1], time := 50000 } : State), 7, 5, by decide +kernel⟩,
   ⟨(linked 7 open' : State), m6_1, (.keptE m6_1 : Instr), (got (linked 7 open' : State) 7 3 3 : State), 9, 3, 3, answerFields, 2, none, by decide +kernel, by decide +kernel, by decide +kernel, got_of (by decide +kernel), by decide +kernel⟩⟩
end SiteAnswers

namespace SiteMessages
noncomputable abbrev rows (k : Fin 8) : List (Instr × Nat × Nat) :=
    [(.snpShare k, 2, 1), (.snpDrop k, 2, 2), (.snpPeek k, 2, 3), (.rspDone k, 3, 0x20), (.pull k, 3, 0x21), (.pullDone k, 3, 0x22), (.atDone k, 3, 0x23), (.rdData k, 4, 1),
     (.unitReset k, 5, 4), (.unitStart k, 5, 5), (.unitHaltReq k, 5, 6), (.image k, 5, 8)]
abbrev live (s : State) (k : Nat) : Prop := siteUp s k = true ∧ s.quiet = false
abbrev head (s : State) (k cls opc : Nat) (m : DkMsg) (r : List DkMsg) : Prop :=
    (s.dk k).outbox = m :: r ∧ m.cls = cls ∧ m.opc = opc ∧ (s.dk k).hubInit = true ∧ heldForPad s k m = false
abbrev m1_1 : DkMsg := { cls := 3, opc := 0x21, txn := 4 }
abbrev m2_1 : DkMsg := { cls := 3, opc := 0x21, txn := 4 }
abbrev s7_1 : State := { linked 7 { open' with echoTag := some (6, 10) } with time := 21 }
theorem test_met :
    (∃ (m : DkMsg) (i : Instr) (s : State) (k : Fin 8) (cls : Nat) (opc : Nat) (r : List DkMsg) (c : Credits), ((i, cls, opc) ∈ rows k) ∧ (live s k) ∧ (head s k cls opc m r) ∧ ((s.dk k).hub.take cls = some c)) ∧
    (∃ (m : DkMsg) (i : Instr) (s : State) (k : Fin 8) (cls : Nat) (opc : Nat) (r : List DkMsg), ((i, cls, opc) ∈ rows k) ∧ (live s k) ∧ (head s k cls opc m r) ∧ ((s.dk k).hub.take cls = none)) ∧
    (∃ (m : DkMsg) (s : State) (k : Fin 8) (r : List DkMsg) (c : Credits), (live s k) ∧ (head s k 5 2 m r) ∧ ((s.dk k).hub.take 5 = some c)) ∧
    (∃ (s : State) (k : Fin 8) (c : Credits), (live s k) ∧ ((s.dk k).outbox = []) ∧ ((s.dk k).hubInit = true) ∧ ((s.dk k).limitOn = true) ∧ ((s.dk k).hub.take 5 = some c)) ∧
    (∃ (s : State) (k : Fin 8) (c : Credits), (live s k) ∧ ((s.dk k).hubInit = true) ∧ ((s.dk k).hub.take 6 = some c)) ∧
    (∃ (s : State) (k : Fin 8) (tag : BitVec 64) (c : Credits), (live s k) ∧ ((s.dk k).hubInit = true) ∧ ((s.dk k).hub.take 6 = some c)) ∧
    (∃ (s : State) (m : DkIn) (t0 : Nat) (u : State), (came s u m 6 3 timeEchoFields) ∧ ((u.dk m.site).echoTag = some (m.addr.toNat, t0))) ∧
    (∃ (s : State) (m : DkIn) (slot : BitVec 128) (u : State), (came s u m 5 7 unitStateFields) ∧ (m.unit.toNat < (u.dk m.site).units) ∧ (m.status.toNat ≤ 4)) ∧
    (∃ (s : State) (m : DkIn) (slot : BitVec 128) (u : State), (came s u m 5 7 unitStateFields) ∧ (m.unit.toNat < (u.dk m.site).units) ∧ (m.status.toNat ≤ 4)) ∧
    (∃ (w : BitVec 32) (s : State) (k : Fin 8), (live s k) ∧ ((creditWord w).le (s.dk k).owed = true)) ∧
    (∃ (w : BitVec 32) (s : State) (k : Fin 8), (live s k) ∧ (((s.dk k).hub.add (creditWord w)).le { (s.dk k).granted with mgt := 8 } = true)) ∧
    (∃ (s : State) (m : DkIn) (c : Credits), (let k := m.site; live s k) ∧ (let k := m.site; (s.dk k).hubInit = false) ∧ (let k := m.site; (s.dk k).hub.take 5 = some c)) ∧
    (∃ (s : State) (m : DkIn) (u : State), (came s u m 5 1 creditInitFields) ∧ (let k := m.site; (u.dk k).siteInit = false) ∧ (let k := m.site; customerDie u k = false) ∧ (let k := m.site; let a := m.addr; bit a 63 = cachingSite u k) ∧ (let a := m.addr; (if bit a 63 then 64 ≤ bits a 15 0 else bits a 15 0 = 0)) ∧ (let a := m.addr; 128 ≤ bits a 31 16) ∧ (let a := m.addr; 128 ≤ bits a 47 32) ∧ (let a := m.addr; 4 ≤ bits a 55 48) ∧ (let k := m.site; let a := m.addr; (if k.val < 6 then 1 ≤ bits a 60 56 ∧ bits a 60 56 ≤ 24 else bits a 60 56 = 0))) :=
  ⟨⟨m1_1, (.pull 7 : Instr), (linked 7 { open' with outbox := [m1_1] } : State), 7, 3, 0x21, ([] : List DkMsg), ({ many with rsp := 8 } : Credits), by decide +kernel⟩,
   ⟨m2_1, (.pull 7 : Instr), (linked 7 { open' with outbox := [m2_1], hub := { many with rsp := 0 } } : State), 7, 3, 0x21, ([] : List DkMsg), by decide +kernel⟩,
   ⟨({ cls := 5, opc := 2 } : DkMsg), (linked 7 { open' with outbox := [({ cls := 5, opc := 2 } : DkMsg)] } : State), 7, ([] : List DkMsg), ({ many with mgt := 2 } : Credits), by decide +kernel⟩,
   ⟨({ linked 7 { open' with limitOn := true } with tel := { pd := [(15, { state := 3 })] } } : State), 7, ({ many with mgt := 2 } : Credits), by decide +kernel⟩,
   ⟨(linked 7 { open' with delay := 5 } : State), 7, ({ many with time := 2 } : Credits), by decide +kernel⟩,
   ⟨(linked 7 open' : State), 7, 6, ({ many with time := 2 } : Credits), by decide +kernel⟩,
   ⟨s7_1, (header 7 6 3 [(64, 6)] : DkIn), 10, (got s7_1 7 6 3 : State), came_got (by decide +kernel), by decide +kernel⟩,
   ⟨(linked 0 open' : State), (header 0 5 7 [(64, 0x8500000000000003), (38, 23), (24, 4)] : DkIn), 64, (got (linked 0 open' : State) 0 5 7 : State), came_got (by decide +kernel), by decide +kernel, by decide +kernel⟩,
   ⟨(linked 7 open' : State), (header 7 5 7 [(64, 0x8500000000000003), (24, 4)] : DkIn), 64, (got (linked 7 open' : State) 7 5 7 : State), came_got (by decide +kernel), by decide +kernel, by decide +kernel⟩,
   ⟨1, (linked 7 { open' with owed := { req := 1 } } : State), 7, by decide +kernel⟩,
   ⟨0x40, (linked 7 { open' with hub := { snp := 8 } } : State), 7, by decide +kernel⟩,
   ⟨(linked 7 {} : State), (header 7 5 1 [] : DkIn), ({ mgt := 7 } : Credits), by decide +kernel⟩,
   ⟨(linked 7 {} : State), (header 7 5 1 [(64, 0x8004008000800040)] : DkIn), (got (linked 7 {} : State) 7 5 1 : State), came_got (by decide +kernel), by decide +kernel, by decide +kernel, by decide +kernel, by decide +kernel, by decide +kernel, by decide +kernel, by decide +kernel, by decide +kernel⟩⟩
end SiteMessages

namespace QueueControl
abbrev s11_1 : State := { mapped with queues := [(33, { ring := 4, state := 1, prod := 1, tries := 62 })], gtu := { tlb := [{ slice := 3, va := 0, size := 0x40000000, pa := 0x80000000, r := true, w := true, a := true, noalloc := false }] } }
abbrev s11_2 : State := { mapped with queues := [(33, { ring := 4, state := 1, prod := 1, tries := 63 })], gtu := { tlb := [{ slice := 3, va := 0, size := 0x40000000, pa := 0x80000000, r := true, w := true, a := true, noalloc := false }] } }
abbrev s12_1 : State := { mapped with queues := [(33, { ring := 4, state := 1, prod := 1 })], gtu := {} }
theorem test_met :
    (∃ (s : State) (q : Fin 4096) (v : BitVec 64), (s.quiet = false) ∧ (s.hostUp = true) ∧ (s.txns = []) ∧ (s.pcie.pmState = 0)) ∧
    (∃ (s : State) (q : Fin 4096) (v : BitVec 64), (s.quiet = false) ∧ (s.hostUp = true) ∧ (s.txns = []) ∧ (s.pcie.pmState = 0)) ∧
    (∃ (s : State) (q : Fin 4096) (v : BitVec 64), (s.quiet = false) ∧ (s.hostUp = true) ∧ (s.txns = []) ∧ (s.pcie.pmState = 0)) ∧
    (∃ (s : State) (q : Fin 4096) (v : BitVec 64), (s.quiet = false) ∧ ((s.queue q).state = 0) ∧ ((s.queue q).inProgress = false) ∧ (4 ≤ bits v 4 0) ∧ (bits v 4 0 ≤ 16)) ∧
    (∃ (s : State) (q : Fin 4096) (v : BitVec 64), (s.quiet = false) ∧ (((s.queue q).state ≠ 0 ∨ bits v 4 0 < 4 ∨ 16 < bits v 4 0))) ∧
    (∃ (s : State) (q : Fin 4096) (n : Nat), (s.quiet = false) ∧ ((s.queue q).state = 0) ∧ (sliceOfQueue s q = some n) ∧ (s.chart.state ≠ 4) ∧ (s.chart.reload = false)) ∧
    (∃ (s : State) (q : Fin 4096), (s.quiet = false) ∧ ((s.queue q).state = 1) ∧ ((s.queue q).cmd ≠ none)) ∧
    (∃ (s : State) (q : Fin 4096), (s.quiet = false) ∧ ((s.queue q).state = 1) ∧ ((s.queue q).inProgress = false) ∧ ((s.queue q).heldRecord = none) ∧ (bits (s.queue q).irq 31 30 = 0)) ∧
    (∃ (c : Cmd) (s : State) (q : Fin 4096), (s.quiet = false) ∧ ((s.queue q).state = 1) ∧ ((s.queue q).cmd = some c) ∧ (c.opc ≠ 0x10)) ∧
    (∃ (s : State) (q : Fin 4096), (s.quiet = false) ∧ ((s.queue q).state = 0) ∧ ((s.queue q).cmd = none)) ∧
    (∃ (s : State) (q : Fin 4096), (s.quiet = false)) ∧
    (∃ (s : State) (q : Fin 4096), (s.quiet = false) ∧ ((s.queue q).irqDue = false) ∧ ((s.queue q).irqCount ≠ 0) ∧ (bits (s.queue q).irq 31 30 = 0) ∧ ((s.queue q).irqSince + bits (s.queue q).irq 47 32 * 1000 ≤ s.time)) ∧
    (∃ (s : State) (q : Fin 4096) (u : State), (mayStart s q = true) ∧ (fetchSlot s q = (u, .bad)) ∧ (let w := advance 256 u; (w.queue q).tries + 1 < 64)) ∧
    (∃ (s : State) (q : Fin 4096) (u : State), (mayStart s q = true) ∧ (fetchSlot s q = (u, .bad)) ∧ (let w := advance 256 u; 64 ≤ (w.queue q).tries + 1) ∧ (let w := advance 256 u; (w.queue q).closing = [])) ∧
    (∃ (s : State) (q : Fin 4096) (u : State), (mayStart s q = true) ∧ (fetchSlot s q = (u, .fault)) ∧ ((u.queue q).closing = [])) :=
  ⟨⟨({ mapped with pcie := { dlUp := true }, queues := [(4095, { ring := 4, state := 1 })] } : State), 4095, 0x20003, by decide +kernel⟩,
   ⟨({ mapped with pcie := { dlUp := true }, queues := [(4095, { ring := 4, state := 1 })] } : State), 4095, 0x30003, by decide +kernel⟩,
   ⟨({ mapped with pcie := { dlUp := true }, queues := [(4095, { ring := 4, state := 1, prod := 3, nextSeq := 65534 })] } : State), 4095, 3, by decide +kernel⟩,
   ⟨({ mapped with queues := [(33, { ring := 4, prod := 5, cons := 2 })] } : State), 33, 0xFFFFFFFFFFFFFFF0, by decide +kernel⟩,
   ⟨({ mapped with queues := [(33, { ring := 4, prod := 5, cons := 2 })] } : State), 33, 0x11, by decide +kernel⟩,
   ⟨({ mapped with queues := [(33, { ring := 4 })] } : State), 33, 3, by decide +kernel⟩,
   ⟨(busy (cmdOfOp 1 []) : State), 33, by decide +kernel⟩,
   ⟨({ mapped with queues := [(33, { ring := 4, state := 1 })] } : State), 33, by decide +kernel⟩,
   ⟨(cmdOfOp 1 [] : Cmd), (busy (cmdOfOp 1 [] : Cmd) : State), 33, by decide +kernel⟩,
   ⟨mapped, 33, by decide +kernel⟩,
   ⟨({ mapped with queues := [(33, { resume := some (cmdOfOp 1 []) })] } : State), 33, by decide +kernel⟩,
   ⟨({ mapped with queues := [(33, { irqCount := 2, irqSince := 5, irq := 0x0000000100000000 })], time := 1005 } : State), 33, by decide +kernel⟩,
   ⟨s11_1, 33, ((fetchSlot s11_1 33).1 : State), by decide +kernel⟩,
   ⟨s11_2, 33, ((fetchSlot s11_2 33).1 : State), by decide +kernel⟩,
   ⟨s12_1, 33, ((fetchSlot s12_1 33).1 : State), by decide +kernel⟩⟩
end QueueControl

namespace SlotStarts
abbrev b1_1 : BitVec 2048 := slotOfOp 1 [(0x20, 64), (0x24, 1), (0x28, 1), (0x2C, 1)]
abbrev b2_1 : BitVec 2048 := slotOfOp 0x13 [(0x10, 9), (2, 4)]
abbrev r2_1 : Cmd := { cmdOfOp 1 [(2, 9), (0x20, 64), (0x24, 1), (0x28, 1), (0x2C, 1)] with elems := 3 }
abbrev s2_1 : State := pendingSlot b2_1 { resume := some r2_1, nextSeq := 4 }
theorem test_met :
    (∃ (b : BitVec 2048) (s : State) (q : Nat) (kind : BitVec 2048 → Bool) (u : State) (e : Nat), (mayStart s q = true) ∧ (fetchSlot s q = (u, .slot b)) ∧ (slotDue (u.queue q) b = true) ∧ (kind b = true) ∧ (badField u b = none) ∧ (slotLe b 0 1 ≠ 0x13) ∧ (engineOf u (cmdGroup u (queueSlice u q) b) q = some e) ∧ (ceActive u e < 16)) ∧
    (∃ (b : BitVec 2048) (r : Cmd) (s : State) (q : Fin 4096) (u : State) (e : Nat), (mayStart s q = true) ∧ (fetchSlot s q = (u, .slot b)) ∧ (slotDue (u.queue q) b = true) ∧ (slotLe b 0 1 = 0x13) ∧ (badField u b = none) ∧ ((u.queue q).resume = some r) ∧ (slotLe r.own 2 2 = slotLe b 0x10 2) ∧ (let v := setQueue u q { u.queue q with resume := none }; engineOf v (cmdGroup v (queueSlice v q) r.raw) q = some e) ∧ (let v := setQueue u q { u.queue q with resume := none }; ceActive v e < 16)) :=
  ⟨⟨b1_1, (pendingSlot b1_1 {} : State), 33, (fun b1_1 => slotLe b1_1 0 1 = 1 : BitVec 2048 → Bool), ((fetchSlot (pendingSlot b1_1 {} : State) 33).1 : State), 33, by decide +kernel, rfl, by decide +kernel, by decide +kernel, by decide +kernel, by decide +kernel, by decide +kernel, by decide +kernel⟩,
   ⟨b2_1, r2_1, s2_1, 33, ((fetchSlot s2_1 33).1 : State), 33, by decide +kernel, rfl, by decide +kernel, by decide +kernel, by decide +kernel, by decide +kernel, by decide +kernel, by decide +kernel, by decide +kernel⟩⟩
end SlotStarts

namespace DataCommandElements
noncomputable abbrev dataRows (q : Fin 4096) (n : Nat) : List (Instr × Nat × (Cmd → State → Part) × (Cmd → Nat → Nat) × (Cmd → Nat)) :=
    [(.copy q n, 1, partCopy q, fun c _ => slotLe c.raw 0x20 4, elemTotal), (.fill q n, 2, partFill q, fun c _ => slotLe c.raw 0x20 4, elemTotal),
     (.inlineWrite q n, 3, partInline q, fun c k => (inlineLine c.raw k).2, fun c => inlineLines c.raw),
     (.gather q n, 4, partGather q, fun c _ => slotLe c.raw 0x2C 4, elemTotal), (.scatter q n, 5, partScatter q, fun c _ => slotLe c.raw 0x2C 4, elemTotal),
     (.stash q n, 6, partStash q, fun _ _ => 4096, elemTotal), (.unstash q n, 7, partUnstash q, fun _ _ => 4096, elemTotal)]
abbrev ready (i : Instr) (s : State) (q : Fin 4096) (n opc : Nat) (part : Cmd → State → Part) (size : Cmd → Nat → Nat) (total : Cmd → Nat) (c : Cmd) : Prop :=
    (i, opc, part, size, total) ∈ dataRows q n ∧ (c.stage ≠ 0 ∨ opc < 6) ∧ s.pcie.retrainLong = false ∧ tagFailure s q = none
abbrev c1_1 : Cmd := cmdOfOp 2 [(0x10, 7), (0x20, 64), (0x24, 1), (0x28, 1), (0x2C, 1)]
abbrev s1_1 : State := { busy c1_1 with mcs := [(0, { ch0 := 2 })] }
abbrev c2_1 : Cmd := cmdOfOp 2 [(0x10, 7), (0x18, 0x40000000), (0x20, 64), (0x24, 1), (0x28, 1), (0x2C, 1)]
abbrev c3_1 : Cmd := cmdOfOp 1 [(0x18, 0x1000), (0x20, 64), (0x24, 1), (0x28, 1), (0x2C, 1)]
abbrev s3_1 : State := { busy c3_1 with mcs := [(0, { ch0 := 2 })] }
abbrev c4_1 : Cmd := { cmdOfOp 2 [(0x20, 64), (0x24, 1), (0x28, 1), (0x2C, 1)] with elems := 1 }
abbrev c5_1 : Cmd := { cmdOfOp 7 [(0x20, 0x2000)] with elems := 1, stage := 1, aborting := true }
theorem test_met :
    (∃ (i : Instr) (c : Cmd) (s : State) (q : Fin 4096) (n : Nat) (opc : Nat) (part : Cmd → State → Part) (size : Cmd → Nat → Nat) (total : Cmd → Nat) (d : Cmd) (k : Nat) (u : State), (ready i s q n opc part size total c) ∧ (going s q opc c) ∧ (c.elems < min n (total c)) ∧ (part c s = .ok u d k true) ∧ (size c d.elems ≤ d.pos + k) ∧ (d.result = none) ∧ (moduleDone u q = false)) ∧
    (∃ (i : Instr) (c : Cmd) (s : State) (q : Fin 4096) (n : Nat) (opc : Nat) (part : Cmd → State → Part) (size : Cmd → Nat → Nat) (total : Cmd → Nat) (st : Nat) (d : Nat) (u : State), (ready i s q n opc part size total c) ∧ (going s q opc c) ∧ (c.elems < min n (total c)) ∧ (part c s = .fail u st d)) ∧
    (∃ (i : Instr) (c : Cmd) (s : State) (q : Fin 4096) (n : Nat) (opc : Nat) (part : Cmd → State → Part) (size : Cmd → Nat → Nat) (total : Cmd → Nat) (u : State), (ready i s q n opc part size total c) ∧ (going s q opc c) ∧ (c.elems < min n (total c)) ∧ (part c s = .hold u)) ∧
    (∃ (i : Instr) (c : Cmd) (s : State) (q : Fin 4096) (n : Nat) (opc : Nat) (part : Cmd → State → Part) (size : Cmd → Nat → Nat) (total : Cmd → Nat), (ready i s q n opc part size total c) ∧ (going s q opc c) ∧ (total c ≤ c.elems)) ∧
    (∃ (i : Instr) (c : Cmd) (s : State) (q : Fin 4096) (n : Nat) (opc : Nat) (part : Cmd → State → Part) (size : Cmd → Nat → Nat) (total : Cmd → Nat), (ready i s q n opc part size total c) ∧ (s.quiet = false) ∧ (mayStart s q = false) ∧ ((s.queue q).cmd = some c) ∧ (c.opc = opc) ∧ (c.result = none) ∧ (c.last = none) ∧ (c.aborting = true) ∧ (c.pos = 0) ∧ (c.elems < total c)) :=
  ⟨⟨(.fill 33 1 : Instr), c1_1, s1_1, 33, 1, 2, (partFill 33 : Cmd → State → Part), (fun z _ => slotLe z.raw 0x20 4 : Cmd → Nat → Nat), elemTotal, c1_1, 64, (partOf (partFill 33 c1_1 s1_1) : State), ⟨List.mem_of_getElem? (i := 1) rfl, by decide +kernel⟩, by decide +kernel, by decide +kernel, rfl, by decide +kernel, by decide +kernel, by decide +kernel⟩,
   ⟨(.fill 33 1 : Instr), c2_1, (busy c2_1 : State), 33, 1, 2, (partFill 33 : Cmd → State → Part), (fun z _ => slotLe z.raw 0x20 4 : Cmd → Nat → Nat), elemTotal, 2, 8, (partOf (partFill 33 c2_1 (busy c2_1 : State)) : State), ⟨List.mem_of_getElem? (i := 1) rfl, by decide +kernel⟩, by decide +kernel, by decide +kernel, by decide +kernel⟩,
   ⟨(.copy 33 1 : Instr), c3_1, s3_1, 33, 1, 1, (partCopy 33 : Cmd → State → Part), (fun z _ => slotLe z.raw 0x20 4 : Cmd → Nat → Nat), elemTotal, (partOf (partCopy 33 c3_1 s3_1) : State), ⟨List.mem_of_getElem? (i := 0) rfl, by decide +kernel⟩, by decide +kernel, by decide +kernel, rfl⟩,
   ⟨(.fill 33 1 : Instr), c4_1, (busy c4_1 : State), 33, 1, 2, (partFill 33 : Cmd → State → Part), (fun z _ => slotLe z.raw 0x20 4 : Cmd → Nat → Nat), elemTotal, ⟨List.mem_of_getElem? (i := 1) rfl, by decide +kernel⟩, by decide +kernel, by decide +kernel⟩,
   ⟨(.unstash 33 1 : Instr), c5_1, (busy c5_1 : State), 33, 1, 7, (partUnstash 33 : Cmd → State → Part), (fun _ _ => 4096 : Cmd → Nat → Nat), elemTotal, ⟨List.mem_of_getElem? (i := 6) rfl, by decide +kernel⟩, by decide +kernel, by decide +kernel, by decide +kernel, by decide +kernel, by decide +kernel, by decide +kernel, by decide +kernel, by decide +kernel⟩⟩
end DataCommandElements

namespace DataCommandBytes
abbrev rd (s : State) (q : Nat) (c : Cmd) : Eng := cmdEng s q c (slotFlag c.raw 3)
abbrev wr (s : State) (q : Nat) (c : Cmd) : Eng := cmdEng s q c (slotFlag c.raw 4)
abbrev c1_1 : Cmd := cmdOfOp 1 [(0x10, 3), (0x18, 0x1005), (0x20, 64), (0x24, 1), (0x28, 1), (0x2C, 1)]
abbrev s1_1 : State := { busy c1_1 with mem := [(5, 9)] }
abbrev u1_1 : State := ((cmdEng s1_1 33 c1_1 false).read s1_1 3 64).1
abbrev bs1_1 : List Byte := readOf ((cmdEng s1_1 33 c1_1 false).read s1_1 3 64).2
abbrev c2_1 : Cmd := cmdOfOp 2 [(0x10, 0x0102030405060708), (0x18, 0x1005), (0x20, 64), (0x24, 1), (0x28, 1), (0x2C, 1)]
abbrev c3_1 : Cmd := cmdOfOp 3 [(0x10, 5), (0x18, 3), (0x40, 0x010203)]
abbrev c4_1 : Cmd := cmdOfOp 6 [(0x10, 0), (0x18, 0x1000), (0x20, 0x1000)]
abbrev s4_1 : State := { busy c4_1 with mem := [(5, 9)] }
abbrev u4_1 : State := ((cmdEng s4_1 33 c4_1 false).read s4_1 0 128).1
abbrev bs4_1 : List Byte := readOf ((cmdEng s4_1 33 c4_1 false).read s4_1 0 128).2
abbrev c5_1 : Cmd := cmdOfOp 1 [(0x10, 3), (0x18, 0x20), (0x20, 64), (0x24, 1), (0x28, 1), (0x2C, 1)]
abbrev s5_1 : State := { busy c5_1 with mem := [(5, 9)] }
abbrev u5_1 : State := ((cmdEng s5_1 33 c5_1 false).read s5_1 3 64).1
abbrev bs5_1 : List Byte := readOf ((cmdEng s5_1 33 c5_1 false).read s5_1 3 64).2
theorem test_met :
    (∃ (c : Cmd) (s : State) (q : Nat) (a : Nat) (b : Nat) (n : Nat) (u : State) (bs : List Byte) (v : State) (r : List Byte), (c.pos = 0) ∧ (a = cmdRun c.raw 0x10 0x30 c.elems) ∧ (b = cmdRun c.raw 0x18 0x48 c.elems) ∧ (n = slotLe c.raw 0x20 4) ∧ (a % 128 + n ≤ 128) ∧ (b % 128 + n ≤ 128) ∧ (c.buf = []) ∧ (mayOverlap s q c a b n = false) ∧ ((rd s q c).read s a n = (u, .ok bs)) ∧ ((wr s q c).write u b bs = (v, .ok r))) ∧
    (∃ (c : Cmd) (s : State) (q : Nat) (b : Nat) (n : Nat) (v : State) (r : List Byte), (c.pos = 0) ∧ (b = cmdRun c.raw 0x18 0x48 c.elems) ∧ (n = slotLe c.raw 0x20 4) ∧ (b % 128 + n ≤ 128) ∧ ((wr s q c).write s b ((List.range n).map (fun i => BitVec.ofNat 8 (slotLe c.raw 0x10 8 / 256 ^ (i % 8)))) = (v, .ok r))) ∧
    (∃ (c : Cmd) (s : State) (q : Nat) (a : Nat) (n : Nat) (v : State) (r : List Byte), (c.elems = 0) ∧ (a = slotLe c.raw 0x10 8) ∧ (n = slotLe c.raw 0x18 2) ∧ (a % 128 + n ≤ 128) ∧ ((wr s q c).write s a ((List.range n).map (fun i => BitVec.ofNat 8 (slotLe c.raw (0x40 + i) 1))) = (v, .ok r))) ∧
    (∃ (c : Cmd) (s : State) (q : Nat) (a : Nat) (b : Nat) (u : State) (bs : List Byte) (v : State) (r : List Byte), (c.pos = 0) ∧ (slotLe c.raw 0x28 1 = 0) ∧ (a = slotLe c.raw 0x10 8) ∧ (b = slotLe c.raw 0x18 8) ∧ (a % 128 = 0) ∧ (b % 128 = 0) ∧ ((rd s q c).read s ((a + 4096 * c.elems) % 2 ^ 64) 128 = (u, .ok bs)) ∧ ((wr s q c).write u ((b + 4096 * c.elems) % 2 ^ 64) bs = (v, .ok r))) ∧
    (∃ (c : Cmd) (s : State) (q : Nat) (a : Nat) (b : Nat) (n : Nat) (u : State) (bs : List Byte) (v : State) (r : List Byte), (c.pos = 0) ∧ (a = cmdRun c.raw 0x10 0x30 c.elems) ∧ (b = cmdRun c.raw 0x18 0x48 c.elems) ∧ (n = slotLe c.raw 0x20 4) ∧ (0 < n) ∧ (a % 128 + n ≤ 128) ∧ (b % 128 + n ≤ 128) ∧ (c.buf = []) ∧ (mayOverlap s q c a b n = true) ∧ ((rd s q c).read s a n = (u, .ok bs))) :=
  ⟨⟨c1_1, s1_1, 33, 3, 0x1005, 64, u1_1, bs1_1, (((cmdEng s1_1 33 c1_1 false).write u1_1 0x1005 bs1_1).1 : State), (readOf ((cmdEng s1_1 33 c1_1 false).write u1_1 0x1005 bs1_1).2 : List Byte), by decide +kernel, by decide +kernel, by decide +kernel, by decide +kernel, by decide +kernel, by decide +kernel, by decide +kernel, by decide +kernel, rfl, rfl⟩,
   ⟨c2_1, (busy c2_1 : State), 33, 0x1005, 64, (((cmdEng (busy c2_1 : State) 33 c2_1 (slotFlag c2_1.raw 4)).write (busy c2_1 : State) 0x1005 ((List.range 64).map (fun i => BitVec.ofNat 8 (slotLe c2_1.raw 0x10 8 / 256 ^ (i % 8))))).1 : State), (readOf ((cmdEng (busy c2_1 : State) 33 c2_1 (slotFlag c2_1.raw 4)).write (busy c2_1 : State) 0x1005 ((List.range 64).map (fun i => BitVec.ofNat 8 (slotLe c2_1.raw 0x10 8 / 256 ^ (i % 8))))).2 : List Byte), by decide +kernel, by decide +kernel, by decide +kernel, by decide +kernel, pair _ (by decide +kernel)⟩,
   ⟨c3_1, (busy c3_1 : State), 33, 5, 3, (((cmdEng (busy c3_1 : State) 33 c3_1 false).write (busy c3_1 : State) 5 [3, 2, 1]).1 : State), (readOf ((cmdEng (busy c3_1 : State) 33 c3_1 false).write (busy c3_1 : State) 5 [3, 2, 1]).2 : List Byte), by decide +kernel, by decide +kernel, by decide +kernel, by decide +kernel, rfl⟩,
   ⟨c4_1, s4_1, 33, 0, 0x1000, u4_1, bs4_1, (((cmdEng s4_1 33 c4_1 false).write u4_1 0x1000 bs4_1).1 : State), (readOf ((cmdEng s4_1 33 c4_1 false).write u4_1 0x1000 bs4_1).2 : List Byte), by decide +kernel, by decide +kernel, by decide +kernel, by decide +kernel, by decide +kernel, by decide +kernel, rfl, rfl⟩,
   ⟨c5_1, s5_1, 33, 3, 0x20, 64, u5_1, bs5_1, (((cmdEng s5_1 33 c5_1 false).write u5_1 0x20 bs5_1).1 : State), (readOf ((cmdEng s5_1 33 c5_1 false).write u5_1 0x20 bs5_1).2 : List Byte), by decide +kernel, by decide +kernel, by decide +kernel, by decide +kernel, by decide +kernel, by decide +kernel, by decide +kernel, by decide +kernel, by decide +kernel, rfl⟩⟩
end DataCommandBytes

namespace MigrateRuns
abbrev c1_1 : Cmd := cmdOfOp 8 [(0x10, 0x200000), (0x18, 0x200000), (0x20, 0x400000)]
abbrev s1_1 : State := { tabled with queues := [(33, { state := 1, cmd := some c1_1 })] }
abbrev c2_1 : Cmd := { cmdOfOp 8 [(0x10, 0x200000), (0x18, 0x200000), (0x20, 0x400000)] with bytes := 0x200000 }
abbrev c3_1 : Cmd := { cmdOfOp 8 [(0x10, 0x200000), (0x18, 0x1000), (0x20, 0x400000)] with pos := 0x1000 }
abbrev h3_1 : MigHold := { queue := 33, slice := 3, va := 0x200000, size := 0x1000, leafAddr := 8, leaf := 15, dest := 0x400000 }
abbrev c4_1 : Cmd := { cmdOfOp 8 [(0x10, 0x200000), (0x18, 0x1000), (0x20, 0x400000)] with pos := 128 }
abbrev h4_1 : MigHold := { queue := 33, slice := 3, va := 0x200000, size := 0x1000, leafAddr := 8, leaf := 15, dest := 0x400100 }
abbrev s4_1 : State := { busy c4_1 with gtu := { mapped.gtu with holds := [h4_1] }, mcs := [(0, { ch0 := 1, ch1 := 2 })], mem := [(130, 7)] }
abbrev u4_1 : State := (readPart s4_1 33 ((cmdEng s4_1 33 c4_1 false).txn (entryAddr h4_1.leaf + c4_1.pos) false) 128).1
abbrev bs4_1 : List Byte := (readPart s4_1 33 ((cmdEng s4_1 33 c4_1 false).txn (entryAddr h4_1.leaf + c4_1.pos) false) 128).2.2
abbrev c5_1 : Cmd := cmdOfOp 8 [(0x10, 0x200000), (0x18, 0x200000), (0x20, 0x400000)]
abbrev h5_1 : MigHold := { queue := 33, slice := 3, va := 0x200000, size := 0x200000, leafAddr := 8, leaf := 15, dest := 0x400000, copied := true }
abbrev s5_1 : State := { tabled with queues := [(33, { state := 1, cmd := some c5_1 })], gtu := { tabled.gtu with holds := [h5_1] } }
abbrev u5_1 : State := (access s5_1 33 { id := 0, src := .engine 33, opc := 0x12, addr := h5_1.leafAddr, reg := h5_1.slice, ini := 206, attr := 3, op0 := h5_1.leaf, op1 := h5_1.leaf % 4096 + h5_1.dest / 4096 * 4096 + h5_1.leaf >>> 50 <<< 50 }).1
abbrev c5_2 : Cmd := cmdOfOp 8 [(0x10, 0x200000), (0x18, 0x200000), (0x20, 0x400000)]
abbrev h5_2 : MigHold := { queue := 33, slice := 3, va := 0x200000, size := 0x200000, leafAddr := 8, leaf := 31, dest := 0x400000, copied := true }
abbrev s5_2 : State := { tabled with queues := [(33, { state := 1, cmd := some c5_2 })], gtu := { tabled.gtu with holds := [h5_2] } }
abbrev u5_2 : State := (access s5_2 33 { id := 0, src := .engine 33, opc := 0x12, addr := h5_2.leafAddr, reg := h5_2.slice, ini := 206, attr := 3, op0 := h5_2.leaf, op1 := h5_2.leaf % 4096 + h5_2.dest / 4096 * 4096 + h5_2.leaf >>> 50 <<< 50 }).1
theorem test_met :
    (∃ (c : Cmd) (s : State) (q : Fin 4096) (u : State) (a : Nat) (e : Nat) (l : Nat), (going s q 8 c) ∧ (holdOf s q = none) ∧ (let f := slotLe c.raw; c.bytes < f 0x18 8) ∧ (let f := slotLe c.raw; findLeaf s q (queueSlice s q) (f 0x10 8 + c.bytes) = (u, .found a e l)) ∧ (l < 2) ∧ ((l = 0 → e.testBit 5 = false)) ∧ (let f := slotLe c.raw; let size := if l = 1 then 0x200000 else 0x1000; (f 0x10 8 + c.bytes) % size = 0) ∧ (let f := slotLe c.raw; let size := if l = 1 then 0x200000 else 0x1000; c.bytes + size ≤ f 0x18 8) ∧ (let f := slotLe c.raw; let size := if l = 1 then 0x200000 else 0x1000; (f 0x20 8 + c.bytes) % size = 0)) ∧
    (∃ (c : Cmd) (s : State) (q : Fin 4096), (going s q 8 c) ∧ (holdOf s q = none) ∧ (slotLe c.raw 0x18 8 ≤ c.bytes)) ∧
    (∃ (c : Cmd) (h : MigHold) (s : State) (q : Fin 4096), (going s q 8 c) ∧ (holdOf s q = some h) ∧ (h.copied = false) ∧ (pageBusy s h = false) ∧ (tagBusy s q = false) ∧ (tagFailure s q = none) ∧ (h.size ≤ c.pos)) ∧
    (∃ (c : Cmd) (h : MigHold) (s : State) (q : Fin 4096) (u : State) (l : Line) (bs : List Byte) (v : State) (g : Got), (going s q 8 c) ∧ (holdOf s q = some h) ∧ (h.copied = false) ∧ (pageBusy s h = false) ∧ (tagBusy s q = false) ∧ (tagFailure s q = none) ∧ (c.pos < h.size) ∧ (128 ≤ h.size) ∧ (let e := cmdEng s q c false; readPart s q (e.txn (entryAddr h.leaf + c.pos) false) 128 = (u, .ok l, bs)) ∧ (let e := cmdEng s q c false; writePart u q (e.txn (h.dest + c.pos) false) bs = (v, g)) ∧ (tagBusy v q = true)) ∧
    (∃ (c : Cmd) (h : MigHold) (s : State) (q : Fin 4096) (u : State) (l : Line) (w : State), (going s q 8 c) ∧ (holdOf s q = some h) ∧ (h.copied = true) ∧ (c.stage = 0) ∧ (let new := h.leaf % 4096 + h.dest / 4096 * 4096 + h.leaf >>> 50 <<< 50; access s q { id := 0, src := .engine q, opc := 0x12, addr := h.leafAddr, reg := h.slice, ini := 206, attr := 3, op0 := h.leaf, op1 := new } = (u, .ok l)) ∧ (l.toNat = h.leaf) ∧ (invalidateNow u { op := 3, slice := h.slice, seq := 0, addr := h.va, size := h.size } = some w)) ∧
    (∃ (c : Cmd) (h : MigHold) (s : State) (q : Fin 4096) (u : State) (l : Line) (w : State), (going s q 8 c) ∧ (holdOf s q = some h) ∧ (h.copied = true) ∧ (c.stage = 0) ∧ (let new := h.leaf % 4096 + h.dest / 4096 * 4096 + h.leaf >>> 50 <<< 50; access s q { id := 0, src := .engine q, opc := 0x12, addr := h.leafAddr, reg := h.slice, ini := 206, attr := 3, op0 := h.leaf, op1 := new } = (u, .ok l)) ∧ (l.toNat ≠ h.leaf)) :=
  ⟨⟨c1_1, s1_1, 33, ((findLeaf s1_1 33 (queueSlice s1_1 33) (slotLe c1_1.raw 0x10 8 + c1_1.bytes)).1 : State), 8, 15, 1, by decide +kernel, by decide +kernel, by decide +kernel, pair _ (by decide +kernel), by decide +kernel, by decide +kernel, by decide +kernel, by decide +kernel, by decide +kernel⟩,
   ⟨c2_1, (busy c2_1 : State), 33, by decide +kernel⟩,
   ⟨c3_1, h3_1, ({ busy c3_1 with gtu := { mapped.gtu with holds := [h3_1] } } : State), 33, by decide +kernel⟩,
   ⟨c4_1, h4_1, s4_1, 33, u4_1, (gotOf (readPart s4_1 33 ((cmdEng s4_1 33 c4_1 false).txn (entryAddr h4_1.leaf + c4_1.pos) false) 128).2.1 : Line), bs4_1, ((writePart u4_1 33 ((cmdEng s4_1 33 c4_1 false).txn (h4_1.dest + c4_1.pos) false) bs4_1).1 : State), ((writePart u4_1 33 ((cmdEng s4_1 33 c4_1 false).txn (h4_1.dest + c4_1.pos) false) bs4_1).2 : Got), by decide +kernel, by decide +kernel, by decide +kernel, by decide +kernel, by decide +kernel, by decide +kernel, by decide +kernel, by decide +kernel, rfl, rfl, by decide +kernel⟩,
   ⟨c5_1, h5_1, s5_1, 33, u5_1, 15, ((invalidateNow u5_1 { op := 3, slice := h5_1.slice, seq := 0, addr := h5_1.va, size := h5_1.size }).getD u5_1 : State), by decide +kernel, by decide +kernel, by decide +kernel, by decide +kernel, rfl, by decide +kernel, rfl⟩,
   ⟨c5_2, h5_2, s5_2, 33, u5_2, 15, u5_2, by decide +kernel, by decide +kernel, by decide +kernel, by decide +kernel, rfl, by decide +kernel⟩⟩
end MigrateRuns

namespace SignalsAndWaits
abbrev c1_1 : Cmd := cmdOfOp 9 [(0x10, 0x1000), (0x18, 0x3000), (0x20, 1)]
abbrev s1_1 : State := { busy c1_1 with gtu := { mapped.gtu with ctx := [(3, { pinLimit := 4 })] } }
abbrev c3_1 : Cmd := cmdOfOp 10 [(0x10, 0x1000), (0x18, 3), (0x20, 2)]
abbrev c4_1 : Cmd := cmdOfOp 11 [(0x10, 0), (0x18, 3), (0x20, 1)]
abbrev s4_1 : State := { busy c4_1 with mem := [(0, 3)] }
abbrev c5_1 : Cmd := { cmdOfOp 11 [(0x10, 0), (0x18, 3), (0x20, 1), (0x24, 1)] with pos := 3 }
abbrev s5_1 : State := { busy c5_1 with mem := [(0, 4)], time := 768 }
abbrev c6_1 : Cmd := { cmdOfOp 11 [(0x10, 0), (0x18, 3), (0x20, 1), (0x24, 1)] with pos := 3 }
theorem test_met :
    (∃ (i : Instr) (c : Cmd) (s : State) (q : Fin 4096) (kind : Nat) (n : Nat) (counts : Bool) (u : State), ((i, kind) ∈ [(Instr.adviseTranslate q, 0), (.advisePin q, 1), (.adviseUnpin q, 2)]) ∧ (going s q 9 c) ∧ (slotLe c.raw 0x20 1 = kind) ∧ (let len := slotLe c.raw 0x18 8; c.pos < len) ∧ (advisePage s q (queueSlice s q) kind ((slotLe c.raw 0x10 8 + c.pos) % 2 ^ 64) = (u, some (n, counts))) ∧ (let len := slotLe c.raw 0x18 8; len ≤ c.pos + n)) ∧
    (∃ (s : State) (n : Nat) (q : Nat) (dva : Nat) (e : TlbEntry), (dva < 2 ^ 57) ∧ (tlbFind s n dva = some e) ∧ (e.pinned = false) ∧ (s.gtu.walks = [])) ∧
    (∃ (i : Instr) (c : Cmd) (s : State) (q : Fin 4096) (op : Nat) (opc : Nat) (u : State) (bs : List Byte), ((i, op, opc) ∈ [(Instr.signalAdd q, 0, 0x10), (.signalSet q, 1, 0x11), (.signalMax q, 2, 0x14)]) ∧ (going s q 0x0A c) ∧ (slotLe c.raw 0x20 1 = op) ∧ (let v := setCmd s q { c with stage := 1 }; (cmdEng v q c false).atomic v (slotLe c.raw 0x10 8) opc (slotLe c.raw 0x18 8) = (u, .ok bs))) ∧
    (∃ (c : Cmd) (s : State) (q : Fin 4096) (u : State) (bs : List Byte), (going s q 0x0B c) ∧ ((cmdEng s q c false).readSpan 3 s (slotLe c.raw 0x10 8) 8 = (u, .ok bs)) ∧ (c.pos = 0)) ∧
    (∃ (c : Cmd) (s : State) (q : Fin 4096) (u : State) (bs : List Byte), (going s q 0x0B c) ∧ ((cmdEng s q c false).readSpan 3 s (slotLe c.raw 0x10 8) 8 = (u, .ok bs)) ∧ (c.pos ≠ 0) ∧ (c.t0 + 256 * c.pos ≤ s.time) ∧ (waitOver c (c.t0 + 256 * c.pos) = false)) ∧
    (∃ (c : Cmd) (s : State) (q : Fin 4096), (going s q 0x0B c) ∧ (c.pos ≠ 0) ∧ (slotLe c.raw 0x24 4 ≠ 0) ∧ (c.t0 + slotLe c.raw 0x24 4 * 1000 ≤ s.time)) :=
  ⟨⟨(.advisePin 33 : Instr), c1_1, s1_1, 33, 1, 0x3FFFF000, true, ((advisePage s1_1 33 (queueSlice s1_1 33) 1 0x1000).1 : State), by decide +kernel⟩,
   ⟨({ mapped with gtu := { mapped.gtu with ctx := [(3, { pinLimit := 4 })] } } : State), 3, 33, 0x1000, ({ slice := 3, va := 0, size := 0x40000000, pa := 0, r := true, w := true, a := true, noalloc := false } : TlbEntry), by decide +kernel⟩,
   ⟨(.signalMax 33 : Instr), c3_1, (busy c3_1 : State), 33, 2, 0x14, (((cmdEng (setCmd (busy c3_1 : State) 33 { c3_1 with stage := 1 }) 33 c3_1 false).atomic (setCmd (busy c3_1 : State) 33 { c3_1 with stage := 1 }) (slotLe c3_1.raw 0x10 8) 0x14 (slotLe c3_1.raw 0x18 8)).1 : State), (readOf ((cmdEng (setCmd (busy c3_1 : State) 33 { c3_1 with stage := 1 }) 33 c3_1 false).atomic (setCmd (busy c3_1 : State) 33 { c3_1 with stage := 1 }) (slotLe c3_1.raw 0x10 8) 0x14 (slotLe c3_1.raw 0x18 8)).2 : List Byte), by decide +kernel, by decide +kernel, by decide +kernel, rfl⟩,
   ⟨c4_1, s4_1, 33, (((cmdEng s4_1 33 c4_1 false).readSpan 3 s4_1 (slotLe c4_1.raw 0x10 8) 8).1 : State), (readOf ((cmdEng s4_1 33 c4_1 false).readSpan 3 s4_1 (slotLe c4_1.raw 0x10 8) 8).2 : List Byte), by decide +kernel, rfl, by decide +kernel⟩,
   ⟨c5_1, s5_1, 33, (((cmdEng s5_1 33 c5_1 false).readSpan 3 s5_1 (slotLe c5_1.raw 0x10 8) 8).1 : State), (readOf ((cmdEng s5_1 33 c5_1 false).readSpan 3 s5_1 (slotLe c5_1.raw 0x10 8) 8).2 : List Byte), by decide +kernel, rfl, by decide +kernel, by decide +kernel, by decide +kernel⟩,
   ⟨c6_1, ({ busy c6_1 with mem := [(0, 4)], time := 1000 } : State), 33, by decide +kernel⟩⟩
end SignalsAndWaits

namespace FencesAndRecords
noncomputable abbrev rows (q : Fin 4096) : List (Instr × Nat) := [(.fenceRelease q, 1), (.fenceAcquire q, 2), (.fenceReleaseAcquire q, 3)]
abbrev regionsOf (s : State) (q : Nat) (c : Cmd) : BitVec 16 :=
    let all := cacheableMask s (queueSlice s q)
    let m := BitVec.ofNat 16 (slotLe c.raw 0x12 2)
    if m = 0 then all else m &&& all
abbrev alone (s : State) (q : Nat) (c : Cmd) : Prop := s.quiet = false ∧ (s.queue q).heldRecord = none ∧ (s.queue q).closing = [] ∧ (s.queue q).cmd = some c
abbrev c1_1 : Cmd := cmdOfOp 12 [(0x10, 2), (0x11, 2)]
abbrev c2_1 : Cmd := cmdOfOp 12 [(0x10, 3), (0x11, 3)]
abbrev c3_1 : Cmd := { cmdOfOp 12 [(0x10, 3), (0x11, 3)] with stage := 2, aux := [(0, 5)] }
abbrev f3_1 : FabOp := { id := 4, slice := 3, regions := 0, acquire := false, contexts := 0, keep := true, lines := 6 }
abbrev c4_1 : Cmd := { cmdOfOp 2 [(2, 5), (8, 77)] with result := some (2, 8, some 3), elems := 3 }
abbrev u4_1 : State := (finishWrites (busy c4_1 : State) 33 (queueSlice (busy c4_1 : State) 33)).1
abbrev c5_1 : Cmd := { cmdOfOp 2 [(2, 5), (8, 77)] with result := some (2, 8, some 3), elems := 3, issued := some (recordOf (cmdOfOp 2 [(2, 5), (8, 77)]) 2 8 (some 3) false) }
abbrev r5_1 : Rec := recordOf (cmdOfOp 2 [(2, 5), (8, 77)]) 2 8 (some 3) false
abbrev c5_2 : Cmd := { cmdOfOp 2 [(2, 5), (8, 77)] with result := some (0, 0, none), elems := 3, issued := some (recordOf (cmdOfOp 2 [(2, 5), (8, 77)]) 0 0 none false) }
abbrev r5_2 : Rec := recordOf (cmdOfOp 2 [(2, 5), (8, 77)]) 0 0 none false
abbrev c6_1 : Cmd := { cmdOfOp 2 [(2, 5), (8, 77)] with result := some (0, 0, none), elems := 3 }
abbrev c7_1 : Cmd := { cmdOfOp 2 [(2, 5), (8, 77)] with result := some (2, 8, some 3), elems := 3 }
abbrev s7_1 : State := { mapped with queues := [(33, { state := 1, closing := [c7_1] })] }
abbrev u7_1 : State := (finishWrites s7_1 (closeTag 33 c7_1.seq) (queueSlice s7_1 33)).1
theorem test_met :
    (∃ (i : Instr) (c : Cmd) (s : State) (q : Fin 4096) (kind : Nat), ((i, kind) ∈ rows q) ∧ (going s q 0x0C c) ∧ (slotLe c.raw 0x11 1 = kind) ∧ (c.stage = 0) ∧ ((slotLe c.raw 0x10 1 = 2 ∨ regionsOf s q c = 0 ∧ (kind = 2 ∨ (s.queue q).closing = [])))) ∧
    (∃ (i : Instr) (c : Cmd) (s : State) (q : Fin 4096) (kind : Nat), ((i, kind) ∈ rows q) ∧ (going s q 0x0C c) ∧ (slotLe c.raw 0x11 1 = kind) ∧ (c.stage = 0) ∧ (slotLe c.raw 0x10 1 ≠ 2) ∧ ((kind = 2 ∨ (s.queue q).closing = [])) ∧ (regionsOf s q c ≠ 0)) ∧
    (∃ (i : Instr) (c : Cmd) (f : FabOp) (s : State) (q : Fin 4096) (kind : Nat), ((i, kind) ∈ rows q) ∧ (going s q 0x0C c) ∧ (slotLe c.raw 0x11 1 = kind) ∧ (c.stage ≠ 0) ∧ ((kind = 3 → c.stage ≠ 1)) ∧ ((s.queue q).waiting = 0) ∧ (s.fabOps = [f]) ∧ (f.id + 1 = Tab.get 0 c.aux 0) ∧ (f.regions = 0) ∧ (Tab.get 0 c.aux 1 = 0)) ∧
    (∃ (c : Cmd) (s : State) (q : Fin 4096) (st : Nat) (d : Nat) (f : Option Nat) (u : State) (v : State), (alone s q c) ∧ (c.result = some (st, d, f)) ∧ (c.issued = none) ∧ (padded s q = false) ∧ (finishWrites s q (queueSlice s q) = (u, .done)) ∧ (let r := recordOf c st d f (keepsContext c st); writeRecord (endWork u q) q q r false = .wait v true)) ∧
    (∃ (c : Cmd) (s : State) (q : Fin 4096) (st : Nat) (d : Nat) (f : Option Nat) (r : Rec) (v : State), (alone s q c) ∧ (c.result = some (st, d, f)) ∧ (c.issued = some r) ∧ (writeRecord s q q r true = .written v) ∧ (r.status ≠ 0) ∧ (r.status ≠ 6) ∧ (let w := recordWritten (closeCmd v q false c r) q r; (w.queue q).state = 1) ∧ (let w := recordWritten (closeCmd v q false c r) q r; (w.queue q).closing = []) ∧ (let w := recordWritten (closeCmd v q false c r) q r; (w.queue q).abortReq = false)) ∧
    (∃ (c : Cmd) (s : State) (q : Fin 4096) (st : Nat) (d : Nat) (f : Option Nat) (r : Rec) (v : State), (alone s q c) ∧ (c.result = some (st, d, f)) ∧ (c.issued = some r) ∧ (writeRecord s q q r true = .written v) ∧ (r.status = 0) ∧ (let w := recordWritten (closeCmd v q false c r) q r; (w.queue q).state = 1)) ∧
    (∃ (c : Cmd) (v : State) (q : Nat) (r : Rec), (r.irq = false)) ∧
    (∃ (c : Cmd) (s : State) (q : Fin 4096) (l : List Cmd) (st : Nat) (d : Nat) (f : Option Nat) (u : State) (v : State), (s.quiet = false) ∧ ((s.queue q).heldRecord = none) ∧ ((s.queue q).closing = c :: l) ∧ (c.result = some (st, d, f)) ∧ (c.issued = none) ∧ (let tag := closeTag q c.seq; padded s tag = false) ∧ (let tag := closeTag q c.seq; finishWrites s tag (queueSlice s q) = (u, .done)) ∧ (let tag := closeTag q c.seq; let r := recordOf c st d f (keepsContext c st); writeRecord (endWork u tag) q tag r false = .wait v true)) :=
  ⟨⟨(.fenceAcquire 33 : Instr), c1_1, (distant (busy c1_1) : State), 33, 2, by decide +kernel⟩,
   ⟨(.fenceReleaseAcquire 33 : Instr), c2_1, (distant (busy c2_1) : State), 33, 3, by decide +kernel⟩,
   ⟨(.fenceReleaseAcquire 33 : Instr), c3_1, f3_1, ({ distant (busy c3_1) with fabOps := [f3_1] } : State), 33, 3, by decide +kernel⟩,
   ⟨c4_1, (busy c4_1 : State), 33, 2, 8, (some 3 : Option Nat), u4_1, (wroteTo (writeRecord (endWork u4_1 33) 33 33 (recordOf c4_1 2 8 (some 3 : Option Nat) (keepsContext c4_1 2)) false) : State), by decide +kernel, by decide +kernel, by decide +kernel, by decide +kernel, by decide +kernel, waits_of rfl⟩,
   ⟨c5_1, (busy c5_1 : State), 33, 2, 8, (some 3 : Option Nat), r5_1, (wroteTo (writeRecord (busy c5_1 : State) 33 33 r5_1 true) : State), by decide +kernel⟩,
   ⟨c5_2, (busy c5_2 : State), 33, 0, 0, none, r5_2, (wroteTo (writeRecord (busy c5_2 : State) 33 33 r5_2 true) : State), by decide +kernel⟩,
   ⟨c6_1, (busy c6_1 : State), 33, (recordOf c6_1 0 0 none false : Rec), by decide +kernel⟩,
   ⟨c7_1, s7_1, 33, ([] : List Cmd), 2, 8, (some 3 : Option Nat), u7_1, (wroteTo (writeRecord (endWork u7_1 (closeTag 33 c7_1.seq)) 33 (closeTag 33 c7_1.seq) (recordOf c7_1 2 8 (some 3 : Option Nat) (keepsContext c7_1 2)) false) : State), by decide +kernel, by decide +kernel, by decide +kernel, by decide +kernel, by decide +kernel, by decide +kernel, by decide +kernel, waits_of rfl⟩⟩
end FencesAndRecords

namespace CalenderRuns
abbrev r2_1 : CalRun := { queue := 33, slice := 3, mask := 1 }
abbrev s2_1 : State := { busy (calCmd 2 : Cmd) with runs := [r2_1], mem := calMem }
abbrev r2_2 : CalRun := { queue := 33, slice := 3, mask := 1 }
abbrev s2_2 : State := { busy (calCmd 2 : Cmd) with runs := [r2_2], mem := Tab.set 0 calMem (2 ^ 32 + 0x40) 5 }
abbrev r4_1 : CalRun := { calRun' [1, 2] with next := [(0, 1)] }
abbrev s5_1 : State := { calAt 2 (calRun' [1, 2] : CalRun) with mem := calMem ++ [(16 * 2 ^ 32 + 1, 0x3F)] }
abbrev u5_1 : State := ((calEng (calRun' [1, 2] : CalRun).slice 0).readSpan 4 s5_1 0x1000 4).1
abbrev c6_1 : CalChunk := { chunk := 0, stack := 0, loaded := 1 }
abbrev r6_1 : CalRun := { calRun' [1, 2] with cur := [(0, some c6_1)] }
abbrev c7_1 : CalChunk := { chunk := 0, stack := 0, loaded := 1, phase := 2, pc := 2 }
abbrev r7_1 : CalRun := { calRun' [1, 2] with cur := [(0, some c7_1)] }
abbrev r8_1 : CalRun := { calRun' [1, 2] with next := [(0, 1)], finished := 0xFF }
theorem test_met :
    (∃ (c : Cmd) (s : State) (q : Fin 4096), (going s q 0x11 c) ∧ (runOf s q = none) ∧ (c.aux = [])) ∧
    (∃ (c : Cmd) (r : CalRun) (s : State) (q : Fin 4096) (k : Nat) (u : State) (prog : List Nat) (table : List Byte) (consts : List Byte) (segb : List Byte) (segval : List Byte), (s.quiet = false) ∧ (runOf s q = some r) ∧ ((s.queue q).cmd = some c) ∧ (r.queue = q.val) ∧ (r.started = false) ∧ (c.aborting = false) ∧ (r.mask.toNat = 2 ^ k) ∧ (k < 8) ∧ ((s.cal k).retired = false) ∧ ((s.cal k).running = false) ∧ ((∀ o ∈ s.runs.takeWhile (fun (o : CalRun) => o.queue ≠ q.val), o.started = true ∨ o.mask &&& r.mask = 0)) ∧ (readTables s (calEng r.slice k) c = (u, .ok prog table consts segb segval)) ∧ (badOperand table (slotLe c.raw 0x30 8) = none) ∧ (badProgram table prog = none) ∧ (let segs := (List.range (segb.length / 8)).map (fun i => le segb (8 * i) 8); badSegment segs (slotLe c.raw 0x28 8) = none)) ∧
    (∃ (c : Cmd) (r : CalRun) (s : State) (q : Fin 4096) (k : Nat) (u : State) (prog : List Nat) (table : List Byte) (consts : List Byte) (segb : List Byte) (segval : List Byte), (s.quiet = false) ∧ (runOf s q = some r) ∧ ((s.queue q).cmd = some c) ∧ (r.queue = q.val) ∧ (r.started = false) ∧ (c.aborting = false) ∧ (r.mask.toNat = 2 ^ k) ∧ (k < 8) ∧ ((s.cal k).retired = false) ∧ ((s.cal k).running = false) ∧ ((∀ o ∈ s.runs.takeWhile (fun (o : CalRun) => o.queue ≠ q.val), o.started = true ∨ o.mask &&& r.mask = 0)) ∧ (readTables s (calEng r.slice k) c = (u, .ok prog table consts segb segval))) ∧
    (∃ (c : Cmd) (r : CalRun) (s : State) (k : Fin 8) (n : Nat) (m : Nat), (s.quiet = false) ∧ (runOn s k = some r) ∧ ((s.queue r.queue).cmd = some c) ∧ (c.aborting = false) ∧ (r.failed = none) ∧ (Tab.get none r.cur k = none) ∧ (nextChunk s r k = some (n, m))) ∧
    (∃ (c : Cmd) (r : CalRun) (s : State) (k : Fin 8), (s.quiet = false) ∧ (runOn s k = some r) ∧ ((s.queue r.queue).cmd = some c) ∧ (c.aborting = false) ∧ (r.failed = none) ∧ (Tab.get none r.cur k = none) ∧ (nextChunk s r k = none)) ∧
    (∃ (r : CalRun) (s : State) (k : Nat) (i : Nat) (c : CalChunk) (u : State) (bs : List Byte) (v : State), (calMx (opFmt r.table i) = false) ∧ (hbmSpan s r.slice (chunkSpan s r c.chunk i).1 (chunkSpan s r c.chunk i).2 = true) ∧ (let e := calEng r.slice k; e.readSpan 4 s (chunkSpan s r c.chunk i).1 (chunkSpan s r c.chunk i).2 = (u, .ok bs)) ∧ (let e := calEng r.slice k; e.readSpan 2 u 0 0 = (v, .ok []))) ∧
    (∃ (c : CalChunk) (r : CalRun) (s : State) (k : Fin 8) (u : State) (pas : List (Nat × Nat)), (s.quiet = false) ∧ (runOn s k = some r) ∧ (Tab.get none r.cur k = some c) ∧ (c.phase = 0) ∧ (r.loadOps.length ≤ c.loaded) ∧ (storeLines k r (r.storeOps.flatMap (fun i => (linesOf (chunkSpan s r c.chunk i).1 (chunkSpan s r c.chunk i).2 ++ linesOf (scaleSpan s r c.chunk i).1 (scaleSpan s r c.chunk i).2).map (fun l => (l, i)))) [] s = (u, .inl pas))) ∧
    (∃ (c : CalChunk) (r : CalRun) (s : State) (k : Fin 8), (s.quiet = false) ∧ (runOn s k = some r) ∧ (Tab.get none r.cur k = some c) ∧ (c.phase = 2) ∧ (tagBusy s (calTag k) = false) ∧ (tagFailure s (calTag k) = none)) ∧
    (∃ (c : Cmd) (r : CalRun) (s : State) (q : Fin 4096) (u : State) (f : CalRun), (s.quiet = false) ∧ (runOf s q = some r) ∧ ((s.queue q).cmd = some c) ∧ ((∀ k, k < 8 → Tab.get none r.cur k = none)) ∧ (r.failed = none) ∧ (c.aborting = false) ∧ (r.started = true) ∧ (r.chunks s ≤ firstIncomplete s r) ∧ (writeFinals { calEng r.slice (((List.range 8).find? (fun k => r.mask.getLsbD k)).getD 0) with tag := q } ((finalWrites r).drop r.stage) r s = (u, .inl f))) :=
  ⟨⟨(calCmd 2 : Cmd), (busy (calCmd 2 : Cmd) : State), 33, by decide +kernel⟩,
   ⟨(calCmd 2 : Cmd), r2_1, s2_1, 33, 0, ((readTables s2_1 (calEng 3 0) (calCmd 2 : Cmd)).1 : State), ((tablesOf (readTables s2_1 (calEng 3 0) (calCmd 2 : Cmd)).2).1 : List Nat), ((tablesOf (readTables s2_1 (calEng 3 0) (calCmd 2 : Cmd)).2).2.1 : List Byte), ((tablesOf (readTables s2_1 (calEng 3 0) (calCmd 2 : Cmd)).2).2.2.1 : List Byte), ((tablesOf (readTables s2_1 (calEng 3 0) (calCmd 2 : Cmd)).2).2.2.2.1 : List Byte), ((tablesOf (readTables s2_1 (calEng 3 0) (calCmd 2 : Cmd)).2).2.2.2.2 : List Byte), by decide +kernel, by decide +kernel, by decide +kernel, by decide +kernel, by decide +kernel, by decide +kernel, by decide +kernel, by decide +kernel, by decide +kernel, by decide +kernel, by decide +kernel, pair _ (by decide +kernel), by decide +kernel, by decide +kernel, by decide +kernel⟩,
   ⟨(calCmd 2 : Cmd), r2_2, s2_2, 33, 0, ((readTables s2_2 (calEng 3 0) (calCmd 2 : Cmd)).1 : State), ((tablesOf (readTables s2_2 (calEng 3 0) (calCmd 2 : Cmd)).2).1 : List Nat), ((tablesOf (readTables s2_2 (calEng 3 0) (calCmd 2 : Cmd)).2).2.1 : List Byte), ((tablesOf (readTables s2_2 (calEng 3 0) (calCmd 2 : Cmd)).2).2.2.1 : List Byte), ((tablesOf (readTables s2_2 (calEng 3 0) (calCmd 2 : Cmd)).2).2.2.2.1 : List Byte), ((tablesOf (readTables s2_2 (calEng 3 0) (calCmd 2 : Cmd)).2).2.2.2.2 : List Byte), by decide +kernel, by decide +kernel, by decide +kernel, by decide +kernel, by decide +kernel, by decide +kernel, by decide +kernel, by decide +kernel, by decide +kernel, by decide +kernel, by decide +kernel, pair _ (by decide +kernel)⟩,
   ⟨(calCmd 2 : Cmd), (calRun' [1, 2] : CalRun), (calAt 2 (calRun' [1, 2] : CalRun) : State), 0, 0, 0, by decide +kernel⟩,
   ⟨(calCmd 2 : Cmd), r4_1, (calAt 2 r4_1 : State), 0, by decide +kernel⟩,
   ⟨(calRun' [1, 2] : CalRun), s5_1, 0, 0, ({ chunk := 0, stack := 0 } : CalChunk), u5_1, (readOf ((calEng (calRun' [1, 2] : CalRun).slice 0).readSpan 4 s5_1 0x1000 4).2 : List Byte), (((calEng (calRun' [1, 2] : CalRun).slice 0).readSpan 2 u5_1 0 0).1 : State), by decide +kernel, by decide +kernel, rfl, rfl⟩,
   ⟨c6_1, r6_1, (calAt 2 r6_1 : State), 0, ((storeLines 0 r6_1 [(0x1000, 0)] [] (calAt 2 r6_1 : State)).1 : State), (leftOf [] (storeLines 0 r6_1 [(0x1000, 0)] [] (calAt 2 r6_1 : State)).2 : List (Nat × Nat)), by decide +kernel⟩,
   ⟨c7_1, r7_1, (calAt 2 r7_1 : State), 0, by decide +kernel⟩,
   ⟨(calCmd 2 : Cmd), r8_1, (calAt 2 r8_1 : State), 33, ((writeFinals { calEng r8_1.slice 0 with tag := 33 } ((finalWrites r8_1).drop r8_1.stage) r8_1 (calAt 2 r8_1 : State)).1 : State), (leftOf { queue := 0, slice := 0, mask := 0 } (writeFinals { calEng r8_1.slice 0 with tag := 33 } ((finalWrites r8_1).drop r8_1.stage) r8_1 (calAt 2 r8_1 : State)).2 : CalRun), by decide +kernel⟩⟩
end CalenderRuns

namespace CalenderOperations
noncomputable abbrev rows (k : Fin 8) : List (Instr × Nat) :=
    [(.calAdd k, 0x10), (.calSub k, 0x11), (.calMul k, 0x12), (.calFma k, 0x13), (.calFnma k, 0x14), (.calMin k, 0x15), (.calMax k, 0x16), (.calAbs k, 0x17), (.calNeg k, 0x18),
     (.calSign k, 0x19), (.calSqrt k, 0x1A), (.calDiv k, 0x1B), (.calRcp k, 0x1C), (.calRsqrt k, 0x1D), (.calLd k, 1)]
abbrev at1 (s : State) (k : Nat) (r : CalRun) (c : CalChunk) (w : Nat) : Prop :=
    s.quiet = false ∧ runOn s k = some r ∧ Tab.get none r.cur k = some c ∧ c.phase = 1 ∧ r.prog[c.pc]? = some w
abbrev r1_1 : CalRun := { calRun' [0x10 + 2 * 256 + 16 * 2 ^ 18] with cur := [(0, some calNow)], consts := [(0, 0x3F000000)] }
abbrev r1_2 : CalRun := { calRun' [1 + 3 * 256] with cur := [(0, some calNow)] }
abbrev r2_1 : CalRun := { calRun' [3 + 3 * 256] with cur := [(0, some calNow)] }
abbrev r3_1 : CalRun := { calRun' [2] with cur := [(0, some { calNow with regs := [(0, 0x3F800000), (16, 0x7FC00000)] })] }
abbrev r4_1 : CalRun := { calRun' [0x20] with cur := [(0, some calNow)], sums := [(0, 5)] }
theorem test_met :
    (∃ (c : CalChunk) (w : Nat) (r : CalRun) (i : Instr) (s : State) (k : Fin 8) (opc : Nat), ((i, opc) ∈ rows k) ∧ (at1 s k r c w) ∧ ((calF w).opc = opc)) ∧
    (∃ (c : CalChunk) (w : Nat) (r : CalRun) (i : Instr) (s : State) (k : Fin 8) (opc : Nat), ((i, opc) ∈ rows k) ∧ (at1 s k r c w) ∧ ((calF w).opc = opc)) ∧
    (∃ (c : CalChunk) (w : Nat) (r : CalRun) (s : State) (k : Fin 8), (at1 s k r c w) ∧ ((calF w).opc = 3)) ∧
    (∃ (c : CalChunk) (w : Nat) (r : CalRun) (s : State) (k : Fin 8), (at1 s k r c w) ∧ ((calF w).opc = 2)) ∧
    (∃ (c : CalChunk) (w : Nat) (r : CalRun) (s : State) (k : Fin 8), (at1 s k r c w) ∧ ((calF w).opc = 0x20)) :=
  ⟨⟨calNow, (0x10 + 2 * 256 + 0 * 4096 + 16 * 2 ^ 18 : Nat), r1_1, (.calAdd 0 : Instr), (calAt 2 r1_1 : State), 0, 0x10, by decide +kernel⟩,
   ⟨calNow, (1 + 3 * 256 : Nat), r1_2, (.calLd 0 : Instr), (calAt 2 r1_2 : State), 0, 1, by decide +kernel⟩,
   ⟨calNow, (3 + 3 * 256 : Nat), r2_1, (calAt 2 r2_1 : State), 0, by decide +kernel⟩,
   ⟨({ calNow with regs := [(0, 0x3F800000), (16, 0x7FC00000)] } : CalChunk), 2, r3_1, (calAt 2 r3_1 : State), 0, by decide +kernel⟩,
   ⟨calNow, 0x20, r4_1, (calAt 2 r4_1 : State), 0, by decide +kernel⟩⟩
end CalenderOperations

namespace PortsAndRoce
abbrev r8_1 : RocePkt := { port := ⟨Config.roceQp 1 0 % 128, Nat.mod_lt _ (by decide)⟩, qp := 5, psn := 7, rkey := 0, va := 0, len := 0, imm := 0, payload := [], ecn := false }
theorem test_met :
    (∃ (s : State) (p : Fin 128), (s.quiet = false) ∧ (portConfigured s p = true) ∧ (((s.port p).state = 1 ∨ (s.port p).state = 3))) ∧
    (∃ (s : State) (p : Fin 128), (s.quiet = false) ∧ ((s.port p).state = 2)) ∧
    (∃ (s : State) (p : Fin 128), (s.quiet = false) ∧ ((s.port p).state = 1) ∧ (s.glb.trainAt + 500000000 ≤ s.time)) ∧
    (∃ (s : State) (p : Fin 128) (i : Fin 8), (carries s p 1 = true)) ∧
    (∃ (s : State) (p : Fin 128) (i : Fin 8) (n : Nat) (k : Nat) (psn : Nat) (d : List Byte), (carries s p 1 = true) ∧ ((s.port p).held = [(i.val, n, k, psn, d)])) ∧
    (∃ (s : State) (n : BitVec 12) (st : BitVec 2), (s.quiet = false)) ∧
    (∃ (s : State) (n : BitVec 12) (st : BitVec 2), (s.quiet = false)) ∧
    (∃ (s : State) (r : RocePkt), (carries s r.port 1 = true) ∧ ((s.qp r.qp.toNat).state = 1)) ∧
    (∃ (r : RocePkt) (i : Instr) (s : State) (act : State → BitVec 512 → RoceRes) (u : State) (bs : List Byte), (let n := r.qp.toNat; (i, act) ∈ ([(.roceSend r, fun s ctx => roceReceive s n ctx 0 (some r.payload) r.payload.length), (.roceSendImm r, fun s ctx => roceReceive s n ctx r.imm.toNat (some r.payload) r.payload.length), (.roceRdmaWrite r, fun s ctx => rdmaWrite s n (Config.roceQp 0 ctx) r (fun s => .ok s 0 [])), (.roceRdmaWriteImm r, fun s ctx => rdmaWrite s n (Config.roceQp 0 ctx) r (fun s => roceReceive s n ctx r.imm.toNat none r.payload.length)), (.roceRdmaRead r, fun s ctx => rdmaRead s n (Config.roceQp 0 ctx) r)] : List (Instr × (State → BitVec 512 → RoceRes)))) ∧ (carries s r.port 1 = true) ∧ (let n := r.qp.toNat; (s.qp n).state = 1) ∧ (r.ecn = false) ∧ (let n := r.qp.toNat; ({ tag := 0x50000 + n } : Hub).read 2 s (bits s.nx.qpt 49 12 * 4096 + n * 64) 64 = (u, .ok bs)) ∧ (let n := r.qp.toNat; (u.qp n).psn = some r.psn.toNat) ∧ (let ctx := BitVec.ofNat 512 (leNat bs); Config.roceQp 1 ctx % 128 = r.port.val)) :=
  ⟨⟨({ mapped with nx := { ports := [(2, { state := 3 })] } } : State), 2, by decide +kernel⟩,
   ⟨({ mapped with nx := { ports := [(2, { state := 2 })] } } : State), 2, by decide +kernel⟩,
   ⟨({ mapped with nx := { ports := [(2, { state := 1 })] }, time := 500000000 } : State), 2, by decide +kernel⟩,
   ⟨({ mapped with nx := { ports := [(2, { state := 2 })] } } : State), 2, 7, by decide +kernel⟩,
   ⟨({ mapped with nx := { ports := [(2, { state := 2, held := [(7, 5, 0, 9, [])], paused := 0x81 })] } } : State), 2, 7, 5, 0, 9, ([] : List Byte), by decide +kernel⟩,
   ⟨mapped, 4095, 2, by decide +kernel⟩,
   ⟨mapped, 4095, 3, by decide +kernel⟩,
   ⟨({ mapped with nx := { ports := [(2, { state := 2 })], qps := [(5, { state := 1 })] } } : State), ({ port := 2, qp := 5, psn := 7, rkey := 0, va := 0, len := 0, imm := 0, payload := [], ecn := false } : RocePkt), by decide +kernel⟩,
   ⟨r8_1, (.roceSend r8_1 : Instr), allPorts, ((fun allPorts ctx => roceReceive allPorts r8_1.qp.toNat ctx 0 (some r8_1.payload) r8_1.payload.length) : State → BitVec 512 → RoceRes), ((({ tag := 0x50000 + r8_1.qp.toNat } : Hub).read 2 allPorts (bits allPorts.nx.qpt 49 12 * 4096 + r8_1.qp.toNat * 64) 64).1 : State), (List.replicate 64 0 : List Byte), List.mem_of_getElem? (i := 0) rfl, (by decide +kernel : ∀ p : Fin 128, carries allPorts p 1 = true) _, by decide +kernel, by decide +kernel, pair _ (by decide +kernel), by decide +kernel, congrArg (fun z => Config.roceQp 1 z % 128) (by decide +kernel : BitVec.ofNat 512 (leNat (List.replicate 64 0)) = 0)⟩⟩
end PortsAndRoce

namespace PeerPackets
abbrev fresh (s u v : State) (p : NxPkt) (k : Nat) : Prop := received s p false = (u, some k) ∧ takePsn u k p.src.toNat p.psn.toNat = (v, true)
abbrev p4_1 : NxPkt := pkt 0x1008 4 0x10 [1, 2, 3, 4, 5, 6, 7, 8, 9, 0, 0, 0, 0, 0, 0, 0]
abbrev s5_1 : State := { jobbed 7 with rops := [rop 0] }
abbrev p5_1 : NxPkt := pkt 0 40 0 (List.replicate 128 7)
abbrev s6_1 : State := { jobbed 7 with rops := [rop 2] }
abbrev p6_1 : NxPkt := pkt 0 40 0 [7, 0, 0, 0, 0, 0, 0, 0]
abbrev s7_1 : State := { jobbed 7 with rops := [rop 1] }
abbrev s9_1 : State := conned { state := 1, cumPsn := 4 }
theorem test_met :
    (∃ (s : State) (p : NxPkt) (u : State) (v : State) (k : Nat), (fresh s u v p k) ∧ (0 < p.payload.length) ∧ (p.addr.toNat % 4096 + p.payload.length ≤ 4096) ∧ (p.addr.toNat % 128 + p.payload.length ≤ 128)) ∧
    (∃ (s : State) (p : NxPkt) (u : State) (v : State) (k : Nat), (fresh s u v p k) ∧ (0 < p.payload.length) ∧ (p.addr.toNat % 4096 + p.payload.length ≤ 4096)) ∧
    (∃ (s : State) (p : NxPkt) (u : State) (v : State) (k : Nat), (fresh s u v p k) ∧ (0 < p.aux.toNat) ∧ (p.addr.toNat % 4096 + p.aux.toNat ≤ 4096) ∧ (p.addr.toNat % 128 + p.aux.toNat ≤ 128)) ∧
    (∃ (i : Instr) (s : State) (p : NxPkt) (u : State) (v : State) (k : Nat) (o : Nat), ((i, o) ∈ [(Instr.nxAtomicAdd p, 0x10), (.nxAtomicSwap p, 0x11), (.nxAtomicCas p, 0x12), (.nxAtomicMin p, 0x13), (.nxAtomicMax p, 0x14)]) ∧ (fresh s u v p k) ∧ (p.addr.toNat % (if p.aux.getLsbD 4 then 8 else 4) = 0)) ∧
    (∃ (s : State) (p : NxPkt) (u : State) (v : State) (k : Nat) (o : ROp), (fresh s u v p k) ∧ (openRop v k p.src.toNat p.opid.toNat 0 = some o) ∧ (p.addr.toNat + p.payload.length ≤ 128) ∧ (p.aux = 0) ∧ (128 ≤ o.acked + p.payload.length)) ∧
    (∃ (s : State) (p : NxPkt) (u : State) (v : State) (k : Nat) (o : ROp), (fresh s u v p k) ∧ (openRop v k p.src.toNat p.opid.toNat 2 = some o)) ∧
    (∃ (s : State) (p : NxPkt) (u : State) (v : State) (k : Nat) (o : ROp), (fresh s u v p k) ∧ (openRop v k p.src.toNat p.opid.toNat 1 = some o) ∧ (p.aux.toNat / 256 = 0)) ∧
    (∃ (s : State) (tag : Nat) (k : Nat) (m : Nat) (rpa : Nat) (o : Nat) (n : Nat) (pa : Nat) (r : Region) (data : Line) (mask : BitVec 128) (x : TxPkt), ((s.job k).state = 2) ∧ (fabricTarget s r pa = some (m, rpa)) ∧ ((s.conn k m).state ≠ 2) ∧ (s.rops.length < 65536) ∧ (connRoom s k m = true) ∧ (maskRuns mask = [(o, n)]) ∧ (packInto s tag k m (rpa + o) n false = some x)) ∧
    (∃ (s : State) (p : NxPkt) (u : State) (v : State) (k : Nat), (received s p false = (u, some k)) ∧ (takePsn u k p.src.toNat p.psn.toNat = (v, false)) ∧ (0 < p.payload.length) ∧ (p.addr.toNat % 4096 + p.payload.length ≤ 4096)) ∧
    (∃ (s : State) (k : Nat) (peer : Nat) (psn : Nat), (let c := s.conn k peer; let d := (psn + 2 ^ 32 - c.cumPsn) % 2 ^ 32; d = 0) ∧ (let c := s.conn k peer; c.bitmap = 0) ∧ (let c := s.conn k peer; c.sinceTack < 15)) ∧
    (∃ (s : State) (k : Nat) (peer : Nat) (psn : Nat), (let c := s.conn k peer; let d := (psn + 2 ^ 32 - c.cumPsn) % 2 ^ 32; 1024 ≤ d) ∧ (let c := s.conn k peer; let d := (psn + 2 ^ 32 - c.cumPsn) % 2 ^ 32; d < 2 ^ 31)) :=
  ⟨⟨(jobbed 7 : State), (pkt 0x1003 4 0 [1, 2, 3] : NxPkt), (rxd (jobbed 7 : State) (pkt 0x1003 4 0 [1, 2, 3] : NxPkt) : State), (psnd (jobbed 7 : State) (pkt 0x1003 4 0 [1, 2, 3] : NxPkt) : State), 3, by decide +kernel⟩,
   ⟨(jobbed 7 : State), (pkt 0x107F 4 0 [1, 2, 3] : NxPkt), (rxd (jobbed 7 : State) (pkt 0x107F 4 0 [1, 2, 3] : NxPkt) : State), (psnd (jobbed 7 : State) (pkt 0x107F 4 0 [1, 2, 3] : NxPkt) : State), 3, by decide +kernel⟩,
   ⟨(jobbed 7 : State), (pkt 0x1003 4 125 [] : NxPkt), (rxd (jobbed 7 : State) (pkt 0x1003 4 125 [] : NxPkt) : State), (psnd (jobbed 7 : State) (pkt 0x1003 4 125 [] : NxPkt) : State), 3, by decide +kernel⟩,
   ⟨(.nxAtomicMax (pkt 0x1008 4 0x10 [1, 2, 3, 4, 5, 6, 7, 8, 9, 0, 0, 0, 0, 0, 0, 0]) : Instr), (jobbed 7 : State), p4_1, (rxd (jobbed 7 : State) p4_1 : State), (psnd (jobbed 7 : State) p4_1 : State), 3, 0x14, by decide +kernel⟩,
   ⟨s5_1, p5_1, (rxd s5_1 p5_1 : State), (psnd s5_1 p5_1 : State), 3, (rop 0 : ROp), by decide +kernel⟩,
   ⟨s6_1, p6_1, (rxd s6_1 p6_1 : State), (psnd s6_1 p6_1 : State), 3, (rop 2 : ROp), by decide +kernel⟩,
   ⟨s7_1, (pkt 0 40 1 [] : NxPkt), (rxd s7_1 (pkt 0 40 1 [] : NxPkt) : State), (psnd s7_1 (pkt 0 40 1 [] : NxPkt) : State), 3, (rop 1 : ROp), by decide +kernel⟩,
   ⟨packed, 33, 3, 5, 0x400000000, 8, 8, 0x20000000000, farWin, 0, 0xFF00, packedPkt, by decide +kernel⟩,
   ⟨s9_1, (pkt 0x1003 4 0 [1, 2, 3] : NxPkt), (rxd s9_1 (pkt 0x1003 4 0 [1, 2, 3] : NxPkt) : State), (psnd s9_1 (pkt 0x1003 4 0 [1, 2, 3] : NxPkt) : State), 3, by decide +kernel⟩,
   ⟨(conned { state := 1, cumPsn := 4 } : State), 3, 5, 4, by decide +kernel⟩,
   ⟨(conned { state := 1, cumPsn := 4 } : State), 3, 5, 1028, by decide +kernel⟩⟩
end PeerPackets

namespace ConnectionRecovery
abbrev s1_1 : State := conned { state := 1, unacked := [{ psn := 4, opc := 1, opid := 4, addr := 0, aux := 0, flags := 0, payload := [], port := 2, sentAt := 0 }] }
abbrev p1_1 : NxPkt := pkt 5 0 0 (List.replicate 128 0)
abbrev x4_1 : TxPkt := { psn := 4, opc := 1, opid := 4, addr := 0, aux := 0, flags := 0, payload := [], port := 2, sentAt := 0, retx := 8 }
abbrev x4_2 : TxPkt := { psn := 4, opc := 1, opid := 4, addr := 0, aux := 0, flags := 0, payload := [], port := 2, sentAt := 0, retx := 7 }
abbrev s6_1 : State := conned { state := 2, reason := 2, unfenced := true }
theorem test_met :
    (∃ (s : State) (p : NxPkt) (u : State) (k : Nat), (received s p false = (u, some k))) ∧
    (∃ (s : State) (k : Nat) (peer : Nat) (cum : Nat) (bm : Nat), ((∀ x ∈ (s.conn k peer).unacked, x.skips + (s.conn k peer).unacked.length < 32))) ∧
    (∃ (s : State) (k : Fin 64) (m : BitVec 14), (s.quiet = false) ∧ ((s.conn k m.toNat).state = 1) ∧ ((s.conn k m.toNat).sinceTack ≠ 0) ∧ ((s.conn k m.toNat).firstSince + 2000 ≤ s.time)) ∧
    (∃ (x : TxPkt) (s : State) (k : Fin 64) (m : BitVec 14) (n : BitVec 32), (s.quiet = false) ∧ ((s.conn k m.toNat).unacked.find? (fun x => x.psn = n.toNat) = some x) ∧ (x.sentAt + rtoNs s ≤ s.time) ∧ (8 ≤ x.retx)) ∧
    (∃ (x : TxPkt) (s : State) (k : Fin 64) (m : BitVec 14) (n : BitVec 32), (s.quiet = false) ∧ ((s.conn k m.toNat).unacked.find? (fun x => x.psn = n.toNat) = some x) ∧ (x.sentAt + rtoNs s ≤ s.time) ∧ (x.retx < 8)) ∧
    (∃ (s : State) (k : Fin 64) (m : BitVec 14), (s.quiet = false) ∧ ((s.conn k m.toNat).state = 1) ∧ ((s.conn k m.toNat).lastSent + s.cfg.keepaliveMs * 250000 ≤ s.time) ∧ ((s.conn k m.toNat).lastHeard + s.cfg.keepaliveMs * 1000000 ≤ s.time)) ∧
    (∃ (s : State) (p : NxPkt) (u : State) (k : Nat), (received s p true = (u, some k)) ∧ ((u.conn k p.src.toNat).state = 2) ∧ ((u.conn k p.src.toNat).unfenced = true)) ∧
    (∃ (s : State) (k : Nat) (m : Nat), (s.quiet = false) ∧ (k = bits s.nx.peerSel 19 14) ∧ (m = bits s.nx.peerSel 13 0) ∧ ((s.conn k m).state = 2)) ∧
    (∃ (s : State) (k : Nat) (m : Nat) (r : Nat), ((s.conn k m).state = 2)) :=
  ⟨⟨s1_1, p1_1, (rxd s1_1 p1_1 : State), 3, by decide +kernel⟩,
   ⟨(conned { state := 1, unacked := [{ psn := 4, opc := 1, opid := 4, addr := 0, aux := 0, flags := 0, payload := [], port := 2, sentAt := 0 }, { psn := 5, opc := 1, opid := 4, addr := 0, aux := 0, flags := 0, payload := [], port := 2, sentAt := 0 }] } : State), 3, 5, 4, 2, by decide +kernel⟩,
   ⟨({ conned { state := 1, sinceTack := 1, firstSince := 5 } with time := 2005 } : State), 3, 5, by decide +kernel⟩,
   ⟨x4_1, ({ conned { state := 1, unacked := [x4_1] } with time := 1000000 } : State), 3, 5, 4, by decide +kernel⟩,
   ⟨x4_2, ({ conned { state := 1, unacked := [x4_2] } with time := 1000000 } : State), 3, 5, 4, by decide +kernel⟩,
   ⟨({ conned { state := 1 } with time := 10000000 } : State), 3, 5, by decide +kernel⟩,
   ⟨s6_1, (pkt 0 0 0 [] : NxPkt), ((received s6_1 (pkt 0 0 0 [] : NxPkt) true).1 : State), 3, by decide +kernel⟩,
   ⟨({ conned { state := 2, reason := 2 } with nx := { (conned { state := 2, reason := 2 }).nx with peerSel := 0xC005 } } : State), 3, 5, by decide +kernel⟩,
   ⟨(conned { state := 2, reason := 2 } : State), 3, 5, 1, by decide +kernel⟩⟩
end ConnectionRecovery

namespace JobsAndKeys
abbrev s2_1 : State := { withJob { state := 1 } with mem := [(0, 77), (8, 9), (10, 7), (12, 2), (64, 7), (64 + 16, 1), (128, 5)] }
abbrev s3_1 : State := withJob { state := 1, desc := 0x3FFFFFFFFFFC0 }
abbrev s13_2 : State := { jobbed 5 with nx := { (jobbed 5).nx with jobs := [(3, { (jobbed 5).job 3 with stepped := true })] } }
theorem test_met :
    (∃ (s : State) (k : Fin 64), (s.quiet = false) ∧ ((s.job k).state = 0)) ∧
    (∃ (s : State) (u : State) (k : Nat) (bs : List Byte), (readDesc s k = (u, .ok bs)) ∧ (let n := min 16384 (le bs 12 2); 2 ≤ n) ∧ (le bs 10 2 = u.cfg.moduleId)) ∧
    (∃ (s : State) (u : State) (k : Nat) (st : Nat) (d : Nat), (readDesc s k = (u, .fail st d))) ∧
    (∃ (s : State) (k : Fin 64), (s.quiet = false) ∧ ((s.job k).state = 1) ∧ ((s.job k).answered = false) ∧ ((s.job k).members ≠ []) ∧ ((s.job k).hello + 1000000 ≤ s.time)) ∧
    (∃ (s : State) (k : Fin 64), (s.quiet = false) ∧ ((s.job k).state = 1) ∧ ((s.job k).joinedAt + 30000000000 ≤ s.time)) ∧
    (∃ (s : State) (k : Fin 64), (s.quiet = false) ∧ ((s.job k).state ≠ 0) ∧ (s.rops = []) ∧ (s.nx.colls = [])) ∧
    (∃ (s : State) (k : Fin 64), (s.quiet = false) ∧ (leads s k = true) ∧ ((s.job k).state = 2) ∧ ((s.job k).pend = none) ∧ (others s k = [])) ∧
    (∃ (s : State) (k : Fin 64) (old : Nat) (t : Nat), (s.quiet = false) ∧ ((s.job k).oldKeySince = some (old, t)) ∧ (t + 100000000 ≤ s.time)) ∧
    (∃ (s : State) (p : NxPkt) (kind : KeyMsg) (g : BitVec 384) (ok : Bool) (k : Nat), (carries s p.port 0 = true) ∧ (p.dst.toNat = s.cfg.moduleId) ∧ (let u := countRx s p.port; (List.range 64).find? (fun k => ((u.job k).state = 1 || (u.job k).state = 2) && (u.job k).tag = p.jobTag.toNat && !(u.job k).members.isEmpty) = some k) ∧ (let u := countRx s p.port; (u.conn k p.src.toNat).state ≠ 2) ∧ (let u := countRx s p.port; framed u p = true)) ∧
    (∃ (s : State) (p : NxPkt) (g : BitVec 384) (k : Nat), ((s.job k).state = 1) ∧ (p.src.toNat = (s.job k).leader) ∧ ((s.job k).answered = true) ∧ (p.auth = true)) ∧
    (∃ (s : State) (k : Fin 64), (s.quiet = false) ∧ (timeJob s = some k.val) ∧ (leads s k = false) ∧ ((∀ t, (s.job k).asked = some t → t + 10000000 ≤ s.time))) ∧
    (∃ (s : State) (p : NxPkt) (u : State) (n : Nat) (k : Fin 64), (s.quiet = false) ∧ (received s p false = (u, some n)) ∧ (leads u n = true)) ∧
    (∃ (s : State) (p : NxPkt) (u : State) (n : Nat), (received s p false = (u, some n)) ∧ (timeJob u = some n) ∧ (leads u n = false) ∧ (p.src.toNat = (u.job n).leader)) ∧
    (∃ (s : State) (p : NxPkt) (u : State) (n : Nat), (received s p false = (u, some n)) ∧ (timeJob u = some n) ∧ (leads u n = false) ∧ (p.src.toNat = (u.job n).leader)) :=
  ⟨⟨({ withJob {} with time := 5 } : State), 3, by decide +kernel⟩,
   ⟨s2_1, ((readDesc s2_1 3).1 : State), 3, (readOf (readDesc s2_1 3).2 : List Byte), by decide +kernel⟩,
   ⟨s3_1, ((readDesc s3_1 3).1 : State), 3, 1, 0, by decide +kernel⟩,
   ⟨({ withJob { state := 1, leader := 5, members := [{ module := 5, digest := 1 }] } with time := 1000000 } : State), 3, by decide +kernel⟩,
   ⟨({ withJob { state := 1, leader := 5 } with time := 30000000000 } : State), 3, by decide +kernel⟩,
   ⟨(jobbed 7 : State), 3, by decide +kernel⟩,
   ⟨({ conned { state := 2 } with time := 6 } : State), 3, by decide +kernel⟩,
   ⟨({ withJob { state := 2, keys := [0, 1], keyId := 1, oldKeySince := some (0, 5) } with time := 100000005 } : State), 3, 0, 5, by decide +kernel⟩,
   ⟨(jobbed 7 : State), ({ pkt 0 0 0 [] with src := 6 } : NxPkt), (.hello : KeyMsg), 1, true, 3, by decide +kernel⟩,
   ⟨(withJob { state := 1, leader := 5, answered := true } : State), (pkt 0 0 0 [] : NxPkt), 1, 3, by decide +kernel⟩,
   ⟨(jobbed 5 : State), 3, by decide +kernel⟩,
   ⟨(jobbed 7 : State), (pkt 9 0 0 [] : NxPkt), (rxd (jobbed 7 : State) (pkt 9 0 0 [] : NxPkt) : State), 3, 0, by decide +kernel⟩,
   ⟨(jobbed 5 : State), (pkt 9 0 0 [] : NxPkt), (rxd (jobbed 5 : State) (pkt 9 0 0 [] : NxPkt) : State), 3, by decide +kernel⟩,
   ⟨s13_2, (pkt 9 0 0 [] : NxPkt), (rxd s13_2 (pkt 9 0 0 [] : NxPkt) : State), 3, by decide +kernel⟩⟩
end JobsAndKeys

namespace Collectives
abbrev c3_1 : Coll := { queue := 33, raw := (collCmd 1).raw, job := 3, eng := 0, axis := 0, group := 0, cseq := 0, opid := 40, rank := 1, members := [5, 7], sentHeads := 2, addends := [(2 * 65536, some 5)] }
abbrev s3_1 : State := { pairAxis with queues := [(33, { state := 1, cmd := some (collCmd 1) })], nx := { pairAxis.nx with colls := [c3_1] }, cols := [(0, { running := some 33 })], mem := [(16 * 2 ^ 32 + 8, 4)] }
abbrev u3_1 : State := (c3_1.at'.readSpan 2 s3_1 (c3_1.srcAddr 2) c3_1.width).1
abbrev p5_1 : NxPkt := pkt 0 4 1 (List.replicate 32 0)
abbrev c6_1 : Coll := { queue := 33, raw := (collCmd 1).raw, job := 3, eng := 0, axis := 0, group := 0, cseq := 0, opid := 40, rank := 1, members := [5, 7], sentHeads := 2, written := 1 }
theorem test_met :
    (∃ (i : Instr) (c : Cmd) (s : State) (q : Fin 4096) (op : Nat), ((i, op) ∈ [(Instr.allReduce q, 0), (.reduceScatter q, 1), (.allGather q, 2), (.broadcast q, 3), (.allToAll q, 4)]) ∧ (going s q 0x12 c) ∧ (slotLe c.raw 0x10 1 = op) ∧ (collOf s q = none) ∧ (let f := slotLe c.raw; let e := f 0x15 1; (s.col e).retired = false) ∧ (let k := queueSlice s q; (s.job k).state = 2) ∧ (let f := slotLe c.raw; let ms := groupOf s (f 0x11 1); let rank := rankOf s (f 0x11 1) s.cfg.moduleId; rank < ms.length) ∧ (let f := slotLe c.raw; let k := queueSlice s q; let ms := groupOf s (f 0x11 1); (∀ m ∈ ms, ∃ j ∈ (s.job k).members, j.module = m)) ∧ (let f := slotLe c.raw; let ms := groupOf s (f 0x11 1); (op = 3 → f 0x30 2 < ms.length)) ∧ (let f := slotLe c.raw; let k := queueSlice s q; let ms := groupOf s (f 0x11 1); (∀ m ∈ ms, m = s.cfg.moduleId ∨ (s.conn k m).state ≠ 2)) ∧ (s.nx.groups = []) ∧ (let f := slotLe c.raw; let e := f 0x15 1; (s.col e).running = none)) ∧
    (∃ (i : Instr) (c : Cmd) (s : State) (q : Fin 4096) (op : Nat), ((i, op) ∈ [(Instr.allReduce q, 0), (.reduceScatter q, 1), (.allGather q, 2), (.broadcast q, 3), (.allToAll q, 4)]) ∧ (going s q 0x12 c) ∧ (slotLe c.raw 0x10 1 = op) ∧ (collOf s q = none) ∧ ((s.col (slotLe c.raw 0x15 1)).retired = false) ∧ ((s.job (queueSlice s q)).state ≠ 2)) ∧
    (∃ (c : Coll) (s : State) (e : Fin 2) (n : Nat) (u : State) (bs : List Byte) (vs : List Nat) (v : State) (r : List Byte), (s.quiet = false) ∧ ((s.col e).running = some c.queue) ∧ (collOf s c.queue = some c) ∧ (c.op = 1) ∧ ((c.owned c.rank).1 ≤ n) ∧ (n < (c.owned c.rank).2) ∧ (c.isOut (n - (c.owned c.rank).1) = false) ∧ (c.n ≤ c.sentHeads) ∧ (c.at'.readSpan 2 s (c.srcAddr n) c.width = (u, .ok bs)) ∧ (c.addendsOf n (leNat bs) = some vs) ∧ ((c.addendsOf n 0).isSome = true) ∧ (let out := n - (c.owned c.rank).1; let res := reduceAll (c.f 0x12 1) (c.f 0x13 1) (c.rm n) vs; c.at'.writeSpan 2 u (c.outAddr out) (leBytes c.width res.1) = (v, .ok r))) ∧
    (∃ (i : Instr) (s : State) (p : NxPkt) (u : State) (v : State) (k : Nat) (opc : Nat) (kind : Nat), ((i, opc, kind) ∈ [(Instr.collData p, 0x10, 0), (.collHeader p, 0x11, 1), (.collAbandon p, 0x11, 2)]) ∧ (received s p false = (u, some k)) ∧ (takePsn u k p.src.toNat p.psn.toNat = (v, true)) ∧ (let e : EarlyPkt := { job := k, peer := p.src.toNat, opc := opc, opid := p.opid.toNat, addr := p.addr.toNat, aux := if opc = 0x11 then kind else p.aux.toNat, payload := p.payload }; deadPacket v e = false)) ∧
    (∃ (c : Coll) (x : Cmd) (s : State) (st : Nat) (d : Nat) (f : Option Nat), ((s.queue c.queue).cmd = some x) ∧ (x.result = none)) :=
  ⟨⟨(.allReduce 33 : Instr), (collCmd 0 : Cmd), ({ pairAxis with queues := [(33, { state := 1, cmd := some (collCmd 0 : Cmd) })], nx := { pairAxis.nx with jobs := [(3, { pairAxis.job 3 with members := [{ module := 5, digest := 1 }, { module := 7, digest := 2 }] })] } } : State), 33, 0, by decide +kernel⟩,
   ⟨(.allToAll 33 : Instr), (collCmd 4 : Cmd), (busy (collCmd 4 : Cmd) : State), 33, 4, by decide +kernel⟩,
   ⟨c3_1, s3_1, 0, 2, u3_1, (readOf (c3_1.at'.readSpan 2 s3_1 (c3_1.srcAddr 2) c3_1.width).2 : List Byte), ([5, 4] : List Nat), ((c3_1.at'.writeSpan 2 u3_1 (c3_1.outAddr 0) (leBytes c3_1.width 9)).1 : State), (readOf (c3_1.at'.writeSpan 2 u3_1 (c3_1.outAddr 0) (leBytes c3_1.width 9)).2 : List Byte), by decide +kernel, by decide +kernel, by decide +kernel, by decide +kernel, by decide +kernel, by decide +kernel, by decide +kernel, by decide +kernel, pair _ (by decide +kernel), by decide +kernel, by decide +kernel, pair _ (by decide +kernel)⟩,
   ⟨(.collHeader (pkt 0 4 1 (List.replicate 32 0)) : Instr), (jobbed 7 : State), p5_1, (rxd (jobbed 7 : State) p5_1 : State), (psnd (jobbed 7 : State) p5_1 : State), 3, 0x11, 1, by decide +kernel⟩,
   ⟨c6_1, (collCmd 1 : Cmd), ({ pairAxis with queues := [(33, { state := 1, cmd := some (collCmd 1 : Cmd) })], nx := { pairAxis.nx with colls := [c6_1] }, cols := [(0, { running := some 33 })] } : State), 5, 0, none, by decide +kernel⟩⟩
end Collectives

namespace PowerAndSurvey
abbrev noCommand (s : State) : Prop := ∀ p ∈ s.queues, p.2.cmd = none
theorem test_met :
    (∃ (s : State) (e : EngineUnit), (s.quiet = false) ∧ (engineRetired s e = true)) ∧
    (∃ (s : State) (e : Fin 48), (s.quiet = false) ∧ ((s.ce e).retired = false) ∧ (noCommand s)) ∧
    (∃ (s : State) (e : Fin 8), (s.quiet = false) ∧ ((s.cal e).retired = false) ∧ ((s.cal e).running = false)) ∧
    (∃ (s : State) (e : Fin 2), (s.quiet = false) ∧ ((s.col e).retired = false) ∧ (s.nx.colls = [])) ∧
    (∃ (s : State) (w : Fin 64), (s.quiet = false) ∧ (s.tel.walkersOut.getLsbD w = false)) ∧
    (∃ (s : State) (t : Fin 16), (s.quiet = false) ∧ (s.tel.tlbsOut.getLsbD t = false)) ∧
    (∃ (s : State) (n : Fin 144) (c : Nat), (s.quiet = false) ∧ (coreOf s n = some c) ∧ (coreIdle s c = true) ∧ ((s.core c).gated = false)) ∧
    (∃ (s : State) (e : Fin 48), (s.quiet = false) ∧ (ceActive s e = 0) ∧ ((s.ce e).retired = false)) ∧
    (∃ (s : State) (e : Fin 8), (s.quiet = false) ∧ ((s.cal e).running = false) ∧ ((s.cal e).retired = false)) ∧
    (∃ (s : State) (e : Fin 2), (s.quiet = false) ∧ ((s.col e).running = none) ∧ ((s.col e).retired = false)) ∧
    (∃ (s : State) (n : Fin 96) (temp : BitVec 8), (s.pins.porN = true) ∧ (s.lc ≠ 4) ∧ (let st := thermState (Tab.get ({} : Sensor) s.tel.therm n).state temp.toNat [95, 105, 125]; let u := { s with tel := { s.tel with therm := Tab.set {} s.tel.therm n { state := st, temp := temp.toNat } } }; (32 ≤ n.val ∨ st < 2 ∨ ivrLimit u (8 + n.val / 4) = ivrLimit s (8 + n.val / 4)))) ∧
    (∃ (s : State) (n : Fin 96) (temp : BitVec 8), (s.pins.porN = true) ∧ (s.lc ≠ 4) ∧ (n.val < 32) ∧ (let st := thermState (Tab.get ({} : Sensor) s.tel.therm n).state temp.toNat [95, 105, 125]; st = 2) ∧ (let st := thermState (Tab.get ({} : Sensor) s.tel.therm n).state temp.toNat [95, 105, 125]; let u := { s with tel := { s.tel with therm := Tab.set {} s.tel.therm n { state := st, temp := temp.toNat } } }; ivrLimit u (8 + n.val / 4) ≠ ivrLimit s (8 + n.val / 4)) ∧ (siteUp s (n.val / 4) = true) ∧ (s.fcu.safe = false)) ∧
    (∃ (old : _) (t : _), (old ≤ 3) ∧ (125 ≤ t)) ∧
    (∃ (old : _) (t : _), (old ≤ 3) ∧ (t < 92)) ∧
    (∃ (s : State) (n : Nat), (s.pins.thermTrip = false)) ∧
    (∃ (s : State) (d : Fin 48) (x : BitVec 8), (s.quiet = false) ∧ (s.glb.open_ = true) ∧ (measured s d = false)) ∧
    (∃ (s : State) (d : Fin 48) (x : BitVec 8), (s.quiet = false) ∧ (s.glb.open_ = true) ∧ (measured s d = true) ∧ (let t := Tab.get 0 s.fuses.target d; t ≤ x.toNat)) ∧
    (∃ (s : State) (d : Fin 48) (x : BitVec 8), (s.quiet = false) ∧ (s.glb.open_ = true) ∧ (measured s d = true) ∧ (let t := Tab.get 0 s.fuses.target d; x.toNat < t) ∧ (let m := Tab.get 0 s.fuses.margin d; m < 16)) ∧
    (∃ (s : State) (d : Fin 48) (x : BitVec 8), (s.quiet = false) ∧ (s.glb.open_ = true) ∧ (measured s d = true) ∧ (let t := Tab.get 0 s.fuses.target d; x.toNat < t) ∧ (let m := Tab.get 0 s.fuses.margin d; 16 ≤ m) ∧ ((d.val < 8 ∨ 15 < d.val ∧ d.val < 33 ∨ 42 < d.val))) ∧
    (∃ (s : State) (e : EngineUnit), (surveyRuns s = true) ∧ (underTest s (surveyUnit (.engine e)) = false) ∧ (engineIdle s e = true) ∧ (engineRetired s e = false)) ∧
    (∃ (s : State) (n : Fin 144) (c : Nat), (surveyRuns s = true) ∧ (underTest s (surveyUnit (.core n)) = false) ∧ (coreOf s n = some c) ∧ (coreIdle s c = true)) ∧
    (∃ (s : State) (k : SurveyKind) (n : Nat), (surveyRuns s = true) ∧ (testHolds s k = true) ∧ (s.tel.testing = [(surveyUnit k, n)]) ∧ (n + 1 < segments k)) ∧
    (∃ (s : State) (k : SurveyKind), (surveyRuns s = true) ∧ (underTest s (surveyUnit k) = true) ∧ (testHolds s k = false)) ∧
    (∃ (s : State) (n : Fin 7) (r : Fin 192), (surveyRuns s = true) ∧ (underTest s (surveyUnit (.link n r)) = true) ∧ (s.tel.surveyFail.getLsbD 63 = false)) ∧
    (∃ (s : State) (n : Fin 7) (r : Fin 192), (surveyRuns s = true) ∧ (let u := surveyUnit (.link n r); underTest s u = false) ∧ (let u := surveyUnit (.link n r); u ∉ s.tel.late)) ∧
    (∃ (s : State), (s.pins.porN = true) ∧ (s.lc ≠ 4)) ∧
    (∃ (s : State), (s.pins.porN = true) ∧ (s.fcu.safe = true) ∧ (s.fcu.squelched = false) ∧ (s.fcu.safeTime + 100000 ≤ s.time)) ∧
    (∃ (s : State) (v : BitVec 64), (s.pins.porN = true) ∧ (s.lc ≠ 4)) ∧
    (∃ (s : State) (i : Fin 9), (s.pins.porN = true) ∧ ((Tab.get ({} : Pd) s.tel.pd (if i.val = 8 then 32 else 24 + i.val)).state = 2)) ∧
    (∃ (i : Instr) (s : State), (s.fcu.safe = true) ∧ (i ∈ [Instr.regulatorPeriod, .invComplete, .llaEnable, .nocCntClear, .unfence, .applyDone, .flr])) :=
  ⟨⟨({ mapped with cals := [(7, { retired := true })] } : State), (.cal 7 : EngineUnit), by decide +kernel⟩,
   ⟨mapped, 47, by decide +kernel⟩,
   ⟨mapped, 7, by decide +kernel⟩,
   ⟨mapped, 1, by decide +kernel⟩,
   ⟨mapped, 63, by decide +kernel⟩,
   ⟨mapped, 15, by decide +kernel⟩,
   ⟨(surveyed [] : State), 5, 5, by decide +kernel⟩,
   ⟨mapped, 47, by decide +kernel⟩,
   ⟨mapped, 7, by decide +kernel⟩,
   ⟨mapped, 1, by decide +kernel⟩,
   ⟨mapped, 95, 125, by decide +kernel⟩,
   ⟨({ mapped with chart := { state := 5, epoch := 1, applied := some { chart with ivr := List.replicate 48 500 } } } : State), 31, 105, by decide +kernel⟩,
   ⟨3, 125, by decide +kernel⟩,
   ⟨3, 91, by decide +kernel⟩,
   ⟨mapped, 95, by decide +kernel⟩,
   ⟨({ mapped with fuses := fusesAtReset } : State), 47, 5, by decide +kernel⟩,
   ⟨({ mapped with fuses := fusesAtReset, tel := { pd := [(47, { state := 2 })] } } : State), 47, 12, by decide +kernel⟩,
   ⟨({ mapped with fuses := fusesAtReset, tel := { pd := [(47, { state := 2 })] } } : State), 47, 11, by decide +kernel⟩,
   ⟨({ mapped with fuses := { fusesAtReset with margin := [(47, 16)] }, tel := { pd := [(47, { state := 2 })] } } : State), 47, 11, by decide +kernel⟩,
   ⟨(surveyed [] : State), (.col 1 : EngineUnit), by decide +kernel⟩,
   ⟨(surveyed [] : State), 5, 5, by decide +kernel⟩,
   ⟨(surveyed [(surveyUnit (.bank 5 31), 94)] : State), (.bank 5 31 : SurveyKind), 94, by decide +kernel⟩,
   ⟨(surveyed [(surveyUnit (.core 5), 9)] : State), (.core 5 : SurveyKind), by decide +kernel⟩,
   ⟨(surveyed [(surveyUnit (.link 6 191), 0)] : State), 6, 191, by decide +kernel⟩,
   ⟨(surveyed [] : State), 6, 191, by decide +kernel⟩,
   ⟨mapped, by decide +kernel⟩,
   ⟨({ mapped with fcu := { safe := true, safeTime := 5 }, time := 100005, nx := { ports := [(2, { state := 2 })] } } : State), by decide +kernel⟩,
   ⟨mapped, 0xFFFFFFFFFFFFFFFF, by decide +kernel⟩,
   ⟨({ mapped with tel := { pd := [(32, { state := 2 })] } } : State), 8, by decide +kernel⟩,
   ⟨(.flr : Instr), ({ mapped with fcu := { safe := true } } : State), by decide +kernel⟩⟩
end PowerAndSurvey

namespace HostLink
abbrev atWork (s : State) : Prop := s.pins.porN = true ∧ s.pcie.dlUp = true
theorem test_met :
    (∃ (s : State), (atWork s) ∧ ((∀ p ∈ s.queues, p.2.cmd = none))) ∧
    (∃ (s : State), (s.quiet = false) ∧ (s.pcie.dlUp = true) ∧ (s.pcie.flrBusy = false) ∧ ((∀ p ∈ s.queues, p.2.cmd = none))) ∧
    (∃ (s : State), (s.quiet = false) ∧ (s.pcie.flrBusy = true)) ∧
    (∃ (s : State) (v : Fin 7) (w : Fin 17), (endpointOn s = true) ∧ (s.pcie.dlUp = false) ∧ (1 ≤ v.val) ∧ (w.val ∈ [1, 2, 4, 8, 16]) ∧ (s.fcu.safe = false)) ∧
    (∃ (s : State), (atWork s) ∧ (s.pcie.retraining = false)) ∧
    (∃ (s : State), (atWork s) ∧ (s.pcie.retraining = true) ∧ (s.pcie.retrainLong = false) ∧ (s.pcie.retrainAt + 2000000 ≤ s.time)) ∧
    (∃ (s : State), (atWork s) ∧ (s.pcie.retraining = true) ∧ (s.fcu.safe = false)) ∧
    (∃ (s : State), (atWork s) ∧ (s.pcie.l1Enable = true) ∧ (s.pcie.pmState ≤ 1) ∧ (s.pcie.retraining = false)) ∧
    (∃ (s : State), (atWork s) ∧ (s.pcie.l12Enable = true) ∧ (s.pcie.pmState = 2)) ∧
    (∃ (s : State), (atWork s) ∧ (2 ≤ s.pcie.pmState) ∧ (s.fcu.safe = false)) ∧
    (∃ (s : State), (s.pcie.pba = 0)) ∧
    (∃ (s : State) (v : Nat), (v < 2048) ∧ (s.quiet = false) ∧ (s.pcie.msixEnable = true) ∧ (msixWaits s v = false) ∧ (s.pcie.pba.getLsbD v = true)) ∧
    (∃ (s : State), (atWork s) ∧ (s.pcie.pmState ≤ 1) ∧ (s.pcie.l0pMin ≤ s.pcie.width / 2) ∧ (1 ≤ s.pcie.width / 2)) ∧
    (∃ (s : State), (atWork s) ∧ (s.pcie.pmState = 1)) ∧
    (∃ (s : State), (s.quiet = false) ∧ (s.pcie.dlUp = true) ∧ (s.pcie.flrBusy = false) ∧ (s.pcie.pmState ≤ 1)) ∧
    (∃ (s : State) (n : Fin 5), (s.quiet = false) ∧ (s.hostUp = true) ∧ (s.mgmt.spdmDoe ≠ 0) ∧ (n.val ∉ s.pcie.ideKeys)) :=
  ⟨⟨({ hosted with chart := { hosted.chart with session := some .host } } : State), by decide +kernel⟩,
   ⟨hosted, by decide +kernel⟩,
   ⟨({ hosted with pcie := { hosted.pcie with flrBusy := true } } : State), by decide +kernel⟩,
   ⟨({ mapped with pcie := {} } : State), 6, 16, by decide +kernel⟩,
   ⟨({ hosted with time := 7 } : State), by decide +kernel⟩,
   ⟨({ hosted with pcie := { hosted.pcie with retraining := true, retrainAt := 7 }, time := 2000007 } : State), by decide +kernel⟩,
   ⟨({ hosted with pcie := { hosted.pcie with retraining := true, retrainAt := 7 } } : State), by decide +kernel⟩,
   ⟨({ hosted with pcie := { hosted.pcie with l1Enable := true } } : State), by decide +kernel⟩,
   ⟨({ hosted with pcie := { hosted.pcie with l12Enable := true, pmState := 2 } } : State), by decide +kernel⟩,
   ⟨({ hosted with pcie := { hosted.pcie with width := 8, pmState := 3 } } : State), by decide +kernel⟩,
   ⟨({ hosted with time := 7 } : State), by decide +kernel⟩,
   ⟨({ hosted with pcie := { hosted.pcie with msixEnable := true, pba := 0x20, msix := [(5, { mask := false })] } } : State), 5, by decide +kernel⟩,
   ⟨({ hosted with pcie := { hosted.pcie with width := 4 } } : State), by decide +kernel⟩,
   ⟨({ hosted with pcie := { hosted.pcie with width := 4, pmState := 1 } } : State), by decide +kernel⟩,
   ⟨hosted, by decide +kernel⟩,
   ⟨({ hosted with mgmt := { spdmDoe := 1 } } : State), 4, by decide +kernel⟩⟩
end HostLink

namespace HostAccess
abbrev open_ (s : State) (id : Nat) (o : ROp) : Prop := s.rops = [o] ∧ o.id = id ∧ o.done = none ∧ toHost o = true ∧ o.keep = true
abbrev at_ (s : State) (off : BitVec 41) : Nat := bits s.pcie.bar4Win 49 30 * 2 ^ 30 + off.toNat
abbrev o5_3 : ROp := { hop 2 with len := 4, signed := true }
abbrev o6_1 : ROp := { hop 4 with after := 0 }
theorem test_met :
    (∃ (s : State) (off : BitVec 41) (len : BitVec 13), (s.pins.porN = true) ∧ (s.pcie.dlUp = true) ∧ (s.fcu.safe = false) ∧ (s.hostUp = true) ∧ (s.pcie.pmState ≤ 1) ∧ (off.toNat + len.toNat ≤ 2 ^ s.pcie.bar4Log2) ∧ (1 ≤ len.toNat) ∧ (let pa := at_ s off; pa % 128 + len.toNat ≤ 128)) ∧
    (∃ (s : State) (off : BitVec 41) (len : BitVec 13), (s.pins.porN = true) ∧ (s.pcie.dlUp = true) ∧ ((s.fcu.safe = true ∨ s.hostUp = false)) ∧ (off.toNat + len.toNat ≤ 2 ^ s.pcie.bar4Log2)) ∧
    (∃ (s : State) (off : BitVec 41) (data : List (BitVec 8)) (r : Bool), (s.quiet = false) ∧ (s.hostUp = true) ∧ (s.pcie.pmState ≤ 1) ∧ (1 ≤ data.length) ∧ (off.toNat + data.length ≤ 2 ^ s.pcie.bar4Log2) ∧ (let pa := at_ s off; pa % 128 + data.length ≤ 128) ∧ (let pa := at_ s off; let line := pa / 128 * 128; s.cfg.locate line ≠ .unmapped) ∧ (let pa := at_ s off; feltBusyRange s pa data.length = false)) ∧
    (∃ (s : State) (off : BitVec 41) (data : List (BitVec 8)) (r : Bool), (s.quiet = false) ∧ (s.hostUp = true) ∧ (s.pcie.pmState ≤ 1) ∧ (1 ≤ data.length) ∧ (off.toNat + data.length ≤ 2 ^ s.pcie.bar4Log2) ∧ (let pa := at_ s off; pa % 128 + data.length ≤ 128) ∧ (let pa := at_ s off; let line := pa / 128 * 128; s.cfg.locate line = .unmapped)) ∧
    (∃ (s : State) (off : BitVec 41) (data : List (BitVec 8)) (r : Bool), (s.quiet = false) ∧ (s.hostUp = true) ∧ (s.pcie.pmState ≤ 1) ∧ (1 ≤ data.length) ∧ (off.toNat + data.length ≤ 2 ^ s.pcie.bar4Log2) ∧ (let pa := at_ s off; pa % 128 + data.length ≤ 128) ∧ (let pa := at_ s off; let line := pa / 128 * 128; s.cfg.locate line ≠ .unmapped) ∧ (let pa := at_ s off; feltBusyRange s pa data.length = true)) ∧
    (∃ (s : State) (v : BitVec 64) (p : Path), (s.quiet = false) ∧ (pathUp s p = true) ∧ (p ≠ .smbus) ∧ (p ≠ .testPort)) ∧
    (∃ (s : State) (v : BitVec 64) (p : Path), (s.quiet = false) ∧ (pathUp s p = true) ∧ (p ≠ .smbus) ∧ (p ≠ .testPort)) ∧
    (∃ (o : ROp) (s : State) (id : Nat) (data : BitVec 1024), (s.quiet = false) ∧ (s.pcie.dlUp = true) ∧ (s.pcie.retraining = false) ∧ (s.pcie.pmState ≤ 1) ∧ (open_ s id o) ∧ (o.kind = 0)) ∧
    (∃ (o : ROp) (s : State) (id : Nat) (data : BitVec 1024), (s.quiet = false) ∧ (s.pcie.dlUp = true) ∧ (s.pcie.retraining = false) ∧ (s.pcie.pmState ≤ 1) ∧ (open_ s id o) ∧ (o.kind = 2) ∧ (o.len = 8) ∧ (o.signed = false)) ∧
    (∃ (o : ROp) (s : State) (id : Nat) (data : BitVec 1024), (s.quiet = false) ∧ (s.pcie.dlUp = true) ∧ (s.pcie.retraining = false) ∧ (s.pcie.pmState ≤ 1) ∧ (open_ s id o) ∧ (o.kind = 2) ∧ (o.len = 4) ∧ (o.signed = true)) ∧
    (∃ (o : ROp) (s : State) (id : Nat) (page : Nat) (bus : Nat) (p : Option Nat) (data : BitVec 1024), (s.quiet = false) ∧ (s.pcie.dlUp = true) ∧ (s.pcie.retraining = false) ∧ (s.pcie.pmState ≤ 1) ∧ (s.pcie.d3hot = false) ∧ (s.pcie.flrBusy = false) ∧ (open_ s id o) ∧ (o.kind = 4) ∧ (o.after = 0) ∧ (o.target = .host bus p) ∧ (page = bits data 63 12)) ∧
    (∃ (o : ROp) (s : State) (id : Nat), (s.quiet = false) ∧ (open_ s id o) ∧ (o.sentAt + 50000000 ≤ s.time)) ∧
    (∃ (s : State) (w : Fin 16) (page : BitVec 52), (s.quiet = false) ∧ (s.rops = [])) :=
  ⟨⟨hosted, 0x3FFFFFFC, 4, by decide +kernel⟩,
   ⟨({ hosted with pcie := { hosted.pcie with d3hot := true } } : State), 0x3FFFFFFC, 4, by decide +kernel⟩,
   ⟨hosted, 0x1003, ([1, 2, 3] : List (BitVec 8)), true, by decide +kernel⟩,
   ⟨({ hosted with pcie := { hosted.pcie with bar4Win := 0x40000000 } } : State), 0x1003, ([1, 2, 3] : List (BitVec 8)), true, by decide +kernel⟩,
   ⟨({ hosted with glb := { hosted.glb with felt := [(0, { image := 0x1000, len := 256, state := 1 })] } } : State), 0x1003, ([1, 2, 3] : List (BitVec 8)), true, by decide +kernel⟩,
   ⟨({ hosted with mgmt := { sessions := [{ id := 1, anchor := 0 }] } } : State), 0x0003FFFFFFFFFFFF, (.mgmt 1 : Path), by decide +kernel⟩,
   ⟨({ hosted with mgmt := { sessions := [{ id := 1, anchor := 0 }] } } : State), 0x1FFC0000000, (.bar0 : Path), by decide +kernel⟩,
   ⟨(hop 0 : ROp), (hostRop (hop 0 : ROp) : State), 40, 0x80000000, by decide +kernel⟩,
   ⟨({ hop 2 with len := 8 } : ROp), (hostRop ({ hop 2 with len := 8 } : ROp) : State), 40, 0x80000000, by decide +kernel⟩,
   ⟨o5_3, (hostRop o5_3 : State), 40, 0x80000000, by decide +kernel⟩,
   ⟨o6_1, (hostRop o6_1 : State), 40, 77, 0x5008, none, (77 * 4096 : BitVec 1024), by decide +kernel⟩,
   ⟨(hop 0 : ROp), ({ hostRop (hop 0 : ROp) with time := 50000000 } : State), 40, by decide +kernel⟩,
   ⟨({ hosted with pcie := { hosted.pcie with ats := [{ window := 15, page := 9, translated := 1 }] } } : State), 15, 9, by decide +kernel⟩⟩
end HostAccess

namespace SliceCommands
abbrev shared (s : State) (n p : Nat) : Prop := ∃ x ∈ s.slices, x.1 ≠ n ∧ 1 ≤ x.2.state ∧ x.2.state ≤ 4 ∧ x.2.pasid = p
abbrev s3_1 : State := sliced { state := 1, stage := .bindInv, pasid := 9, gen := 0xFFFFFFFF }
abbrev s9_1 : State := { sliced { state := 2, pasid := 9, mirror := 0x1001, mirrorAt := 5 } with time := 10005 }
abbrev s9_2 : State := { sliced { state := 2, pasid := 9, mirror := 0x4000000B, mirrorAt := 5 } with time := 10240005 }
theorem test_met :
    (∃ (s : State) (n : Fin 64) (p : BitVec 20), (s.quiet = false) ∧ (s.chart.state ≠ 4) ∧ (s.chart.reload = false) ∧ ((s.slice n).state = 6)) ∧
    (∃ (s : State) (n : Fin 64) (p : BitVec 20), (s.quiet = false) ∧ (s.chart.state ≠ 4) ∧ (s.chart.reload = false) ∧ (1 ≤ (s.slice n).state ∧ (s.slice n).state ≤ 5)) ∧
    (∃ (s : State) (n : Fin 64) (p : BitVec 20), (s.quiet = false) ∧ (s.chart.state ≠ 4) ∧ (s.chart.reload = false) ∧ ((s.slice n).state = 0 ∧ shared s n p.toNat)) ∧
    (∃ (s : State) (n : Fin 64) (p : BitVec 20), (s.quiet = false) ∧ (s.chart.state ≠ 4) ∧ (s.chart.reload = false) ∧ ((s.slice n).state = 0 ∧ ¬ shared s n p.toNat ∧ bit (s.ctx n).root 0 = false)) ∧
    (∃ (s : State) (n : Fin 64) (p : BitVec 20), (s.quiet = false) ∧ (s.chart.state ≠ 4) ∧ (s.chart.reload = false) ∧ ((s.slice n).state = 0 ∧ ¬ shared s n p.toNat ∧ bit (s.ctx n).root 0 = true ∧ p = 0)) ∧
    (∃ (s : State) (n : Fin 64) (p : BitVec 20), (s.quiet = false) ∧ (s.chart.state ≠ 4) ∧ (s.chart.reload = false) ∧ ((s.slice n).state = 0 ∧ ¬ shared s n p.toNat ∧ bit (s.ctx n).root 0 = true ∧ p ≠ 0)) ∧
    (∃ (s : State) (n : Fin 64) (p : BitVec 20), (s.quiet = false) ∧ (s.chart.state = 4)) ∧
    (∃ (s : State) (u : State) (n : Fin 64), (s.quiet = false) ∧ ((s.slice n).state = 1) ∧ (invalidateCtx s n = some u) ∧ ((u.slice n).fenceAfterBind = false)) ∧
    (∃ (i : Instr) (s : State) (n : Fin 64) (op : Nat) (st : Nat), ((i, op, st) ∈ [(Instr.sliceReset n 1, 2, 3), (.unbind n 1, 3, 4)]) ∧ (s.quiet = false) ∧ ((s.slice n).state = 2) ∧ ((∀ q ∈ queuesOfSlice s n, (s.queue q).inProgress = false)) ∧ ((∀ c ∈ coresOfSlice s n, customerDie s (c / 24) = false))) ∧
    (∃ (i : Instr) (s : State) (n : Fin 64) (op : Nat) (st : Nat), ((i, op, st) ∈ [(Instr.sliceReset n 1, 2, 3), (.unbind n 1, 3, 4)]) ∧ (s.quiet = false) ∧ ((s.slice n).state = 2) ∧ ((∀ q ∈ queuesOfSlice s n, (s.queue q).inProgress = false)) ∧ ((∀ c ∈ coresOfSlice s n, customerDie s (c / 24) = false))) ∧
    (∃ (i : Instr) (s : State) (n : Fin 64) (m : BitVec 2) (op : Nat), ((i, op) ∈ [(Instr.sliceReset n m, 2), (.unbind n m, 3)]) ∧ (s.quiet = false) ∧ (m ≠ 3) ∧ ((s.slice n).state = 6)) ∧
    (∃ (i : Instr) (s : State) (n : Fin 64) (m : BitVec 2) (op : Nat), ((i, op) ∈ [(Instr.sliceReset n m, 2), (.unbind n m, 3)]) ∧ (s.quiet = false) ∧ (m ≠ 3) ∧ ((s.slice n).state < 2 ∨ (s.slice n).state = 5)) ∧
    (∃ (s : State) (n : Fin 64), (s.quiet = false) ∧ ((s.slice n).stage = .drain) ∧ (sliceCores s n + sliceCommands s n + sliceRequests s n = 0) ∧ ((∀ c ∈ coresOfSlice s n, customerDie s (c / 24) = false))) ∧
    (∃ (s : State) (n : Fin 64), (s.quiet = false) ∧ ((s.slice n).stage = .coreReset) ∧ ((∀ c ∈ coresOfSlice s n, (s.core c).st ≠ .reset ∨ coreHole s c = true)) ∧ ((s.slice n).state = 3 ∧ (s.slice n).unbindNext = false)) ∧
    (∃ (s : State) (n : Fin 64), (s.quiet = false) ∧ ((s.slice n).stage = .coreReset) ∧ ((∀ c ∈ coresOfSlice s n, (s.core c).st ≠ .reset ∨ coreHole s c = true)) ∧ ((s.slice n).state = 4 ∧ (s.job n).state = 0 ∧ (invalidateCtx s n).isSome = true)) ∧
    (∃ (s : State) (n : Fin 64), (s.quiet = false) ∧ ((s.slice n).state = 5) ∧ ((s.slice n).stage = .scrub) ∧ ((s.slice n).scrubsLeft = 0)) ∧
    (∃ (s : State) (n : Fin 64), (s.quiet = false) ∧ ((s.slice n).state = 5) ∧ ((s.slice n).stage = .scrub) ∧ ((s.slice n).scrubsLeft = 0)) ∧
    (∃ (s : State) (u : State) (n : Fin 64) (r : List Byte), (s.quiet = false) ∧ (let p := bits (s.slice n).mirror 3 0; p ≠ 0) ∧ (let p := bits (s.slice n).mirror 3 0; (s.slice n).mirrorAt + 10000 * 2 ^ (p - 1) ≤ s.time) ∧ (let e : Eng := { tag := 0x68000 + n, slice := n, port := 8, reg := n, ini := 999 }; e.writeSpan 4 s (bits (s.slice n).mirror 56 8 * 256) (mirrorBytes s n) = (u, .ok r))) ∧
    (∃ (s : State) (u : State) (n : Fin 64) (r : List Byte), (s.quiet = false) ∧ (let p := bits (s.slice n).mirror 3 0; p ≠ 0) ∧ (let p := bits (s.slice n).mirror 3 0; (s.slice n).mirrorAt + 10000 * 2 ^ (p - 1) ≤ s.time) ∧ (let e : Eng := { tag := 0x68000 + n, slice := n, port := 8, reg := n, ini := 999 }; (match e.writeSpan 4 s (bits (s.slice n).mirror 56 8 * 256) (mirrorBytes s n) with | (_, .fail _ _) => true | _ => false) = true)) ∧
    (∃ (s : State) (n : Fin 64) (w : BitVec 64) (ws : List (BitVec 64)) (r : SliceRec), (s.quiet = false) ∧ ((s.slice n).ctlPend = w :: ws) ∧ (sliceRec s n = some r)) ∧
    (∃ (s : State) (n : Fin 64) (w : BitVec 64) (ws : List (BitVec 64)) (r : SliceRec), (s.quiet = false) ∧ ((s.slice n).ctlPend = w :: ws) ∧ (sliceRec s n = some r)) :=
  ⟨⟨(bindable {} : State), 3, 9, by decide +kernel⟩,
   ⟨(bindable { state := 2, pasid := 6 } : State), 3, 9, by decide +kernel⟩,
   ⟨(bindable { state := 0 } : State), 3, 5, by decide +kernel⟩,
   ⟨({ bindable { state := 0 } with gtu := {} } : State), 3, 9, by decide +kernel⟩,
   ⟨(bindable { state := 0 } : State), 3, 0, by decide +kernel⟩,
   ⟨(bindable { state := 0 } : State), 3, 0xFFFFF, by decide +kernel⟩,
   ⟨({ bindable { state := 0 } with chart := { work.chart with state := 4 } } : State), 3, 9, by decide +kernel⟩,
   ⟨s3_1, ((invalidateCtx s3_1 3).getD s3_1 : State), 3, by decide +kernel⟩,
   ⟨(.sliceReset 3 1 : Instr), mapped, 3, 2, 3, by decide +kernel⟩,
   ⟨(.unbind 3 1 : Instr), ({ mapped with cores := [(5, { st := .running })], queues := [(33, { state := 1 })] } : State), 3, 3, 4, by decide +kernel⟩,
   ⟨(.sliceReset 3 2 : Instr), (sliced {} : State), 3, 2, 2, by decide +kernel⟩,
   ⟨(.unbind 3 0 : Instr), (sliced { state := 5, stage := .scrub } : State), 3, 0, 3, by decide +kernel⟩,
   ⟨({ sliced { state := 3, stage := .drain } with cores := (List.range 144).map (fun c => (c, { st := .halted })) } : State), 3, by decide +kernel⟩,
   ⟨({ sliced { state := 3, stage := .coreReset, resets := 0xFFFFFFFF } with cores := (List.range 144).map (fun c => (c, { st := .halted })) } : State), 3, by decide +kernel⟩,
   ⟨({ sliced { state := 4, stage := .coreReset, mirror := 1 } with cores := (List.range 144).map (fun c => (c, { st := .halted })), queues := [(33, { state := 1 })], mem := [(0x80, 7)] } : State), 3, by decide +kernel⟩,
   ⟨(sliced { state := 5, stage := .scrub, scrubFailed := true } : State), 3, by decide +kernel⟩,
   ⟨(sliced { state := 5, stage := .scrub, resets := 0xFFFFFFFF } : State), 3, by decide +kernel⟩,
   ⟨s9_1, ((({ tag := 0x68003, slice := 3, port := 8, reg := 3, ini := 999 } : Eng).writeSpan 4 s9_1 0x1000 (mirrorBytes s9_1 3)).1 : State), 3, (readOf (({ tag := 0x68003, slice := 3, port := 8, reg := 3, ini := 999 } : Eng).writeSpan 4 s9_1 0x1000 (mirrorBytes s9_1 3)).2 : List Byte), by decide +kernel⟩,
   ⟨s9_2, ((({ tag := 0x68003, slice := 3, port := 8, reg := 3, ini := 999 } : Eng).writeSpan 4 s9_2 0x40000000 (mirrorBytes s9_2 3)).1 : State), 3, ([] : List Byte), by decide +kernel⟩,
   ⟨({ sliced { state := 2, ctlPend := [0xABCD0000000000F1, 7] } with queues := [(47, { state := 0 })] } : State), 3, 0xABCD0000000000F1, ([7] : List (BitVec 64)), (chart.slices.headD { slice := 0, squash := false, share := 0, qFirst := 0, qCount := 0, regionMask := 0, cores := 0 } : SliceRec), by decide +kernel⟩,
   ⟨(sliced { state := 2, ctlPend := [0xABCD000000000101] } : State), 3, 0xABCD000000000101, ([] : List (BitVec 64)), (chart.slices.headD { slice := 0, squash := false, share := 0, qFirst := 0, qCount := 0, regionMask := 0, cores := 0 } : SliceRec), by decide +kernel⟩⟩
end SliceCommands

namespace SecurityCommands
abbrev besides (a : DebugAcc) : Bool := match a with | .sideband _ _ _ => false | _ => true
abbrev s6_1 : State := { mapped with wmk := { measBusy := true, measAddr := 0x40, measLen := 256, measSlot := 2 }, mem := [(0x41, 9)] }
abbrev s14_1 : State := { mapped with slices := [], fuses := maker.fuses, mem := [(0x40, 1)] }
theorem test_met :
    (∃ (s : State) (p : Path) (code : BitVec 8) (t : BitVec 3) (u : Nat), (pathUp s p = true) ∧ (p ≠ .smbus) ∧ (s.lc ≠ 4) ∧ (isRetry s code.toNat t.toNat = false) ∧ (unitIndex code.toNat = some u)) ∧
    (∃ (s : State) (p : Path) (code : BitVec 8) (t : BitVec 3) (u : Nat), (pathUp s p = true) ∧ (p ≠ .smbus) ∧ (s.lc ≠ 4) ∧ (isRetry s code.toNat t.toNat = false) ∧ (unitIndex code.toNat = some u)) ∧
    (∃ (s : State) (p : Path) (code : BitVec 8) (t : BitVec 3) (u : Nat), (pathUp s p = true) ∧ (p ≠ .smbus) ∧ (s.lc ≠ 4) ∧ (isRetry s code.toNat t.toNat = false) ∧ (unitIndex code.toNat = some u)) ∧
    (∃ (s : State) (u : Nat) (t : Nat), (s.pins.porN = true) ∧ (s.wmk.busy = some (u, t)) ∧ (s.wmk.busyAt + 720000 ≤ s.time) ∧ (u < 16 ∨ u = 17 ∧ t < 3 ∨ u = 16 ∧ (t = 1 ∨ t = 3))) ∧
    (∃ (s : State) (u : Nat) (t : Nat), (s.pins.porN = true) ∧ (s.wmk.busy = some (u, t)) ∧ (s.wmk.busyAt + 720000 ≤ s.time) ∧ (u = 16 ∧ t = 2)) ∧
    (∃ (s : State) (u : Nat) (t : Nat), (s.pins.porN = true) ∧ (s.wmk.busy = some (u, t)) ∧ (s.wmk.busyAt + 720000 ≤ s.time) ∧ (u = 16 ∧ t = 4)) ∧
    (∃ (s : State) (u : Nat) (t : Nat) (b : Fin 64), (s.pins.porN = true) ∧ (s.wmk.busy = some (u, t)) ∧ (¬ (u = 16 ∧ t = 2)) ∧ ((stripeConst u (t - 1)).getLsbD b = true) ∧ ((s.fuses.stripe u (t - 1)).getLsbD b = false) ∧ (s.wmk.busyAt + 720000 ≤ s.time)) ∧
    (∃ (s : State) (p : Path), (wmkWrite s p = true) ∧ (s.lc = 1) ∧ (s.wmk.busy = none) ∧ (freeOwner s ≠ none ∧ activeOwner s = none)) ∧
    (∃ (s : State) (p : Path), (wmkWrite s p = true) ∧ (s.lc = 1) ∧ (s.wmk.busy = none) ∧ (freeOwner s = some 1 ∧ activeOwner s = some 0)) ∧
    (∃ (s : State) (p : Path), (wmkWrite s p = true) ∧ (s.lc = 1) ∧ (s.wmk.busy = none) ∧ (freeOwner s = none)) ∧
    (∃ (s : State) (p : Path) (len : BitVec 32) (k : BitVec 3), (pathUp s p = true) ∧ (p ≠ .smbus) ∧ (p ≠ .testPort) ∧ (s.lc < 4) ∧ (s.wmk.measBusy = false)) ∧
    (∃ (s : State) (p : Path) (len : BitVec 32) (k : BitVec 3), (pathUp s p = true) ∧ (p ≠ .smbus) ∧ (p ≠ .testPort) ∧ (s.lc < 4) ∧ (s.wmk.measBusy = false)) ∧
    (∃ (s : State) (u : State) (bs : List Byte), (s.quiet = false) ∧ (s.wmk.measBusy = true) ∧ (measurable s (bits s.wmk.measAddr 49 0) s.wmk.measLen = true) ∧ (({ tag := 0x66000 } : Hub).read (s.wmk.measLen / 128 + 2) s (bits s.wmk.measAddr 49 0) s.wmk.measLen = (u, .ok bs))) ∧
    (∃ (s : State), (s.quiet = false) ∧ (s.wmk.measBusy = true) ∧ (measurable s (bits s.wmk.measAddr 49 0) s.wmk.measLen = false)) ∧
    (∃ (s : State) (p : Path), (wmkWrite s p = true) ∧ (tokenLe s 0 4 ≠ 0x4344475A ∧ tokenCheck s ≠ 0)) ∧
    (∃ (s : State) (p : Path), (wmkWrite s p = true) ∧ (tokenLe s 0 4 = 0x4344475A)) ∧
    (∃ (s : State), (tokenFormat s = false)) ∧
    (∃ (s : State), (tokenFormat s = true ∧ tokenLe s 8 8 ≠ s.fuses.serial.toNat)) ∧
    (∃ (s : State), (tokenFormat s = true ∧ tokenLe s 8 8 = s.fuses.serial.toNat ∧ s.wmk.nonceAt = none)) ∧
    (∃ (s : State), (tokenFormat s = true ∧ tokenLe s 8 8 = s.fuses.serial.toNat ∧ tokenLe s 0x10 32 ≠ s.wmk.nonce.toNat)) ∧
    (∃ (s : State) (t : Nat), (s.pins.porN = true) ∧ (s.wmk.nonceAt = some t ∧ t + 600000000000 ≤ s.time)) ∧
    (∃ (s : State) (t : Nat), (s.pins.porN = true) ∧ (s.wmk.dbgUntil = some t ∧ t ≤ s.time)) ∧
    (∃ (s : State) (a : DebugAcc), (s.pins.porN = true) ∧ ((s.fcu.safe = true ∨ 4 ≤ s.lc ∨ s.lc = 2 ∧ s.wmk.rights = 0 ∧ s.wmk.dbgSites = 0)) ∧ (besides a = true)) ∧
    (∃ (s : State) (a : DebugAcc), (s.pins.porN = true) ∧ ((s.fcu.safe = true ∨ 4 ≤ s.lc ∨ s.lc = 2 ∧ s.wmk.rights = 0 ∧ s.wmk.dbgSites = 0)) ∧ (besides a = true)) ∧
    (∃ (s : State) (n : Fin 144) (c : Nat) (x : BitVec 5) (v : BitVec 64), (s.pins.porN = true) ∧ (s.fcu.safe = false) ∧ (s.lc < 4) ∧ (debugCore s n = some c)) ∧
    (∃ (s : State) (n : Fin 144) (c : Nat) (x : BitVec 5) (v : BitVec 64), (s.pins.porN = true) ∧ (s.fcu.safe = false) ∧ (s.lc < 4) ∧ (debugCore s n = some c)) ∧
    (∃ (s : State) (u : State) (a : BitVec 50) (len : BitVec 8) (bs : List Byte), (s.pins.porN = true) ∧ (s.fcu.safe = false) ∧ (s.lc < 4) ∧ ((rightsNow s).getLsbD 2 = true) ∧ ((∀ l ∈ spanLinesOf a.toNat len.toNat, lineOccupied s l = false)) ∧ (({ tag := 0x66001, reg := 65 } : Hub).read 4 s a.toNat len.toNat = (u, .ok bs))) ∧
    (∃ (s : State) (n : Fin 144) (c : Nat) (r : CoreReg) (v : BitVec 8192), (s.pins.porN = true) ∧ (s.fcu.safe = false) ∧ (s.lc < 4) ∧ (debugCore s n = some c)) ∧
    (∃ (s : State) (j : Fin 32) (k : BitVec 14) (w : Fin 16) (d : BitVec 1024), (s.pins.porN = true) ∧ (s.fcu.safe = false) ∧ (s.lc < 4)) :=
  ⟨⟨integrator, (.mgmt 1 : Path), 0xFF, 2, 16, by decide +kernel⟩,
   ⟨charted, (.mgmt 1 : Path), 15, 3, 15, by decide +kernel⟩,
   ⟨({ charted with wmk := { busy := some (3, 3) } } : State), (.mgmt 1 : Path), 0xFE, 3, 17, by decide +kernel⟩,
   ⟨({ charted with wmk := { busy := some (15, 3) }, time := 720000 } : State), 15, 3, by decide +kernel⟩,
   ⟨({ integrator with wmk := { busy := some (16, 2) }, time := 720000 } : State), 16, 2, by decide +kernel⟩,
   ⟨({ charted with wmk := { busy := some (16, 4), rights := 1 }, time := 720000 } : State), 16, 4, by decide +kernel⟩,
   ⟨({ charted with wmk := { busy := some (15, 3) }, time := 720000 } : State), 15, 3, 2, by decide +kernel⟩,
   ⟨({ integrator with wmk := { stage := 5 }, fuses := { integrator.fuses with owners := [] } } : State), (.mgmt 1 : Path), by decide +kernel⟩,
   ⟨({ integrator with wmk := { stage := 5 }, fuses := { integrator.fuses with bootCa := 0, bootCaValid := 0 } } : State), (.mgmt 1 : Path), by decide +kernel⟩,
   ⟨({ integrator with wmk := { stage := 5 }, fuses := { integrator.fuses with owners := (List.range 4).map (fun k => (k, { digest := 1, valid := ownerValid })) } } : State), (.mgmt 1 : Path), by decide +kernel⟩,
   ⟨charted, (.mgmt 1 : Path), 256, 5, by decide +kernel⟩,
   ⟨charted, (.mgmt 1 : Path), 256, 6, by decide +kernel⟩,
   ⟨s6_1, ((({ tag := 0x66000 } : Hub).read 4 s6_1 0x40 256).1 : State), (readOf (({ tag := 0x66000 } : Hub).read 4 s6_1 0x40 256).2 : List Byte), by decide +kernel⟩,
   ⟨({ mapped with wmk := { measBusy := true, measAddr := 0x3FFFFF80, measLen := 256, measSlot := 2 } } : State), by decide +kernel⟩,
   ⟨charted, (.mgmt 1 : Path), by decide +kernel⟩,
   ⟨({ charted with wmk := { token := tokenHead } } : State), (.mgmt 1 : Path), by decide +kernel⟩,
   ⟨charted, by decide +kernel⟩,
   ⟨({ charted with wmk := { token := tokenHead }, fuses := { fusesAtReset with serial := 1 } } : State), by decide +kernel⟩,
   ⟨({ charted with wmk := { token := tokenHead }, fuses := { fusesAtReset with serial := 0 } } : State), by decide +kernel⟩,
   ⟨({ charted with wmk := { token := tokenHead, nonce := 1, nonceAt := some 0 }, fuses := { fusesAtReset with serial := 0 } } : State), by decide +kernel⟩,
   ⟨({ charted with wmk := { nonce := 1, nonceAt := some 5 }, time := 600000000005 } : State), 5, by decide +kernel⟩,
   ⟨({ charted with wmk := { rights := 1, dbgUntil := some 5 }, time := 5 } : State), 5, by decide +kernel⟩,
   ⟨charted, (.coreReadX 143 31 : DebugAcc), by decide +kernel⟩,
   ⟨({ debugged with fcu := { safe := true } } : State), (.memRead 0 1 : DebugAcc), by decide +kernel⟩,
   ⟨debugged, 5, 5, 3, 7, by decide +kernel⟩,
   ⟨debugged, 5, 5, 0, 7, by decide +kernel⟩,
   ⟨s14_1, ((({ tag := 0x66001, reg := 65 } : Hub).read 4 s14_1 0x40 128).1 : State), 0x40, 128, (readOf (({ tag := 0x66001, reg := 65 } : Hub).read 4 s14_1 0x40 128).2 : List Byte), by decide +kernel⟩,
   ⟨debugged, 5, 5, (.v 3 : CoreReg), 7, by decide +kernel⟩,
   ⟨debugged, 31, 16383, 15, 9, by decide +kernel⟩⟩
end SecurityCommands

namespace Management
abbrev ready (s : State) (n : Nat) : Prop := pathUp s (.mgmt n) = true
abbrev s7_1 : State := { managed with mem := [(0x41, 9)], slices := [] }
abbrev s8_1 : State := { managed with slices := [] }
theorem test_met :
    (∃ (s : State) (a : BitVec 384), (s.pins.porN = true) ∧ (s.keysReady = true) ∧ (s.mgmt.link = true) ∧ (s.mgmt.closed = false) ∧ (s.mgmt.sessions.length < 4) ∧ (mgmtAnchor s = some a)) ∧
    (∃ (s : State) (n : Nat), ((∃ m ∈ s.mgmt.sessions, m.id = n)) ∧ (s.chart.session ≠ some (.mgmt n))) ∧
    (∃ (s : State), (s.pins.porN = true) ∧ (s.glb.sensed = true) ∧ (s.lc ≠ 4) ∧ (s.mgmt.link = false)) ∧
    (∃ (s : State) (n : Nat) (tag : BitVec 16) (len : BitVec 32) (a : BitVec 64), (ready s n) ∧ (regSpan a.toNat len.toNat = false)) ∧
    (∃ (s : State) (n : Nat) (tag : BitVec 16) (len : BitVec 32) (a : BitVec 64), (ready s n) ∧ (regSpan a.toNat len.toNat = true ∧ regShut s a.toNat len.toNat = true)) ∧
    (∃ (s : State) (n : Nat) (tag : BitVec 16) (len : BitVec 32) (a : BitVec 64), (ready s n) ∧ (regSpan a.toNat len.toNat = true ∧ regShut s a.toNat len.toNat = false)) ∧
    (∃ (s : State) (n : Nat) (tag : BitVec 16) (a : BitVec 64) (v : BitVec 64) (w : BitVec 64), (ready s n) ∧ (regSpan a.toNat 1 = true ∧ regShut s a.toNat 1 = false)) ∧
    (∃ (s : State) (n : Nat) (tag : BitVec 16) (a : BitVec 64) (v : BitVec 64) (w : BitVec 64), (ready s n) ∧ (regSpan a.toNat 2 = true ∧ regShut s a.toNat 2 = false)) ∧
    (∃ (s : State) (n : Nat) (tag : BitVec 16) (a : BitVec 64) (v : BitVec 64) (w : BitVec 64), (ready s n) ∧ (regSpan a.toNat 1 = false)) ∧
    (∃ (s : State) (u : State) (n : Nat) (tag : BitVec 16) (len : BitVec 32) (a : BitVec 64) (bs : List Byte), (ready s n) ∧ (memStatus s a.toNat len.toNat = none) ∧ (mgmtHub.read (len.toNat / 128 + 2) { s with wmk := { s.wmk with events := s.wmk.events ||| 4 } } a.toNat len.toNat = (u, .ok bs))) ∧
    (∃ (s : State) (d : List (BitVec 8)) (u : State) (r : List (BitVec 8)) (n : Nat) (tag : BitVec 16) (a : BitVec 64), (ready s n) ∧ (memStatus s a.toNat d.length = none) ∧ (feltBusyRange s a.toNat d.length = false) ∧ (mgmtHub.write (d.length / 128 + 2) { s with wmk := { s.wmk with events := s.wmk.events ||| 4 } } a.toNat d = (u, .ok r))) ∧
    (∃ (s : State) (n : Nat) (st : Nat) (tag : BitVec 16) (len : BitVec 32) (a : BitVec 64), (ready s n) ∧ (memStatus s a.toNat len.toNat = some st)) ∧
    (∃ (s : State) (n : Nat) (st : Nat) (tag : BitVec 16) (len : BitVec 32) (a : BitVec 64), (ready s n) ∧ (memStatus s a.toNat len.toNat = some st)) ∧
    (∃ (s : State) (pa : Nat) (n : Nat), (n = 0 ∨ 65536 < n)) ∧
    (∃ (s : State) (pa : Nat) (n : Nat), (1 ≤ n ∧ n ≤ 65536 ∧ s.fcu.safe = true)) ∧
    (∃ (s : State) (pa : Nat) (n : Nat), (1 ≤ n ∧ n ≤ 65536 ∧ s.cfg.locate pa = .unmapped)) ∧
    (∃ (s : State) (pa : Nat) (n : Nat), (1 ≤ n ∧ n ≤ 65536 ∧ s.fcu.safe = false ∧ (match s.cfg.locate pa with | .hbm r _ _ => decide (pa + n ≤ r.base + r.size) | _ => false) = true ∧ 0x3FFFFF80 ∈ spanLinesOf pa n ∧ lineOccupied s 0x3FFFFF80 = true)) ∧
    (∃ (s : State) (n : Nat), (ready s n) ∧ (s.keysReady = true ∧ s.mgmt.spdmMgmt < 4 ∧ 1 ≤ s.mgmt.spdmMgmt)) ∧
    (∃ (s : State) (n : Nat) (i : Fin 13) (x : BitVec 256), (ready s n) ∧ (s.keysReady = true)) ∧
    (∃ (s : State), (s.lc ≠ 4) ∧ (sideReadable s.pins.sbOffset.toNat = true)) ∧
    (∃ (s : State) (o : BitVec 32) (v : BitVec 64), (o.toNat ≠ 0x3800010)) ∧
    (∃ (s : State) (v : BitVec 64) (u : Nat), (pathUp s .smbus = true) ∧ (s.lc ≠ 4) ∧ (s.fcu.safe = false) ∧ (s.wmk.busy = none) ∧ (isRetry s (bits v 15 8) (bits v 2 0) = true) ∧ (unitIndex (bits v 15 8) = some u)) :=
  ⟨⟨({ charted with wmk := { lcBoot := 2, vaultBoot := 2 } } : State), 2, by decide +kernel⟩,
   ⟨managed, 1, by decide +kernel⟩,
   ⟨up, by decide +kernel⟩,
   ⟨managed, 1, 5, 0, 8, by decide +kernel⟩,
   ⟨({ managed with fcu := { safe := true } } : State), 1, 5, 1, 0x1000000, by decide +kernel⟩,
   ⟨managed, 1, 5, 512, 0x3FFF000, by decide +kernel⟩,
   ⟨managed, 1, 5, 0x3400018, 1, 2, by decide +kernel⟩,
   ⟨managed, 1, 5, 0x3FFFFF0, 1, 2, by decide +kernel⟩,
   ⟨managed, 1, 5, 0x4000000, 1, 2, by decide +kernel⟩,
   ⟨s7_1, ((mgmtHub.read 4 { s7_1 with wmk := { s7_1.wmk with events := s7_1.wmk.events ||| 4 } } 0x40 256).1 : State), 1, 5, 256, 0x40, (readOf (mgmtHub.read 4 { s7_1 with wmk := { s7_1.wmk with events := s7_1.wmk.events ||| 4 } } 0x40 256).2 : List Byte), by decide +kernel⟩,
   ⟨s8_1, ([7, 0, 8] : List (BitVec 8)), ((mgmtHub.write 2 { s8_1 with wmk := { s8_1.wmk with events := s8_1.wmk.events ||| 4 } } 0x7F ([7, 0, 8] : List (BitVec 8))).1 : State), (readOf (mgmtHub.write 2 { s8_1 with wmk := { s8_1.wmk with events := s8_1.wmk.events ||| 4 } } 0x7F ([7, 0, 8] : List (BitVec 8))).2 : List (BitVec 8)), 1, 5, 0x7F, by decide +kernel⟩,
   ⟨managed, 1, 2, 5, 65537, 0, by decide +kernel⟩,
   ⟨managed, 1, 1, 5, 1, 0x40000000, by decide +kernel⟩,
   ⟨managed, 0, 65537, by decide +kernel⟩,
   ⟨({ managed with fcu := { safe := true } } : State), 0, 65536, by decide +kernel⟩,
   ⟨managed, 0x40000000, 1, by decide +kernel⟩,
   ⟨({ managed with slices := [(3, { state := 2, pasid := 9 })] } : State), 0x3FFFFF80, 128, by decide +kernel⟩,
   ⟨({ managed with wmk := { lcBoot := 2, vaultBoot := 2 }, mgmt := { managed.mgmt with spdmMgmt := 3 } } : State), 1, by decide +kernel⟩,
   ⟨({ managed with wmk := { lcBoot := 2, vaultBoot := 2 } } : State), 1, 12, 5, by decide +kernel⟩,
   ⟨({ managed with pins := { managed.pins with sbOffset := 0x18FF000 } } : State), by decide +kernel⟩,
   ⟨managed, 0x3800018, 1, by decide +kernel⟩,
   ⟨({ managed with fuses := { fusesAtReset with stripes := Tab.set 0 fusesAtReset.stripes 66 0x3C } } : State), 0xFF03, 16, by decide +kernel⟩⟩
end Management

namespace RegisterAccess
abbrev good (s : State) (n : Nat) : Prop := pathUp s (.mgmt n) = true ∧ s.lc ≠ 4 ∧ s.fcu.safe = false
theorem test_met :
    (∃ (s : State) (p : Path) (a : BitVec 26) (h : RegHalf) (v : BitVec 64), (pathUp s p = false)) ∧
    (∃ (s : State) (n : Nat) (a : BitVec 26) (h : RegHalf) (v : BitVec 64), (a.toNat % 8 ≠ 0)) ∧
    (∃ (s : State) (n : Nat) (a : BitVec 26) (h : RegHalf) (v : BitVec 64), ((0x200000 ≤ a.toNat ∧ a.toNat < 0x300000) ∨ (0x410000 ≤ a.toNat ∧ a.toNat < 0x800000) ∨ (0x880000 ≤ a.toNat ∧ a.toNat < 0xC00000) ∨ (0x2000000 ≤ a.toNat ∧ a.toNat < 0x2800000))) ∧
    (∃ (s : State) (n : Nat) (a : BitVec 26) (h : RegHalf) (v : BitVec 64), (s.fcu.safe = true) ∧ (a.toNat < 0x100000 ∨ (0x200000 ≤ a.toNat ∧ a.toNat < 0x3400000) ∨ 0x3C00000 ≤ a.toNat)) ∧
    (∃ (s : State) (n : Nat) (q : Nat) (a : BitVec 26) (h : RegHalf) (v : BitVec 64), (good s n) ∧ (q < 4096) ∧ (a.toNat = 0x1900000 + 0x100 * q + 0x40)) ∧
    (∃ (s : State) (n : Nat) (q : Nat) (a : BitVec 26) (h : RegHalf) (v : BitVec 64), (good s n) ∧ (q < 4096) ∧ (a.toNat = 0x1900000 + 0x100 * q + 0x40)) ∧
    (∃ (s : State) (q : Nat), (q < 4096) ∧ (s.chart.state ≠ 4)) ∧
    (∃ (s : State) (n : Nat) (v : BitVec 64), (good s n)) ∧
    (∃ (s : State) (n : Nat) (k : Nat) (a : BitVec 26) (v : BitVec 64), (good s n) ∧ (k < 48) ∧ (a.toNat = 0x3400100 + 8 * k)) ∧
    (∃ (s : State) (n : Nat) (v : BitVec 64), (good s n)) ∧
    (∃ (s : State) (n : Nat) (v : BitVec 64), (good s n)) ∧
    (∃ (s : State) (n : Nat) (k : Nat) (a : BitVec 26) (h : RegHalf) (v : BitVec 64), (good s n) ∧ (k < 64) ∧ (s.chart.state ≠ 4) ∧ (a.toNat = 0x1010008 + 0x40 * k)) ∧
    (∃ (s : State) (n : Nat) (v : BitVec 64), (good s n)) ∧
    (∃ (s : State) (a : BitVec 26) (h : RegHalf) (v : BitVec 64), (pathUp s .bar0 = true) ∧ (s.pcie.pmState ≤ 1) ∧ (hostWritesOpen s = false)) ∧
    (∃ (s : State) (a : BitVec 26) (h : RegHalf) (v : BitVec 64), (pathUp s .bar0 = true) ∧ (s.pcie.pmState ≤ 1) ∧ (hostWritesOpen s = true)) :=
  ⟨⟨({} : State), (.bar0 : Path), 0x3400040, (.full : RegHalf), 1, by decide +kernel⟩,
   ⟨managed, 1, 0x3400041, (.full : RegHalf), 1, by decide +kernel⟩,
   ⟨managed, 1, 0x27FFFF8, (.full : RegHalf), 1, by decide +kernel⟩,
   ⟨({ managed with fcu := { safe := true } } : State), 1, 0x3C00000, (.full : RegHalf), 1, by decide +kernel⟩,
   ⟨managed, 1, 4095, 0x19FFF40, (.high : RegHalf), 0x100000002, by decide +kernel⟩,
   ⟨({ managed with queues := [(0, { irqData := 0x500000006 })] } : State), 1, 0, 0x1900040, (.low : RegHalf), 0x100000002, by decide +kernel⟩,
   ⟨({ managed with queues := [(4095, { irqData := 0x500000006 })] } : State), 4095, by decide +kernel⟩,
   ⟨({ managed with pcie := { hosted.pcie with events := 31 }, fcu := { irqPending := true } } : State), 1, 0x11, by decide +kernel⟩,
   ⟨({ managed with fcu := { sticky := 2 ^ 1535 + 1 } } : State), 1, 47, 0x3400278, 0x80000000, by decide +kernel⟩,
   ⟨({ managed with fcu := { prod := 4095, cons := 0 } } : State), 1, 4095, by decide +kernel⟩,
   ⟨({ managed with fcu := { prod := 4095, cons := 4000 } } : State), 1, 4096, by decide +kernel⟩,
   ⟨managed, 1, 63, 0x1010FC8, (.full : RegHalf), 1, by decide +kernel⟩,
   ⟨managed, 1, 0xFFFFFFFFFFFFFFFF, by decide +kernel⟩,
   ⟨({ hosted with txns := [] } : State), 0x3400040, (.full : RegHalf), 8, by decide +kernel⟩,
   ⟨({ hosted with txns := [{ src := .host, opc := 5, addr := 0, id := 1 }] } : State), 0x3400040, (.full : RegHalf), 8, by decide +kernel⟩⟩
end RegisterAccess

namespace StepRunsFront
theorem test_met :
    (∃ (s : State), (s.pending = [])) ∧
    (∃ (s : State), (s.pending = []) ∧ (s.pins.porN = false)) ∧
    (∃ (s : State), (s.pending = []) ∧ (s.pins.porN = true) ∧ (s.clk.rootLock = false) ∧ (s.pins.refclk = true) ∧ (s.nx.slew = 0) ∧ ((∀ p ∈ s.tel.pd, p.2.state ≠ 3)) ∧ ((∀ j, j < 32 → (s.home j).running = none ∧ (s.home j).sys = []))) :=
  ⟨⟨up, by decide +kernel⟩,
   ⟨({} : State), by decide +kernel⟩,
   ⟨({ up with clk := {} } : State), by decide +kernel⟩⟩
end StepRunsFront

namespace StepKeepsMemory
abbrev s1_1 : State := { up with mem := [(5, 9)] }
theorem test_met :
    ∃ (s : State) (t : State), (Memory.wf s.mem = true) :=
  ⟨s1_1, (tick s1_1 : State), by decide +kernel⟩
end StepKeepsMemory

namespace SlotWordsReadBack
theorem test_met :
    (∃ (o : Nat) (lc : Nat) (imm : Nat) (rd : BitVec 5) (a : BitVec 5) (b : BitVec 5), (o < 256) ∧ (lc < 2) ∧ (imm < 2 ^ 32)) ∧
    (∃ (f : MF), (f.opc < 256) ∧ (f.t < 64) ∧ (f.ra < 32) ∧ (f.rb < 32) ∧ (f.rc < 32) ∧ (f.ps < 8) ∧ (f.sk < 16) ∧ (f.sz < 2) ∧ (f.u < 2) ∧ (f.rsvd = 0) ∧ (f.imm < 2 ^ 32)) ∧
    (∃ (o : Nat) (f : VFields), (o < 256)) ∧
    (∃ (f : XF), (f.opc < 256) ∧ (f.ad < 4) ∧ (f.wn < 2) ∧ (f.z < 2) ∧ (f.sp < 2) ∧ (f.fmt < 32) ∧ (f.ra < 32) ∧ (f.rs < 32) ∧ (f.rb < 32) ∧ (f.row0 < 128) ∧ (f.rows < 256) ∧ (f.vd < 64) ∧ (f.rsvd = 0)) ∧
    (∃ (i : Instr) (j : Instr) (a : Alu) (b : Alu), (aluOf i = some a) ∧ (aluOf j = some b) ∧ (a.core = b.core) ∧ (a.slot = b.slot) ∧ (a.word = b.word)) :=
  ⟨⟨255, 1, 0xFFFFFFFF, 31, 31, 31, by decide +kernel⟩,
   ⟨({ opc := 255, t := 63, ra := 31, rb := 31, rc := 31, ps := 7, sk := 15, sz := 1, u := 1, rsvd := 0, imm := 0xFFFFFFFF } : MF), by decide +kernel⟩,
   ⟨255, ({ ty := 31, dtype := 31, vd := 63, va := 63, vb := 63, vc := 63, pg := 7, bx := true, rm := 7, part := 3, imm := 0xFFFFFFFF } : VFields), by decide +kernel⟩,
   ⟨({ opc := 255, ad := 3, wn := 1, z := 1, sp := 1, fmt := 31, ra := 31, rs := 31, rb := 31, row0 := 127, rows := 255, vd := 63, rsvd := 0 } : XF), by decide +kernel⟩,
   ⟨(.add 0 1 2 3 4 : Instr), (.add 0 1 2 3 4 : Instr), ((aluOf (.add 0 1 2 3 4)).getD { core := 0, slot := 1, word := 0, rd := 0, val := fun _ _ => 0 } : Alu), ((aluOf (.add 0 1 2 3 4)).getD { core := 0, slot := 1, word := 0, rd := 0, val := fun _ _ => 0 } : Alu), rfl, rfl, by decide +kernel, by decide +kernel, by decide +kernel⟩⟩
end SlotWordsReadBack

end Sys2Proof.Tests
end

section
/-!
SUPPORT. What a bundle with one operation does: the fields of its words, its traps, and its effects on the core and the module.
-/
namespace Sys2Proof.Machine

/-! ## Fields of words -/

/-- A field below bit `m` is a field of the number's low `m` bits. -/
theorem fieldAt_mod {lo n m : Nat} (w : Nat) (h : lo + n ≤ m) : fieldAt (w % 2 ^ m) lo n = fieldAt w lo n := by
  refine Nat.eq_of_testBit_eq fun i => ?_
  simp only [fieldAt, Nat.testBit_mod_two_pow, Nat.testBit_shiftRight]
  by_cases hi : i < n
  · simp [hi, show lo + i < m by omega]
  · simp [hi]

/-- A field below the place of the last summand does not see it. -/
theorem fieldAt_add_low {lo n m : Nat} (a b : Nat) (h : lo + n ≤ m) : fieldAt (a + b <<< m) lo n = fieldAt a lo n := by
  rw [← fieldAt_mod (a + b <<< m) h, Nat.shiftLeft_eq, Nat.add_mul_mod_self_right, fieldAt_mod a h]

theorem fieldAt_zero {a n : Nat} (ha : a < 2 ^ n) : fieldAt a 0 n = a := by
  rw [fieldAt, Nat.shiftRight_zero, Nat.mod_eq_of_lt ha]

/-- A field at or above the place of the last summand sees it alone. -/
theorem fieldAt_add_shift {a m : Nat} (b lo : Nat) {n : Nat} (ha : a < 2 ^ m) : fieldAt (a + b <<< m) (m + lo) n = fieldAt b lo n := by
  rw [fieldAt, fieldAt, Nat.shiftRight_add, Nat.shiftRight_eq_div_pow _ m, Nat.shiftLeft_eq, Nat.add_mul_div_right _ _ (Nat.two_pow_pos m),
    Nat.div_eq_of_lt ha, Nat.zero_add]

theorem fieldAt_add_high {a b m n : Nat} (ha : a < 2 ^ m) (hb : b < 2 ^ n) : fieldAt (a + b <<< m) m n = b := by
  exact (fieldAt_add_shift b 0 ha).trans (fieldAt_zero hb)

theorem fieldAt_of_lt {a lo : Nat} (n : Nat) (ha : a < 2 ^ lo) : fieldAt a lo n = 0 := by
  rw [fieldAt, Nat.shiftRight_eq_div_pow, Nat.div_eq_of_lt ha, Nat.zero_mod]

theorem add_shiftLeft_lt {a b m n k : Nat} (ha : a < 2 ^ m) (hb : b < 2 ^ n) (h : m + n ≤ k) : a + b <<< m < 2 ^ k := by
  have h1 : a + b <<< m < 2 ^ (m + n) := by
    rw [Nat.shiftLeft_eq, Nat.pow_add]
    have := Nat.mul_le_mul_left (2 ^ m) (show b + 1 ≤ 2 ^ n from hb)
    linarith
  exact h1.trans_le (Nat.pow_le_pow_right (by omega) h)

theorem scWord_eq (o : Nat) (rd rs1 rs2 : BitVec 5) (lc imm : Nat) : scWord o rd rs1 rs2 lc imm =
    o + rd.toNat <<< 8 + rs1.toNat <<< 13 + rs2.toNat <<< 18 + lc <<< 23 + imm <<< 32 := rfl

theorem mWord_eq (f : MF) : mWord f = f.opc + f.t <<< 8 + f.ra <<< 14 + f.rb <<< 19 + f.rc <<< 24 + f.ps <<< 29 + f.sk <<< 32 + f.sz <<< 36 +
    f.u <<< 37 + f.imm <<< 64 := rfl

/-- The fields of the word of a scalar operation (R98). -/
theorem scF_scWord {o lc imm : Nat} (rd rs1 rs2 : BitVec 5) (ho : o < 2 ^ 8) (hlc : lc < 2 ^ 1) (himm : imm < 2 ^ 32) :
    scF (scWord o rd rs1 rs2 lc imm) =
      { opc := o, rd := rd.toNat, rs1 := rs1.toNat, rs2 := rs2.toNat, lc := lc, rsvd := 0, imm := imm } := by
  have h1 : o + rd.toNat <<< 8 < 2 ^ 13 := add_shiftLeft_lt ho rd.isLt (by decide)
  have h2 : o + rd.toNat <<< 8 + rs1.toNat <<< 13 < 2 ^ 18 := add_shiftLeft_lt h1 rs1.isLt (by decide)
  have h3 : o + rd.toNat <<< 8 + rs1.toNat <<< 13 + rs2.toNat <<< 18 < 2 ^ 23 := add_shiftLeft_lt h2 rs2.isLt (by decide)
  have h4 := add_shiftLeft_lt (k := 24) h3 hlc (by decide)
  have h5 := h4.trans (by norm_num : 2 ^ 24 < 2 ^ 32)
  simp (disch := first | decide | assumption | exact BitVec.isLt _) only [scF, scWord_eq, fieldAt_add_low, fieldAt_add_high, fieldAt_zero, fieldAt_of_lt]

/-- The fields of a memory slot are those of its word, where each fits its width (R103). -/
theorem mF_mWord {f : MF} (ho : f.opc < 2 ^ 8) (ht : f.t < 2 ^ 6) (ha : f.ra < 2 ^ 5) (hb : f.rb < 2 ^ 5) (hc : f.rc < 2 ^ 5)
    (hp : f.ps < 2 ^ 3) (hk : f.sk < 2 ^ 4) (hz : f.sz < 2 ^ 1) (hu : f.u < 2 ^ 1) (hr : f.rsvd = 0) (hi : f.imm < 2 ^ 32) : mF (mWord f) = f := by
  obtain ⟨o, t, ra, rb, rc, ps, sk, sz, u, rsvd, imm⟩ := f
  dsimp only at *
  have h1 : _ < 2 ^ 14 := add_shiftLeft_lt ho ht (by decide)
  have h2 : _ < 2 ^ 19 := add_shiftLeft_lt h1 ha (by decide)
  have h3 : _ < 2 ^ 24 := add_shiftLeft_lt h2 hb (by decide)
  have h4 : _ < 2 ^ 29 := add_shiftLeft_lt h3 hc (by decide)
  have h5 : _ < 2 ^ 32 := add_shiftLeft_lt h4 hp (by decide)
  have h6 : _ < 2 ^ 36 := add_shiftLeft_lt h5 hk (by decide)
  have h7 : _ < 2 ^ 37 := add_shiftLeft_lt h6 hz (by decide)
  have h8 : _ < 2 ^ 38 := add_shiftLeft_lt h7 hu (by decide)
  have h9 := h8.trans (by norm_num : 2 ^ 38 < 2 ^ 64)
  simp (disch := first | decide | assumption) only [mF, mWord_eq, fieldAt_add_low, fieldAt_add_high, fieldAt_zero, fieldAt_of_lt, hr]

/-! ## Registers after a write -/

/-- A register after a write of an X register: X0 stays zero (R63). -/
theorem Core.xr_setX (x : Core) (n r : Nat) (v : Word) : (x.setX n v).xr r = if r = n ∧ r ≠ 0 then v else x.xr r := by
  by_cases hn : n = 0
  · subst hn; by_cases hr : r = 0 <;> simp [Core.setX, hr]
  · by_cases hr : r = 0
    · simp [Core.xr, hr]
    · simp [Core.setX, Core.xr, hn, hr, Tab.get_set]

/-- A write of an X register changes nothing else. -/
theorem Core.setX_eq (x : Core) (n : Nat) (v : Word) : x.setX n v = { x with x := (x.setX n v).x } := by
  unfold Core.setX; split <;> rfl

@[simp] theorem setCore_setCore_same (s : State) (c : Nat) (x y : Core) : setCore (setCore s c x) c y = setCore s c y := by
  simp [setCore]

/-- A core after a core is set. -/
theorem core_setCore (s : State) (c d : Nat) (x : Core) : (setCore s c x).core d = if d = c then x else s.core d := by
  by_cases h : d = c
  · subst h; simp
  · rw [setCore_core_ne s c d x h, if_neg h]

/-- Setting cores changes nothing outside the cores. -/
theorem setCore_frame (s : State) (c : Nat) (x : Core) : setCore s c x = { s with cores := (setCore s c x).cores } := rfl

theorem setCore_frame_trans {s t : State} (h : t = { s with cores := t.cores }) (c : Nat) (x : Core) :
    setCore t c x = { s with cores := (setCore t c x).cores } := by
  rw [h]; rfl

/-! ## A bundle with one operation -/

/-- Of the six slots of a bundle whose valid bits are `2 ^ k`, slot `k` alone holds an operation (R93). -/
theorem slotValid_of_bits {b k j : Nat} (h : b % 64 = 2 ^ k) (hj : j < 6) : slotValid b j = decide (k = j) := by
  have hb : (b % 2 ^ 6).testBit j = b.testBit j := by rw [Nat.testBit_mod_two_pow, decide_eq_true hj, Bool.true_and]
  rw [slotValid, ← hb, show b % 2 ^ 6 = 2 ^ k from h, Nat.testBit_two_pow]

theorem opSc_of_bits {b k j : Nat} (h : b % 64 = 2 ^ k) (hj : j < 6) : opSc b j = if k = j then some (scF (slotOf b j)) else none := by
  simp [opSc, slotValid_of_bits h hj]

theorem opM_of_bits {b k : Nat} (h : b % 64 = 2 ^ k) : opM b = if k = 2 then some (mF (slotOf b 2)) else none := by
  simp [opM, slotValid_of_bits h]

theorem opX_of_bits {b k : Nat} (h : b % 64 = 2 ^ k) : opX b = if k = 5 then some (xF (slotOf b 5)) else none := by
  simp [opX, slotValid_of_bits h]

/-- What it means that a core issues now and its bundle holds one word that neither traps, waits nor stalls. -/
structure Alone (s : State) (n : Fin 144) (k w c : Nat) : Prop where
  core : coreOf s n = some c
  issuing : issuing s c = true
  header : headerOk (bundleAt (s.core c)) = true
  bits : bundleAt (s.core c) % 64 = 2 ^ k
  word : slotOf (bundleAt (s.core c)) k = w
  noTrap : bundleTrap s c (s.core c) (bundleAt (s.core c)) (s.core c).idx = none
  noWait : waitsFor (s.core c) (bundleAt (s.core c)) = .none
  noStall : stalled s c (s.core c) (bundleAt (s.core c)) = false

theorem alone_of_aloneAt {s : State} {n : Fin 144} {k w c : Nat} (h : aloneAt s n k w = some c) : Alone s n k w c := by
  obtain ⟨hc, h⟩ := Option.filter_eq_some_iff.1 h
  simp only [Bool.and_eq_true, decide_eq_true_eq, Option.isNone_iff_eq_none, Bool.not_eq_true'] at h
  obtain ⟨⟨⟨⟨⟨⟨h1, h2⟩, h3⟩, h4⟩, h5⟩, h6⟩, h7⟩ := h
  exact ⟨hc, h1, h2, h3, h4, h5, h6, h7⟩

theorem st_of_issuing {s : State} {c : Nat} (h : issuing s c = true) : (s.core c).st = .running := by
  simp only [issuing, Bool.and_eq_true, decide_eq_true_eq] at h
  exact h.1.1.1

/-- The command of an operation alone in its bundle has all the effects of the bundle. -/
theorem Alone.issueOp_eq {s : State} {n : Fin 144} {k w c : Nat} (h : Alone s n k w c) (hk : k < 6) (err : TileErr) :
    issueOp s n k w err = issueEffects s c (bundleAt (s.core c)) err := by
  have hv : slotValid (bundleAt (s.core c)) k = true := by simp [slotValid_of_bits h.bits hk]
  have ht := h.noTrap
  rw [Core.idx] at ht
  simp [issueOp, h.core, h.issuing, h.header, hv, h.word, issue, ht, h.noWait, h.noStall]

/-! ## Traps -/

/-- A bundle without a trap is legal. -/
theorem illegalSlot_of_bundleTrap {s : State} {c b idx : Nat} {x : Core} (h : bundleTrap s c x b idx = none) : illegalSlot x b idx = none := by
  unfold bundleTrap at h
  split at h
  · cases h
  · assumption

/-- A valid scalar slot of a legal bundle keeps the rules of its word. -/
theorem scOk_of_legal {x : Core} {b idx k : Nat} (h : illegalSlot x b idx = none) (hb : b % 64 = 2 ^ k) (hk : k < 2) :
    scOk k idx (slotOf b k) = true := by
  unfold illegalSlot at h
  split at h
  · cases h
  · have hs := List.find?_eq_none.1 h k (List.mem_range.2 (by omega))
    simp only [Bool.or_eq_true, not_or] at hs
    obtain ⟨⟨hs, -⟩, -⟩ := hs
    have hv : slotValid b k = true := by simp [slotValid_of_bits hb (show k < 6 by omega)]
    interval_cases k <;> simpa [slotBad, hv] using hs

/-- The trap of a legal bundle with one scalar operation: that of slot S0. -/
theorem bundleTrap_scalar {s : State} {c b idx k : Nat} {x : Core} (h : illegalSlot x b idx = none) (hb : b % 64 = 2 ^ k) (hk : k < 2) :
    bundleTrap s c x b idx = if k = 0 then scalarTrap x (scF (slotOf b 0)) else none := by
  have h2 : k ≠ 2 := by omega
  have h5 : k ≠ 5 := by omega
  simp only [bundleTrap, h, opSc_of_bits hb (show 0 < 6 by omega), opM_of_bits hb, opX_of_bits hb, if_neg h2, if_neg h5]
  split <;> simp

/-- The trap of a legal bundle with one memory operation: that of slot M. -/
theorem bundleTrap_memory {s : State} {c b idx : Nat} {x : Core} (h : illegalSlot x b idx = none) (hb : b % 64 = 2 ^ 2) :
    bundleTrap s c x b idx = memTrap s c x (mF (slotOf b 2)) := by
  simp [bundleTrap, h, opSc_of_bits hb (show 0 < 6 by omega), opM_of_bits hb, opX_of_bits hb]

/-- Whether S0 leaves control flow alone: neither a branch, a LOOP, a BRK, a HALT nor a CSRW. -/
def ScF.plain (f : ScF) : Bool := f.opc ≤ 0x30

theorem brTarget_of_plain {x : Core} {f : ScF} (h : f.plain = true) : brTarget x f = none := by
  have ho : f.opc ≤ 0x30 := by simpa [ScF.plain] using h
  have hb : ∀ a b, brTaken f.opc a b = false := by
    intro a b
    unfold brTaken
    split <;> first | omega | rfl
  simp [brTarget, hb, show f.opc ≠ 0x4A by omega]

theorem scalarTrap_of_plain {x : Core} {f : ScF} (h : f.plain = true) : scalarTrap x f = none := by
  have ho : f.opc ≤ 0x30 := by simpa [ScF.plain] using h
  simp [scalarTrap, brTarget_of_plain h, show f.opc ≠ 0x4D by omega, show f.opc ≠ 0x4C by omega]


/-! ## Control flow and the other units -/

/-- Bundle `idx` ends no active loop: the loop tests change nothing but put the loops back. -/
theorem loopEnd_of_not_end (idx : Nat) (x : Core) (l : List HwLoop) (h : l.all (fun l => l.stop ≠ idx) = true) :
    loopEnd x idx l = ({ x with loops := l ++ x.loops }, none) := by
  induction l with
  | nil => rfl
  | cons a l ih =>
    simp only [List.all_cons, Bool.and_eq_true, decide_eq_true_eq] at h
    obtain ⟨ha, hl⟩ := h
    rw [loopEnd, if_pos ha, ih hl]
    rfl

/-- A bundle that ends no loop goes on to the next one. -/
theorem endOfBundle_of_not_end (x : Core) (idx : Nat) (h : x.loops.all (fun l => l.stop ≠ idx) = true) : endOfBundle x idx = (x, idx + 1) := by
  simp [endOfBundle, loopEnd_of_not_end idx _ _ h]

/-- Without an operation of control flow in S0, the end of the bundle decides. -/
theorem flow_of_plain {x old : Core} {f : Option ScF} {idx : Nat} (hf : ∀ g ∈ f, g.plain = true) : flow x old f idx = endOfBundle x idx := by
  cases f with
  | none => rfl
  | some g =>
    have hg := hf g rfl
    have ho : g.opc ≤ 0x30 := by simpa [ScF.plain] using hg
    simp [flow, brTarget_of_plain hg, show g.opc ≠ 0x4C by omega]

/-- The scalar slots of a bundle with one scalar operation that writes an X register (R66). -/
theorem scalarEffects_scalar {s : State} {c b k : Nat} {old : Core} {v : Word} (hb : b % 64 = 2 ^ k) (hk : k < 2)
    (hf : (scF (slotOf b k)).plain = true) (hv : scalarValue s c old (scF (slotOf b k)) = some v) :
    scalarEffects s c old b = old.setX (scF (slotOf b k)).rd v := by
  have ho : (scF (slotOf b k)).opc ≤ 0x30 := by simpa [ScF.plain] using hf
  have h31 : (scF (slotOf b k)).opc ≠ 0x31 := by omega
  interval_cases k <;> simp [scalarEffects, opSc_of_bits hb, hv, h31]

/-- A bundle without a scalar operation leaves the scalar slots' part of the core as it is. -/
theorem scalarEffects_none {s : State} {c b k : Nat} {old : Core} (hb : b % 64 = 2 ^ k) (hk : 2 ≤ k) : scalarEffects s c old b = old := by
  simp [scalarEffects, opSc_of_bits hb, show k ≠ 0 by omega, show k ≠ 1 by omega]

/-- A bundle without a vector or a matrix operation leaves their part of the core as it is. -/
theorem arrayEffects_none {x old : Core} {b k : Nat} (hb : b % 64 = 2 ^ k) (hk : k < 3) : arrayEffects x old b = x := by
  have hv : ∀ j, 3 ≤ j → j < 6 → slotValid b j = false := fun j h3 h6 => by
    rw [slotValid_of_bits hb h6, decide_eq_false (by omega)]
  simp [arrayEffects, slotIndexes, hv]

/-- A scalar operation that is no HALT holds no later bundle. -/
theorem holdAfter_scalar {b k : Nat} (hb : b % 64 = 2 ^ k) (hk : k < 2) (hf : (scF (slotOf b k)).plain = true) : holdAfter b = .none := by
  have ho : (scF (slotOf b k)).opc ≤ 0x30 := by simpa [ScF.plain] using hf
  have h4e : (scF (slotOf b k)).opc ≠ 0x4E := by omega
  interval_cases k <;> simp [holdAfter, opSc_of_bits hb, opM_of_bits hb, opX_of_bits hb, h4e]

/-- A memory operation that is no FENCE holds no later bundle. -/
theorem holdAfter_memory {b : Nat} (hb : b % 64 = 2 ^ 2) (hf : (mF (slotOf b 2)).opc ≠ 0x30) : holdAfter b = .none := by
  simp [holdAfter, opSc_of_bits hb, opM_of_bits hb, opX_of_bits hb, Option.filter, hf]

/-- What it says that a core goes on to the next bundle. -/
theorem Core.plain_iff (x : Core) : x.plain = true ↔ x.idx + 1 < 4096 ∧ x.loops.all (fun l => l.stop ≠ x.idx) = true := by
  simp [Core.plain]

/-! ## The effects of a bundle with one operation -/

/-- The effects of a bundle without array operations that goes to bundle `next` and holds no later one: those of slot M on the core that has gone on. -/
theorem issueEffects_eq {s t : State} {c b k next : Nat} {y : Core} {err : TileErr}
    (hf : flow (scalarEffects s c (s.core c) b) (s.core c) (opSc b 0) (s.core c).idx = (y, next)) (hn : next < 4096)
    (hb : b % 64 = 2 ^ k) (hk : k < 3) (hh : holdAfter b = .none)
    (ht : (opM b).elim (setCore s c { y with st := .running, pc := BitVec.ofNat 18 (next * 64), pastEnd := false })
      (memEffects (setCore s c { y with st := .running, pc := BitVec.ofNat 18 (next * 64), pastEnd := false }) c (s.core c) err) = t)
    (hr : (t.core c).st = .running) (hp : (t.core c).pastEnd = false) : issueEffects s c b err = setCore t c (t.core c) := by
  have hd : decide (next ≥ 4096) = false := decide_eq_false (by omega)
  unfold issueEffects
  dsimp only
  rw [← Core.idx, hf]
  dsimp only
  rw [hd, arrayEffects_none hb hk, hh]
  cases ho : opM b <;>
    · rw [ho] at ht
      subst ht
      simp only [Option.elim] at hr hp ⊢
      simp [hr, hp, Core.fetchPastEnd]

/-- Control flow of a bundle that goes on, where the scalar slots keep the loops. -/
theorem flow_onward {x old : Core} {f : Option ScF} (hf : ∀ g ∈ f, g.plain = true) (hp : old.plain = true) (hl : x.loops = old.loops) :
    flow x old f old.idx = (x, old.idx + 1) := by
  rw [flow_of_plain hf, endOfBundle_of_not_end _ _ (by rw [hl]; exact ((Core.plain_iff _).1 hp).2)]

@[simp] theorem Core.setX_loops (x : Core) (n : Nat) (v : Word) : (x.setX n v).loops = x.loops := by rw [Core.setX_eq]

/-- The effects of a bundle with one scalar operation that writes an X register: the core goes on with that register written. -/
theorem issueEffects_scalar {s : State} {c b k : Nat} {v : Word} {err : TileErr} (hr : (s.core c).st = .running)
    (hp : (s.core c).plain = true) (hb : b % 64 = 2 ^ k) (hk : k < 2) (hf : (scF (slotOf b k)).plain = true)
    (hv : scalarValue s c (s.core c) (scF (slotOf b k)) = some v) :
    issueEffects s c b err = setCore s c { (s.core c).onward with x := ((s.core c).setX (scF (slotOf b k)).rd v).x } := by
  have hS0 : ∀ g ∈ opSc b 0, g.plain = true := by
    rw [opSc_of_bits hb (by omega)]
    interval_cases k <;> simp [hf]
  have hm : opM b = none := by rw [opM_of_bits hb, if_neg (by omega)]
  have he := scalarEffects_scalar hb hk hf hv
  have hflow := flow_onward (x := scalarEffects s c (s.core c) b) hS0 hp (by rw [he, Core.setX_loops])
  have ho : { scalarEffects s c (s.core c) b with st := .running, pc := BitVec.ofNat 18 (((s.core c).idx + 1) * 64), pastEnd := false } =
      { (s.core c).onward with x := ((s.core c).setX (scF (slotOf b k)).rd v).x } := by
    rw [he, Core.setX_eq]
    simp only [Core.onward, hr]
  refine (issueEffects_eq hflow ((Core.plain_iff _).1 hp).1 hb (by omega) (holdAfter_scalar hb hk hf) (by rw [hm, ho, Option.elim_none]) ?_ ?_).trans ?_
  · simp [Core.onward, hr]
  · simp [Core.onward]
  · simp

/-- The effects of a bundle with one memory operation that is no FENCE: those of slot M on the core that has gone on. -/
theorem issueEffects_memory {s t : State} {c b : Nat} {f : MF} {err : TileErr} (hr : (s.core c).st = .running)
    (hp : (s.core c).plain = true) (hb : b % 64 = 2 ^ 2) (hw : mF (slotOf b 2) = f) (hf : f.opc ≠ 0x30)
    (ht : memEffects (setCore s c (s.core c).onward) c (s.core c) err f = t) (htr : (t.core c).st = .running) (htp : (t.core c).pastEnd = false) :
    issueEffects s c b err = setCore t c (t.core c) := by
  have hS0 : ∀ g ∈ opSc b 0, g.plain = true := by simp [opSc_of_bits hb]
  have he : scalarEffects s c (s.core c) b = s.core c := scalarEffects_none hb (le_refl 2)
  have hflow := flow_onward (x := scalarEffects s c (s.core c) b) hS0 hp (by rw [he])
  have hm : opM b = some f := by rw [opM_of_bits hb, if_pos rfl, hw]
  have ho : { s.core c with st := .running, pc := BitVec.ofNat 18 (((s.core c).idx + 1) * 64), pastEnd := false } = (s.core c).onward := by
    simp only [Core.onward, hr]
  exact issueEffects_eq hflow ((Core.plain_iff _).1 hp).1 hb (by omega) (holdAfter_memory hb (hw ▸ hf)) (by rw [hm, he, ho]; exact ht) htr htp

end Sys2Proof.Machine
end

section
/-!
PROOFS. The scalar operations that write an X register (R63, R65, R99, R100).
-/
namespace Sys2Proof.Machine

/-! ## The model's arithmetic in the spec's terms -/

/-- A 32-bit number read as two's complement is its `toInt`. -/
theorem toSigned_toNat (v : BitVec 32) : toSigned 32 v.toNat = v.toInt := by
  rw [toSigned, BitVec.toInt, Nat.mod_eq_of_lt v.isLt]
  by_cases h : v.toNat < 2 ^ 31
  · rw [if_pos h, if_pos (by omega)]
  · rw [if_neg h, if_neg (by omega)]

/-- The immediate of an operation is sign-extended (R97). -/
theorem immS_toNat (v : BitVec 32) : immS v.toNat = v.signExtend 64 := by
  rw [immS, toSigned_toNat, BitVec.signExtend]

theorem immS_toNat_mod {n : Nat} (h : n < 64) : (immS n).toNat % 64 = n := by
  have hs : toSigned 32 n = (n : Int) := by
    have h1 : n % 2 ^ 32 = n := Nat.mod_eq_of_lt (by omega)
    rw [toSigned, h1, if_pos (by omega)]
  rw [immS, hs, BitVec.ofInt_natCast, BitVec.toNat_ofNat]
  omega

/-- The amount of a shift by a legal immediate is the immediate (R99). -/
theorem signExtend_mod {imm : BitVec 32} (h : imm.toNat < 64) : (imm.signExtend 64).toNat % 64 = imm.toNat := by
  rw [← immS_toNat, immS_toNat_mod h]

theorem slt_iff (a b : Word) : a.slt b = true ↔ a.toInt < b.toInt := by simp [BitVec.slt]

theorem scMul_eq (a b : Word) : scMul a b = BitVec.ofNat 64 (a.toNat * b.toNat) := by
  rw [scMul, BitVec.ofNat_mul, BitVec.ofNat_toNat, BitVec.ofNat_toNat, BitVec.setWidth_eq, BitVec.setWidth_eq]

theorem scMulh_eq (a b : Word) : scMulh a b = BitVec.ofInt 64 (a.toInt * b.toInt / 2 ^ 64) := rfl

theorem scMulhu_eq (a b : Word) : scMulhu a b = BitVec.ofNat 64 (a.toNat * b.toNat / 2 ^ 64) := rfl

theorem scMovh_eq (a : Word) (imm : BitVec 32) : scMovh a imm.toNat = BitVec.ofNat 64 (imm.toNat * 2 ^ 32 + a.toNat % 2 ^ 32) := by
  rw [scMovh, Nat.mod_eq_of_lt imm.isLt]

/-! ## The operations one by one -/

/-- How the model runs a scalar operation: its command issues the bundle that holds its word in its slot, and in a legal word S0 goes on and
the value is the one the spec gives. -/
structure Alu.Runs (a : Alu) (i : Instr) : Prop where
  exec : ∀ s, exec i s = .next (issueOp s a.core a.slot a.word .none)
  slot : a.slot < 2
  rd : (scF a.word).rd = a.rd
  plain : (scF a.word).plain = true
  val : ∀ s c idx, scOk a.slot idx a.word = true → scalarValue s c (s.core c) (scF a.word) = some (a.val s c)

/-- A legal shift by an immediate shifts by less than 64 (R99). -/
theorem imm_lt_of_scOk {slot idx w : Nat} (h : scOk slot idx w = true) (ho : 0x16 ≤ (scF w).opc ∧ (scF w).opc ≤ 0x18) : (scF w).imm < 64 := by
  obtain ⟨h1, h2⟩ := ho
  simp only [scOk, Bool.and_eq_true] at h
  obtain ⟨-, hc⟩ := h
  rw [if_neg (by simp; omega), if_neg (by simp; omega), if_neg (by simp; omega), if_pos (by simp; omega), Bool.and_eq_true] at hc
  exact of_decide_eq_true hc.2

/-- A scalar operation runs as its word says, once its value is that of the fields of the word. -/
theorem Alu.runs_of_word {i : Instr} {n : Fin 144} {k o imm : Nat} {rd rs1 rs2 : BitVec 5} {val : State → Nat → Word}
    (he : ∀ s, exec i s = .next (issueOp s n k (scWord o rd rs1 rs2 0 imm) .none)) (hk : k < 2) (ho : o ≤ 0x30) (hi : imm < 2 ^ 32)
    (hv : ∀ s c, (0x16 ≤ o → o ≤ 0x18 → imm < 64) →
      scalarValue s c (s.core c) { opc := o, rd := rd.toNat, rs1 := rs1.toNat, rs2 := rs2.toNat, lc := 0, rsvd := 0, imm := imm } = some (val s c)) :
    Alu.Runs ⟨n, k, scWord o rd rs1 rs2 0 imm, rd.toNat, val⟩ i := by
  have hw := scF_scWord (o := o) (lc := 0) rd rs1 rs2 (by omega) (by decide) hi
  refine ⟨he, hk, by simp only [hw], by simpa only [hw, ScF.plain, decide_eq_true_eq] using ho, fun s c idx hok => ?_⟩
  have := fun h1 h2 => imm_lt_of_scOk hok (by rw [hw]; exact ⟨h1, h2⟩)
  rw [hw] at this ⊢
  exact hv s c this

/-- Every scalar operation that writes an X register runs as the spec says. -/
theorem Alu.runs_of_aluOf {i : Instr} {a : Alu} (h : aluOf i = some a) : a.Runs i := by
  unfold aluOf at h
  split at h <;> cases h
  all_goals
    refine Alu.runs_of_word (fun _ => rfl) (by omega) (by omega) (by omega) fun s c hi => ?_
    simp only [scalarValue, scAdd, scSub, scAnd, scOr, scXor, scSll, scSrl, scSra, scSlt, scSltu, scSeq, scMin, scMax, scMinu, scMaxu, scMul_eq,
      scMulh_eq, scMulhu_eq, scDiv, scDivu, scRem, scRemu, scMovi, scMovh_eq, immS_toNat, slt_iff, BitVec.lt_def]
  -- What is left are the shifts by an immediate.
  all_goals rw [signExtend_mod (hi (by omega) (by omega))]

/-! ## Scalar results -/

/-- A scalar operation alone in its bundle writes its register and goes on. -/
theorem exec_alu {i : Instr} {s : State} {a : Alu} {c : Nat} (hi : aluOf i = some a) (h : aloneAt s a.core a.slot a.word = some c)
    (hp : (s.core c).plain = true) :
    exec i s = .next (setCore s c { (s.core c).onward with x := ((s.core c).setX a.rd (a.val s c)).x }) := by
  have hr := Alu.runs_of_aluOf hi
  have ha := alone_of_aloneAt h
  have hslot := hr.slot
  have hok := scOk_of_legal (illegalSlot_of_bundleTrap ha.noTrap) ha.bits hslot
  rw [ha.word] at hok
  rw [hr.exec, ha.issueOp_eq (by omega), issueEffects_scalar (v := a.val s c) (st_of_issuing ha.issuing) hp ha.bits hslot, ha.word, hr.rd]
  · rw [ha.word]; exact hr.plain
  · rw [ha.word]; exact hr.val s c _ hok

/-- A scalar operation in a legal bundle of its own raises no trap. -/
theorem bundleTrap_alu {i : Instr} {s : State} {a : Alu} {c b idx : Nat} {x : Core} (hi : aluOf i = some a) (hb : b % 64 = 2 ^ a.slot)
    (hw : slotOf b a.slot = a.word) (hl : illegalSlot x b idx = none) : bundleTrap s c x b idx = none := by
  have hr := Alu.runs_of_aluOf hi
  rw [bundleTrap_scalar hl hb hr.slot]
  by_cases h0 : a.slot = 0
  · rw [if_pos h0, ← h0, hw, scalarTrap_of_plain hr.plain]
  · rw [if_neg h0]

/-- Settles O1: every scalar operation issues the bundle that holds its word, whose effects are the register written and the next bundle. -/
theorem scalarResult : Obligations.ScalarResult := by
  unfold Obligations.ScalarResult
  refine ⟨fun i s a c hi h hp => ⟨_, exec_alu hi h hp, fun r => Core.xr_setX _ _ _ _⟩, fun i s a c hi hb hw hl => bundleTrap_alu hi hb hw hl⟩

end Sys2Proof.Machine
end

section
/-!
SUPPORT. Slot M: the bytes of tile memory after a store, lanes and byte strings, and what an access of slot M that resolves does.
-/
namespace Sys2Proof.Machine

/-! ## Byte strings -/

@[simp] theorem length_leBytes (n v : Nat) : (leBytes n v).length = n := by
  induction n generalizing v with
  | zero => rfl
  | succ n ih => rw [leBytes, List.length_cons, ih]

/-- Byte `i` of the bytes of a number. -/
theorem getD_leBytes {n i : Nat} (v : Nat) (h : i < n) : (leBytes n v).getD i 0 = BitVec.ofNat 8 (v / 256 ^ i) := by
  induction n generalizing v i with
  | zero => omega
  | succ n ih =>
    cases i with
    | zero => simp [leBytes]
    | succ i => rw [leBytes, List.getD_cons_succ, ih _ (by omega), Nat.div_div_eq_div_mul, Nat.pow_succ']

theorem leNat_cons (b : Byte) (l : List Byte) : leNat (b :: l) = b.toNat + leNat l <<< 8 := by
  rw [leNat, Nat.shiftLeft_eq]; omega

/-- A string of `n` bytes spells a number below `2 ^ (8 n)`. -/
theorem leNat_lt (l : List Byte) : leNat l < 2 ^ (8 * l.length) := by
  induction l with
  | nil => decide
  | cons b l ih => rw [leNat_cons]; exact add_shiftLeft_lt b.isLt ih (by rw [List.length_cons]; omega)

/-- The low bytes of a byte string's number are those of its head. -/
theorem leNat_mod (l : List Byte) (m : Nat) : leNat l % 2 ^ (8 * m) = leNat (l.take m) := by
  induction l generalizing m with
  | nil => simp [leNat]
  | cons b l ih =>
    cases m with
    | zero => simp [Nat.mod_one, leNat]
    | succ m =>
      have hb := b.isLt
      rw [List.take_succ_cons, leNat, leNat, ← ih, Nat.mul_succ, Nat.add_comm (8 * m), Nat.pow_add, Nat.mod_mul]
      congr 1
      · omega
      · congr 2; omega

/-- A field of whole bytes of a byte string's number. -/
theorem fieldAt_leNat (l : List Byte) (k m : Nat) : fieldAt (leNat l) (8 * k) (8 * m) = leNat ((l.drop k).take m) := by
  induction k generalizing l with
  | zero => rw [Nat.mul_zero, fieldAt, Nat.shiftRight_zero, leNat_mod, List.drop_zero]
  | succ k ih =>
    cases l with
    | nil => simp [leNat, fieldAt]
    | cons b l => rw [leNat_cons, Nat.mul_succ, Nat.add_comm (8 * k), fieldAt_add_shift _ _ b.isLt, ih, List.drop_succ_cons]

/-! ## Lanes -/

theorem fieldAt_lt (w lo n : Nat) : fieldAt w lo n < 2 ^ n := Nat.mod_lt _ (Nat.two_pow_pos n)

@[simp] theorem length_lanesOf (w : Nat) (v : VWord) : (lanesOf w v).length = 8192 / w := by simp [lanesOf]

theorem getD_lanesOf {w i : Nat} (v : VWord) (h : i < 8192 / w) : (lanesOf w v).getD i 0 = fieldAt v.toNat (i * w) w := by
  simp [lanesOf, List.getD, h]

theorem fieldAt_ofNat {k lo n : Nat} (v : Nat) (h : lo + n ≤ k) : fieldAt (BitVec.ofNat k v).toNat lo n = fieldAt v lo n := by
  rw [BitVec.toNat_ofNat, fieldAt_mod v h]

/-- A lane of packed lanes, below the width of a register. -/
theorem fieldAt_packLanes {w i : Nat} (l : List Nat) (h : i * w + w ≤ 8192) : fieldAt (packLanes w l).toNat (i * w) w = l.getD i 0 % 2 ^ w := by
  rw [packLanes, fieldAt_ofNat _ h]
  clear h
  induction l generalizing i with
  | nil => simp [fieldAt]
  | cons a l ih =>
    rw [List.foldr_cons, ← Nat.shiftLeft_eq]
    cases i with
    | zero => rw [Nat.zero_mul, fieldAt_add_low _ _ (by omega), fieldAt_zero (Nat.mod_lt _ (Nat.two_pow_pos w)), List.getD_cons_zero]
    | succ i => rw [Nat.succ_mul, Nat.add_comm (i * w), fieldAt_add_shift _ _ (Nat.mod_lt _ (Nat.two_pow_pos w)), ih, List.getD_cons_succ]

/-- A lane of merged lanes: the new value where the predicate activates it, the old one elsewhere (R63). -/
theorem getD_mergeLanes {ns os : List Nat} (p : BitVec 256) (w i : Nat) {j : Nat} (hl : ns.length = os.length) (hj : j < os.length) :
    (mergeLanes p w i ns os).getD j 0 = if activeLane p w (i + j) then ns.getD j 0 else os.getD j 0 := by
  induction os generalizing ns i j with
  | nil => simp at hj
  | cons o os ih =>
    cases ns with
    | nil => simp at hl
    | cons n ns =>
      rw [mergeLanes]
      cases j with
      | zero => simp
      | succ j =>
        simp only [List.length_cons, Nat.add_right_cancel_iff, Nat.add_lt_add_iff_right] at hl hj
        rw [List.getD_cons_succ, List.getD_cons_succ, List.getD_cons_succ, ih (i + 1) hl hj, Nat.add_right_comm, Nat.add_assoc]

/-- A lane of a register of 32-bit lanes merged under a predicate. -/
theorem fieldAt_merged {ns : List Nat} (p : BitVec 256) (old : VWord) {l : Nat} (hl : l < 256) (hn : ns.length = 256) (hlt : ns.getD l 0 < 2 ^ 32) :
    fieldAt (packLanes 32 (mergeLanes p 32 0 ns (lanesOf 32 old))).toNat (32 * l) 32 =
      if p.getLsbD l then ns.getD l 0 else fieldAt old.toNat (32 * l) 32 := by
  rw [Nat.mul_comm, fieldAt_packLanes _ (by omega), getD_mergeLanes p 32 0 (by rw [hn, length_lanesOf]) (by rw [length_lanesOf]; omega),
    getD_lanesOf old (by omega), Nat.zero_add, activeLane, Nat.mul_div_cancel l (by omega)]
  split
  · exact Nat.mod_eq_of_lt hlt
  · exact Nat.mod_eq_of_lt (fieldAt_lt _ _ _)

/-! ## Tile memory -/

/-- `m` bytes of a span of tile memory, from byte `k` on. -/
theorem tileBytes_sub (s : State) (t o : Nat) {k m n : Nat} (h : k + m ≤ n) : ((tileBytes s t o n).drop k).take m = tileBytes s t (o + k) m := by
  refine List.ext_getElem (by simp [tileBytes]; omega) fun i h1 h2 => ?_
  simp [tileBytes, Nat.add_assoc]

@[simp] theorem length_tileBytes (s : State) (t o n : Nat) : (tileBytes s t o n).length = n := by simp [tileBytes]

@[simp] theorem Core.onward_st (x : Core) : x.onward.st = x.st := rfl
@[simp] theorem Core.onward_pastEnd (x : Core) : x.onward.pastEnd = false := rfl
@[simp] theorem Core.onward_tmem (x : Core) : x.onward.tmem = x.tmem := rfl
@[simp] theorem Core.onward_xr (x : Core) (r : Nat) : x.onward.xr r = x.xr r := rfl
@[simp] theorem Core.setX_st (x : Core) (n : Nat) (v : Word) : (x.setX n v).st = x.st := by rw [Core.setX_eq]
@[simp] theorem Core.setX_pastEnd (x : Core) (n : Nat) (v : Word) : (x.setX n v).pastEnd = x.pastEnd := by rw [Core.setX_eq]

/-- A core that has gone on has the tile memory it had. -/
@[simp] theorem core_onward_tmem (s : State) (c d : Nat) : ((setCore s c (s.core c).onward).core d).tmem = (s.core d).tmem := by
  rw [core_setCore]
  split
  · next h => rw [h]; rfl
  · rfl

@[simp] theorem core_onward_ue (s : State) (c d : Nat) : ((setCore s c (s.core c).onward).core d).ue = (s.core d).ue := by
  rw [core_setCore]
  split
  · next h => rw [h]; rfl
  · rfl

@[simp] theorem tileBytes_onward (s : State) (c t o n : Nat) : tileBytes (setCore s c (s.core c).onward) t o n = tileBytes s t o n := by
  simp only [tileBytes, Core.tileByte, setCore_draws, core_onward_tmem, core_onward_ue]

@[simp] theorem badWord_onward (s : State) (c t o n : Nat) : badWord (setCore s c (s.core c).onward) t o n = badWord s t o n := by
  simp only [badWord, core_onward_ue]

theorem badWord_of_ue_nil {s : State} {t : Nat} (h : (s.core t).ue = []) (o n : Nat) : badWord s t o n = none := by simp [badWord, h]

theorem readTile_good {s : State} {t o n : Nat} (h : badWord s t o n = none) : readTile s t o n = (s, tileBytes s t o n) := by
  simp [readTile, h]

/-- The table after a masked store: the bytes the mask names at their keys, every other key as before. -/
theorem get_storeMasked (bs : List Byte) (m : Tab Byte) (o i a : Nat) (mask : Nat → Bool) :
    Tab.get 0 (storeMasked m o mask i bs) a =
      if o + i ≤ a ∧ a < o + i + bs.length ∧ mask (a - o) = true then bs.getD (a - o - i) 0 else Tab.get 0 m a := by
  induction bs generalizing m i with
  | nil =>
    rw [storeMasked, if_neg]
    rintro ⟨h1, h2, -⟩
    rw [List.length_nil] at h2
    omega
  | cons b r ih =>
    have hm : Tab.get 0 (if mask i = true then Tab.set 0 m (o + i) b else m) a = if a = o + i ∧ mask i = true then b else Tab.get 0 m a := by
      by_cases h : mask i = true
      · simp [h, Tab.get_set]
      · simp [h]
    rw [storeMasked, ih, hm, List.length_cons]
    by_cases ha : a = o + i
    · subst ha
      simp
    · rw [if_neg (show ¬ (a = o + i ∧ mask i = true) from fun h => ha h.1)]
      by_cases hr : o + (i + 1) ≤ a ∧ a < o + (i + 1) + r.length ∧ mask (a - o) = true
      · rw [if_pos hr, if_pos ⟨by omega, by omega, hr.2.2⟩, show a - o - i = (a - o - (i + 1)) + 1 by omega, List.getD_cons_succ]
      · rw [if_neg hr, if_neg fun h => hr ⟨by omega, by omega, h.2.2⟩]

/-- A core with another tile memory. -/
def Core.withTmem (x : Core) (m : Tab Byte) : Core := { x with tmem := m }

/-- The module with another tile memory of core `t`. -/
def setTmem (s : State) (t : Nat) (m : Tab Byte) : State := setCore s t ((s.core t).withTmem m)

@[simp] theorem Core.withTmem_tmem (x : Core) (m : Tab Byte) : (x.withTmem m).tmem = m := rfl
@[simp] theorem Core.withTmem_st (x : Core) (m : Tab Byte) : (x.withTmem m).st = x.st := rfl
@[simp] theorem Core.withTmem_pastEnd (x : Core) (m : Tab Byte) : (x.withTmem m).pastEnd = x.pastEnd := rfl
@[simp] theorem Core.withTmem_xr (x : Core) (m : Tab Byte) (r : Nat) : (x.withTmem m).xr r = x.xr r := rfl
@[simp] theorem Core.withTmem_setX (x : Core) (m : Tab Byte) (n : Nat) (v : Word) : (x.withTmem m).setX n v = (x.setX n v).withTmem m := by
  unfold Core.setX; split <;> rfl

/-- Setting the tile memory of a core changes that tile memory alone. -/
theorem core_setTmem (s : State) (t d : Nat) (m : Tab Byte) :
    (setTmem s t m).core d = (s.core d).withTmem (if d = t then m else (s.core d).tmem) := by
  rw [setTmem, core_setCore]
  split
  · next h => rw [h]
  · rfl

theorem setTmem_frame {s t : State} (h : t = { s with cores := t.cores }) (d : Nat) (m : Tab Byte) :
    setTmem t d m = { s with cores := (setTmem t d m).cores } := setCore_frame_trans h d _

/-- A store where no word is uncorrectable sets the tile memory and nothing else (R76). -/
theorem writeTile_good {s : State} {t : Nat} (h : (s.core t).ue = []) (o : Nat) (bs : List Byte) (mask : Nat → Bool) :
    writeTile s t o bs mask = setTmem s t (storeMasked (s.core t).tmem o mask 0 bs) := by
  simp only [writeTile, h, List.find?_nil, List.filter_nil, setTmem, Core.withTmem]

/-- A store to the core itself, or to one that is not in RESET, is not held (R78). -/
theorem storeLocal_direct {s : State} {c t : Nat} (h : t = c ∨ (s.core t).st ≠ .reset) (o : Nat) (bs : List Byte) (mask : Nat → Bool) :
    storeLocal s c t o bs mask = writeTile s t o bs mask := by
  rw [storeLocal, if_neg]
  rcases h with h | h <;> simp [h]

@[simp] theorem core_setCore_self (s : State) (c d : Nat) : (setCore s c (s.core c)).core d = s.core d := by
  rw [core_setCore]; split
  · next h => rw [h]
  · rfl

/-! ## Accesses of slot M -/

/-- Where an access goes does not depend on the core that makes it having gone on. -/
theorem accLocal_setCore (s : State) (c : Nat) (x y : Core) (f : MF) : accLocal (setCore s c x) c y f = accLocal s c y f := by
  have hr : ∀ n, reachable (setCore s c x) c n = reachable s c n := by
    intro n
    unfold reachable
    dsimp only
    by_cases h : c / 24 * 24 + n = c
    · rw [if_pos h, if_pos h]
    · rw [if_neg h, if_neg h, setCore_core_ne s c _ x h]
      rfl
  simp only [accLocal, resolveLocal, hr]

/-- An access of slot M that resolves and is not held has its effect where it resolves. -/
theorem memEffects_at {s : State} {c t o : Nat} {old : Core} {f : MF} (ha : isAcc f.opc = true) (hl : accLocal s c old f = .at t o) :
    memEffects s c old .none f =
      if isAmo f.opc then doAmo s c t o old f
      else if f.opc = 0x11 then doVst s c t o old f
      else if isStore f.opc then doStore s c t o old f
      else if f.opc = 0x10 then doVld s c t o old f
      else if f.opc = 0x12 then doVldbc s c t o old f
      else doLoad s c t o f := by
  simp only [memEffects, ha, hl, findTileErr, ite_self, if_true]

/-- The command of a memory operation alone in its bundle: the effects of slot M on the core that has gone on. -/
theorem exec_memory {i : Instr} {s t : State} {n : Fin 144} {f : MF} {c : Nat} (he : exec i s = .next (issueMem n f .none s))
    (hw : mF (mWord f) = f) (hf : f.opc ≠ 0x30) (h : aloneAt s n 2 (mWord f) = some c) (hp : (s.core c).plain = true)
    (ht : memEffects (setCore s c (s.core c).onward) c (s.core c) .none f = t) (htr : (t.core c).st = .running) (htp : (t.core c).pastEnd = false) :
    exec i s = .next (setCore t c (t.core c)) := by
  have ha := alone_of_aloneAt h
  rw [he, issueMem, ha.issueOp_eq (by decide), issueEffects_memory (st_of_issuing ha.issuing) hp ha.bits (by rw [ha.word, hw]) hf ht htr htp]

end Sys2Proof.Machine
end

section
/-!
PROOFS. The atomics of slot M (R78, R106).
-/
namespace Sys2Proof.Machine

/-! ## The words of the atomics -/

/-- How the model runs an atomic: its command issues the bundle that holds its word in slot M, and the fields of the word are its own. -/
structure MF.RunsAtomic (f : MF) (i : Instr) (n : Fin 144) : Prop where
  exec : ∀ s, exec i s = .next (issueMem n f .none s)
  word : mF (mWord f) = f
  opc : 0x18 ≤ f.opc ∧ f.opc ≤ 0x1C

theorem mF_mWord_amoF {o : Nat} (xt xa xb xc : BitVec 5) (imm : BitVec 32) (sz u : Bool) (ho : o < 2 ^ 8) :
    mF (mWord (amoF o xt xa xb xc imm sz u)) = amoF o xt xa xb xc imm sz u :=
  mF_mWord ho (xt.isLt.trans (by decide)) xa.isLt xb.isLt xc.isLt (Nat.two_pow_pos 3) (Nat.two_pow_pos 4)
    (by cases sz <;> simp [amoF]) (by cases u <;> simp [amoF]) rfl imm.isLt

/-- Every atomic of slot M runs as its word says. -/
theorem MF.runsAtomic_of_amoOf {i : Instr} {n : Fin 144} {f : MF} (h : amoOf i = some (n, f)) : f.RunsAtomic i n := by
  unfold amoOf at h
  split at h <;> cases h
  all_goals exact ⟨fun _ => rfl, mF_mWord_amoF _ _ _ _ _ _ _ (by decide), by simp [amoF, mOp]⟩

/-- The bytes of the word of an atomic, the value it leaves there and the value it gives XT, from the old one (R106, R210). -/
def MF.atomBytes (f : MF) : Nat := if f.sz = 1 then 8 else 4
def MF.atomNew (f : MF) (x : Core) (old : Nat) : Nat := atomicNew (f.opc - 8) (8 * f.atomBytes) (f.u = 1) old (x.xr f.rb).toNat (x.xr f.rc).toNat
def MF.atomOld (f : MF) (old : Nat) : Word := BitVec.ofNat 64 (atomicOld (8 * f.atomBytes) (f.u = 1) old)

theorem accSize_atomic {f : MF} (h : 0x18 ≤ f.opc ∧ f.opc ≤ 0x1C) : accSize f = f.atomBytes := by
  obtain ⟨o, t, ra, rb, rc, ps, sk, sz, u, rsvd, imm⟩ := f
  obtain ⟨h1, h2⟩ := h
  dsimp only at h1 h2
  interval_cases o <;> rfl

theorem isAcc_atomic {o : Nat} (h : 0x18 ≤ o ∧ o ≤ 0x1C) : isAcc o = true := by simp [isAcc, h.2]

theorem isAmo_atomic {o : Nat} (h : 0x18 ≤ o ∧ o ≤ 0x1C) : isAmo o = true := by simp [isAmo, h]

/-! ## The effect at the bank -/

/-- The tile memory an atomic leaves. -/
def MF.atomTmem (f : MF) (m : Tab Byte) (x : Core) (o old : Nat) : Tab Byte :=
  storeMasked m o (fun _ => true) 0 (leBytes f.atomBytes (f.atomNew x old))

/-- An atomic where no word is uncorrectable: the tile memory with the new word, and XT with the old one. -/
theorem doAmo_good {s : State} {t : Nat} {f : MF} (h : (s.core t).ue = []) (hf : 0x18 ≤ f.opc ∧ f.opc ≤ 0x1C) (c o : Nat) (x : Core) :
    doAmo s c t o x f =
      let old := leNat (tileBytes s t o f.atomBytes)
      let v := setTmem s t (f.atomTmem (s.core t).tmem x o old)
      setCore v c ((v.core c).setX f.t (f.atomOld old)) := by
  have hb := badWord_of_ue_nil h o f.atomBytes
  have ho : amoOpc f.opc = f.opc - 8 := by unfold amoOpc; omega
  simp only [doAmo, hb, readTile_good hb, writeTile_good h, Option.isSome_none, Bool.false_eq_true, if_false, accSize_atomic hf, ho, MF.atomOld,
    MF.atomNew, MF.atomTmem]

/-- A byte of the tile memory an atomic leaves. -/
theorem get_atomTmem (f : MF) (m : Tab Byte) (x : Core) (o old a : Nat) :
    Tab.get 0 (f.atomTmem m x o old) a =
      if o ≤ a ∧ a < o + f.atomBytes then BitVec.ofNat 8 (f.atomNew x old / 256 ^ (a - o)) else Tab.get 0 m a := by
  rw [MF.atomTmem, get_storeMasked, length_leBytes, Nat.add_zero, Nat.sub_zero]
  by_cases h : o ≤ a ∧ a < o + f.atomBytes
  · rw [if_pos ⟨h.1, h.2, rfl⟩, if_pos h, getD_leBytes _ (by omega)]
  · rw [if_neg fun g => h ⟨g.1, g.2.1⟩, if_neg h]

/-- An atomic alone in its bundle: the tile memory of the bank takes the new word, the core goes on with the old one in XT. -/
theorem exec_atomic {i : Instr} {s : State} {n : Fin 144} {f : MF} {c t o : Nat} (hi : amoOf i = some (n, f)) (h : aloneAt s n 2 (mWord f) = some c)
    (hp : (s.core c).plain = true) (hl : accLocal s c (s.core c) f = .at t o) (hue : (s.core t).ue = []) :
    let old := leNat (tileBytes s t o f.atomBytes)
    let m := f.atomTmem (s.core t).tmem (s.core c) o old
    exec i s = .next (setCore (setTmem (setCore s c (s.core c).onward) t m) c
      (((s.core c).onward.setX f.t (f.atomOld old)).withTmem (if c = t then m else (s.core c).tmem))) := by
  intro old m
  have hf := MF.runsAtomic_of_amoOf hi
  have hst := st_of_issuing (alone_of_aloneAt h).issuing
  have hm := memEffects_at (isAcc_atomic hf.opc) ((accLocal_setCore s c (s.core c).onward _ f).trans hl)
  rw [if_pos (isAmo_atomic hf.opc), doAmo_good (by rw [core_onward_ue, hue]) hf.opc] at hm
  simp only [core_setTmem, setCore_core_same, tileBytes_onward, core_onward_tmem, Core.withTmem_setX] at hm
  refine (exec_memory (hf.exec s) hf.word (by have := hf.opc; omega) h hp hm ?_ ?_).trans ?_
  · simp [hst]
  · simp
  · simp [old, m]

/-- The tile memories after the effect of an atomic of a core that has gone on. -/
theorem tmem_setTmem_setCore (s : State) (t c d : Nat) (m : Tab Byte) (y : Core) :
    ((setCore (setTmem (setCore s c (s.core c).onward) t m) c (y.withTmem (if c = t then m else (s.core c).tmem))).core d).tmem =
      if d = t then m else (s.core d).tmem := by
  rw [core_setCore]
  split
  · next h => rw [h]; rfl
  · rw [core_setTmem, Core.withTmem_tmem, core_onward_tmem]

/-! ## An atomic that is not aligned -/

/-- A memory operation whose bundle traps stops the core with that trap and does nothing else (R89). -/
theorem exec_memory_trap {i : Instr} {s : State} {n : Fin 144} {f : MF} {c cause : Nat} {v : Word} (he : exec i s = .next (issueMem n f .none s))
    (hc : coreOf s n = some c) (hi : issuing s c = true) (hh : headerOk (bundleAt (s.core c)) = true) (hb : bundleAt (s.core c) % 64 = 2 ^ 2)
    (hw : slotOf (bundleAt (s.core c)) 2 = mWord f) (ht : bundleTrap s c (s.core c) (bundleAt (s.core c)) (s.core c).idx = some (cause, v)) :
    exec i s = .next (setCore s c ((s.core c).trap cause v)) := by
  have hv : slotValid (bundleAt (s.core c)) 2 = true := by simp [slotValid_of_bits hb]
  rw [Core.idx] at ht
  simp [he, issueMem, issueOp, hc, hi, hh, hv, hw, issue, ht]

/-- A span inside the tile memory of a core that is not aligned traps with LOCAL_ALIGN, whatever core it is (R74; log 154). -/
theorem resolveLocal_align (s : State) (c : Nat) {addr n align : Nat} (hw : addr / tileWindow < 24) (ho : addr % tileWindow + n ≤ tileSize)
    (ha : addr % align ≠ 0) : resolveLocal s c addr n align = .trap 0x04 (BitVec.ofNat 64 addr) := by
  unfold resolveLocal
  dsimp only
  rw [if_neg (by simp only [Bool.or_eq_true, decide_eq_true_eq]; omega), if_pos ha]

/-- An atomic inside the tile memory of a core that is not aligned to its word traps with LOCAL_ALIGN (R74, R78). -/
theorem memTrap_align {s : State} {c : Nat} {x : Core} {f : MF} (hf : 0x18 ≤ f.opc ∧ f.opc ≤ 0x1C) (hw : effAddr x f < 24 * 0x400000)
    (ho : effAddr x f % 0x400000 + f.atomBytes ≤ 0x300000) (ha : effAddr x f % f.atomBytes ≠ 0) :
    memTrap s c x f = some (0x04, BitVec.ofNat 64 (effAddr x f)) := by
  have h1024 : f.atomBytes ≠ 1024 := by unfold MF.atomBytes; split <;> decide
  have hl : accLocal s c x f = .trap 0x04 (BitVec.ofNat 64 (effAddr x f)) := by
    rw [accLocal, accSize_atomic hf, accAlign, if_neg h1024, if_neg (by omega)]
    exact resolveLocal_align s c (by unfold tileWindow; omega) ho ha
  simp only [memTrap, isAcc_atomic hf, hl, if_true]

/-- Settles O9: an atomic alone in its bundle is a store of the new word at the bank and a write of XT; one that is not aligned is a trap of slot M. -/
theorem atomicResult : Obligations.AtomicResult := by
  unfold Obligations.AtomicResult
  refine ⟨fun i s n f c t o hi h hp hl hue => ?_, fun i s n f c hi hc hiss hh hb hw hleg => ?_⟩
  · refine ⟨_, exec_atomic hi h hp hl hue, setCore_frame_trans (setTmem_frame (setCore_frame s c _) _ _) _ _, fun d a => ?_, fun r => ?_, fun d hd => ?_, ?_⟩
    · rw [tmem_setTmem_setCore]
      by_cases hd : d = t
      · rw [if_pos hd, get_atomTmem, hd]
        simp only [true_and]
        rfl
      · rw [if_neg hd, if_neg fun g => hd g.1]
    · rw [setCore_core_same, Core.withTmem_xr, Core.xr_setX, Core.onward_xr]
      rfl
    · rw [setCore_core_ne _ _ _ _ hd, core_setTmem, setCore_core_ne _ _ _ _ hd]
      rfl
    · rw [setCore_core_same, Core.setX_eq]
      rfl
  · intro a k ha hk hal
    have hf := MF.runsAtomic_of_amoOf hi
    refine exec_memory_trap (hf.exec s) hc hiss hh hb hw ?_
    rw [bundleTrap_memory hleg hb, hw, hf.word]
    exact memTrap_align hf.opc ha hk hal

end Sys2Proof.Machine
end

section
/-!
PROOFS. The vector loads and stores (R107).
-/
namespace Sys2Proof.Machine

/-- The fields of a vector load or store. -/
def vecMF (o : Nat) (vt : BitVec 6) (xa : BitVec 5) (imm : BitVec 32) (ps : BitVec 3) : MF :=
  { mOp o vt.toNat xa.toNat imm with ps := ps.toNat }

theorem mF_mWord_vecMF {o : Nat} (vt : BitVec 6) (xa : BitVec 5) (imm : BitVec 32) (ps : BitVec 3) (ho : o < 2 ^ 8) :
    mF (mWord (vecMF o vt xa imm ps)) = vecMF o vt xa imm ps :=
  mF_mWord ho vt.isLt xa.isLt (Nat.two_pow_pos 5) (Nat.two_pow_pos 5) ps.isLt (Nat.two_pow_pos 4) (Nat.two_pow_pos 1) (Nat.two_pow_pos 1) rfl imm.isLt

/-! ## Loads -/

@[simp] theorem Core.setV_st (x : Core) (n : Nat) (v : VWord) : (x.setV n v).st = x.st := rfl
@[simp] theorem Core.setV_pastEnd (x : Core) (n : Nat) (v : VWord) : (x.setV n v).pastEnd = x.pastEnd := rfl

/-- The register VT after the lanes PS names have taken new values. -/
def Core.loadedV (x : Core) (f : MF) (new : List Nat) : VWord := packLanes 32 (mergeLanes (x.pr f.ps) 32 0 new (lanesOf 32 (x.vr f.t)))

/-- The values a vector load offers the lanes: those of 1,024 bytes for VLD, one word in every lane for VLDBC. -/
def vecNew (wide : Bool) (bs : List Byte) : List Nat :=
  if wide then lanesOf 32 (BitVec.ofNat 8192 (leNat bs)) else List.replicate 256 (leNat bs)

theorem vecNew_wide (bs : List Byte) : vecNew true bs = lanesOf 32 (BitVec.ofNat 8192 (leNat bs)) := rfl
theorem vecNew_word (bs : List Byte) : vecNew false bs = List.replicate 256 (leNat bs) := rfl

/-- Opcode and bytes of a vector load. -/
def vecOpc (wide : Bool) : Nat := if wide then 0x10 else 0x12
def vecBytes (wide : Bool) : Nat := if wide then 1024 else 4

/-- The effect of a vector load that finds no uncorrectable word. -/
theorem memEffects_vecLoad {s : State} {c t o : Nat} {x : Core} {wide : Bool} {f : MF} (hf : f.opc = vecOpc wide) (hl : accLocal s c x f = .at t o)
    (hb : badWord s t o (vecBytes wide) = none) :
    memEffects s c x .none f = setCore s c ((s.core c).setV f.t (x.loadedV f (vecNew wide (tileBytes s t o (vecBytes wide))))) := by
  rw [memEffects_at (by rw [hf]; cases wide <;> rfl) hl, hf]
  cases wide
  · change doVldbc s c t o x f = _
    rw [doVldbc, readTile_good (n := 4) hb]
    rfl
  · change doVld s c t o x f = _
    rw [doVld, readTile_good (n := 1024) hb]
    rfl

/-- A vector load alone in its bundle writes VT and goes on. -/
theorem exec_vecLoad {i : Instr} {s : State} {n : Fin 144} {f : MF} {c t o : Nat} {wide : Bool} (he : exec i s = .next (issueMem n f .none s))
    (hw : mF (mWord f) = f) (hf : f.opc = vecOpc wide) (h : aloneAt s n 2 (mWord f) = some c) (hp : (s.core c).plain = true)
    (hl : accLocal s c (s.core c) f = .at t o) (hb : badWord s t o (vecBytes wide) = none) :
    exec i s = .next (setCore s c
      ((s.core c).onward.setV f.t ((s.core c).loadedV f (vecNew wide (tileBytes s t o (vecBytes wide)))))) := by
  have hm := memEffects_vecLoad (x := s.core c) hf ((accLocal_setCore s c (s.core c).onward _ f).trans hl) ((badWord_onward s c t o _).trans hb)
  rw [setCore_core_same, setCore_setCore_same, tileBytes_onward] at hm
  refine (exec_memory he hw (by rw [hf]; cases wide <;> decide) h hp hm ?_ ?_).trans ?_
  · simp [st_of_issuing (alone_of_aloneAt h).issuing]
  · simp
  · simp

/-- The value a vector load offers a lane: the word at its place, or the one word. -/
theorem getD_vecNew (s : State) (t o : Nat) (wide : Bool) {l : Nat} (hl : l < 256) :
    (vecNew wide (tileBytes s t o (vecBytes wide))).getD l 0 = leNat (tileBytes s t (if wide then o + 4 * l else o) 4) := by
  cases wide
  · rw [vecNew_word, List.getD_replicate _ hl]
    rfl
  · have hsub := tileBytes_sub s t o (show 4 * l + 4 ≤ vecBytes true by rw [vecBytes, if_pos rfl]; omega)
    have hf := fieldAt_leNat (tileBytes s t o (vecBytes true)) (4 * l) 4
    rw [vecNew_wide, getD_lanesOf _ (by omega), fieldAt_ofNat _ (by omega), show l * 32 = 8 * (4 * l) by omega, if_pos rfl, ← hsub]
    exact hf

theorem length_vecNew (wide : Bool) (bs : List Byte) : (vecNew wide bs).length = 256 := by
  cases wide
  · rw [vecNew_word, List.length_replicate]
  · rw [vecNew_wide, length_lanesOf]

/-- A lane of VT after a vector load. -/
theorem fieldAt_loadedV (s : State) (x : Core) (f : MF) (t o : Nat) (wide : Bool) {l : Nat} (hl : l < 256) :
    fieldAt (x.loadedV f (vecNew wide (tileBytes s t o (vecBytes wide)))).toNat (32 * l) 32 =
      if (x.pr f.ps).getLsbD l then leNat (tileBytes s t (if wide then o + 4 * l else o) 4) else fieldAt (x.vr f.t).toNat (32 * l) 32 := by
  have hlt : leNat (tileBytes s t (if wide then o + 4 * l else o) 4) < 2 ^ 32 := by
    have := leNat_lt (tileBytes s t (if wide then o + 4 * l else o) 4)
    rwa [length_tileBytes] at this
  rw [Core.loadedV, fieldAt_merged _ _ hl (length_vecNew _ _) (by rw [getD_vecNew s t o wide hl]; exact hlt), getD_vecNew s t o wide hl]

/-! ## Stores -/

/-- The tile memory VST leaves: the bytes of the lanes PS names. -/
def Core.vstTmem (x : Core) (f : MF) (m : Tab Byte) (o : Nat) : Tab Byte :=
  storeMasked m o (fun i => (x.pr f.ps).getLsbD (i / 4)) 0 (leBytes 1024 (x.vr f.t).toNat)

theorem get_vstTmem (x : Core) (f : MF) (m : Tab Byte) (o a : Nat) :
    Tab.get 0 (x.vstTmem f m o) a =
      if o ≤ a ∧ a < o + 1024 ∧ (x.pr f.ps).getLsbD ((a - o) / 4) = true then byteAt (x.vr f.t) (a - o) else Tab.get 0 m a := by
  rw [Core.vstTmem, get_storeMasked, length_leBytes, Nat.add_zero, Nat.sub_zero]
  by_cases h : o ≤ a ∧ a < o + 1024 ∧ (x.pr f.ps).getLsbD ((a - o) / 4) = true
  · rw [if_pos h, if_pos h, getD_leBytes _ (by omega), byteAt, Nat.shiftRight_eq_div_pow, Nat.pow_mul]
  · rw [if_neg h, if_neg h]

/-- The effect of a VST that no RESET holds where no word is uncorrectable. -/
theorem memEffects_vst {s : State} {c t o : Nat} {x : Core} {f : MF} (hf : f.opc = 0x11) (hl : accLocal s c x f = .at t o)
    (hr : t = c ∨ (s.core t).st ≠ .reset) (hue : (s.core t).ue = []) :
    memEffects s c x .none f = setTmem s t (x.vstTmem f (s.core t).tmem o) := by
  rw [memEffects_at (by rw [hf]; rfl) hl, hf, if_neg (by decide), if_pos rfl, doVst, storeLocal_direct hr, writeTile_good hue, Core.vstTmem]

/-- A VST alone in its bundle stores its bytes and goes on. -/
theorem exec_vst {i : Instr} {s : State} {n : Fin 144} {f : MF} {c t o : Nat} (he : exec i s = .next (issueMem n f .none s))
    (hw : mF (mWord f) = f) (hf : f.opc = 0x11) (h : aloneAt s n 2 (mWord f) = some c) (hp : (s.core c).plain = true)
    (hl : accLocal s c (s.core c) f = .at t o) (hr : t = c ∨ (s.core t).st ≠ .reset) (hue : (s.core t).ue = []) :
    ∃ u, exec i s = .next u ∧ u = { s with cores := u.cores } ∧ ∀ d, u.core d =
      (if d = c then (s.core c).onward else s.core d).withTmem (if d = t then (s.core c).vstTmem f (s.core t).tmem o else (s.core d).tmem) := by
  have hst := st_of_issuing (alone_of_aloneAt h).issuing
  have hm := memEffects_vst (x := s.core c) hf ((accLocal_setCore s c (s.core c).onward _ f).trans hl)
    (hr.imp_right fun hr => by rw [core_setCore]; split <;> simp_all) ((core_onward_ue s c t).trans hue)
  rw [core_onward_tmem] at hm
  refine ⟨_, exec_memory he hw (by rw [hf]; decide) h hp hm ?_ ?_, setCore_frame_trans (setTmem_frame (setCore_frame s c _) _ _) _ _, fun d => ?_⟩
  · simp [core_setTmem, hst]
  · simp [core_setTmem]
  · rw [core_setCore_self, core_setTmem, core_onward_tmem, core_setCore]

/-- Settles O10: a vector load is a write of VT's lanes, a VST is a masked store to the tile memory it resolves to. -/
theorem vectorMemory : Obligations.VectorMemory := by
  unfold Obligations.VectorMemory
  constructor
  · intro s n vt xa imm ps c t o wide f k h hp hl hb
    have hw : mF (mWord f) = f := mF_mWord_vecMF vt xa imm ps (by cases wide <;> decide)
    refine ⟨_, exec_vecLoad (wide := wide) (f := f) (n := n) ?_ hw rfl h hp hl hb, fun l hl => fieldAt_loadedV s _ f t o wide hl⟩
    cases wide <;> rfl
  · intro s n vt xa imm ps c t o f h hp hl hr hue
    have hw : mF (mWord f) = f := mF_mWord_vecMF vt xa imm ps (by decide)
    obtain ⟨u, hu, hframe, hcore⟩ := exec_vst (i := .vst n vt xa imm ps) rfl hw rfl h hp hl hr hue
    refine ⟨u, hu, hframe, fun d a => ?_, fun d hd => ?_, ?_⟩
    · rw [hcore, Core.withTmem_tmem]
      by_cases hd : d = t
      · rw [if_pos hd, get_vstTmem, hd]
        simp only [true_and]
      · rw [if_neg hd, if_neg fun g => hd g.1]
    · rw [hcore, if_neg hd]
      rfl
    · rw [hcore, if_pos rfl]
      rfl

end Sys2Proof.Machine
end
